-- ==== Sys2Proof/Word.lean ====
section
/-! DEFINITION. The words of the machine and the names of its slots (R4, R33). -/

namespace Sys2Proof

/-- A 64-bit scalar register value. -/
abbrev Word := BitVec 64
/-- One byte (R4). -/
abbrev Byte := BitVec 8
/-- One accumulator row of 512 bytes, byte 0 least significant (R22). -/
abbrev Row := BitVec 4096
/-- One mask register (R25). -/
abbrev Mask := BitVec 512

/-- The eight slots of a bundle, in the order of their words (R33, Table 3.1). -/
inductive Slot | c | ia | ib | va | vb | mx | xc | cf
  deriving DecidableEq, Repr

/-- The number of a slot (Table 3.1). -/
def Slot.idx : Slot → Nat
  | .c => 0 | .ia => 1 | .ib => 2 | .va => 3 | .vb => 4 | .mx => 5 | .xc => 6 | .cf => 7

/-- The slots in slot order (R39). -/
def Slot.all : List Slot := [.c, .ia, .ib, .va, .vb, .mx, .xc, .cf]

/-- The two scalar slots that hold the operations of Table 3.15. -/
inductive IUnit | ia | ib
  deriving DecidableEq, Repr

/-- The two vector slots of Table 3.16. -/
inductive VUnit | va | vb
  deriving DecidableEq, Repr

/-- The slot of a scalar unit. -/
def IUnit.slot : IUnit → Slot
  | .ia => .ia | .ib => .ib

/-- The slot of a vector unit. -/
def VUnit.slot : VUnit → Slot
  | .va => .va | .vb => .vb

/-- 1 for true, 0 for false. -/
def b2n (b : Bool) : Nat := if b then 1 else 0

end Sys2Proof
end

