-- ==== Sys2Proof/Config.lean ====
section
/-! DEFINITION. What the spec leaves open: constants without a body, so that nothing in Lean can evaluate one or prove a value of it.
The free values are applied to a counter of State and to a salt that tells the choices of one step apart (log 4). -/

namespace Sys2Proof

/-- A free choice or a free value (R2, R46, R51): the counter of State, a salt. Log 4. -/
opaque Config.free : Nat → Nat → Nat

/-- The instruction family's special functions where the interval arithmetic of the model does not decide the rounding: the value the
correctly rounded result takes (R156). The function's number, the operand's pattern, the format's number and the mode. Log 20. -/
opaque Config.special : Nat → Nat → Nat → Nat → Nat

/-- The object id of the code object that the shepherds' and the housekeeper's firmware runs in: the spec names none. Log 7. -/
opaque Config.firmwareObject : Nat

/-- The vendor's public key as the part stores it (R385); its SHA-256 is fused. Log 21. -/
opaque Config.vendorKey : List Byte

/-- The BODY of a recorder entry of a type with the fields that Table 25.10 names: their places are not given. Log 15. -/
opaque Config.recorderBody : Nat → List Nat → Nat

/-- The HSS/LMS signature of a digest under the one-time key of the given number (R386). Log 21. -/
opaque Config.signature : Nat → Nat → Nat

/-- The pseudo-channel of a byte of an HBM stack: the spec fixes no mapping (R280). Log 22. -/
opaque Config.pseudoChannel : Nat → Nat → Nat

/-- The set of a line, by its object and line number: the spec fixes no selection (R208). Log 81. -/
opaque Config.lineSet : Nat → Nat → Nat

/-- The fused digests of the part (R385, R387): 0 the ROM's, 1 the vendor key's. Log 21. -/
opaque Config.fuse : Nat → Nat

/-- Where the boot region of a stack holds the image of a KIND: an offset in the stack. Log 21. -/
opaque Config.bootRegion : Nat → Nat → Nat

/-- A field of a signed configuration, by number: the layout of a configuration's body is not the spec's (R384). Log 21. -/
opaque Config.setting : List Byte → Nat → Nat

/-- The bytes that the housekeeper's boot leaves in HBM before it starts the shepherds: tables, code objects. Log 21. -/
opaque Config.bootWrites : List Byte → List (Nat × Nat)

/-- The REASON by which a rejected record's notice says its causes: no table gives the numbers (R291; log 15). -/
opaque Config.rejectReason : List Nat → Nat

end Sys2Proof
end

