-- ==== Sys2Proof/Syntax.lean ====
section
/-! DEFINITION. The instructions: one constructor for each row of spec/opcode_table.json.
A slot operation carries its fields as its word (and its extension word) holds them; the steps the table lists without an
encoding carry nothing: what such a step acts on stands in EventArgs (log 3). -/

namespace Sys2Proof

/-- What kind of Ethernet frame arrives at a port (R212, R213). -/
inductive FrameKind | pause | pfc | otherDelivery | otherSemantic | rod
  deriving DecidableEq, Repr

/-- An Ethernet frame that arrives at a port (R212): its length, its kind, its source address and the connection it names. -/
structure Frame where
  len : Nat
  kind : FrameKind
  src : BitVec 128
  conn : Nat
  deriving DecidableEq, Repr

/-- Where an uncorrectable error is found (R404, Table 25.2). -/
inductive ErrLoc
  /-- context state, in-flight operations, engine queues or a porch entry of a core -/
  | core (c : Nat)
  /-- a byte of a scratchpad or room (numbered 0-287 and 288-575) -/
  | space (sp off : Nat)
  /-- the sector of an L2 line -/
  | l2 (obj line sector : Nat)
  /-- a byte of HBM, by physical address -/
  | hbm (pa : Nat)
  /-- a page-table or object-table entry, by physical address, met by a walk of a core -/
  | table (pa : Nat) (c : Nat)
  /-- the compression metadata of a block of an object -/
  | compression (obj off : Nat)
  /-- the save area read at pickup by a core -/
  | saveArea (c : Nat)
  /-- stored bytes of the Cellar, by physical address -/
  | cellar (pa : Nat)
  /-- an entry of a watch table -/
  | watch (ix : Nat)
  /-- an entry of a Drover queue -/
  | drover (die ix : Nat)
  /-- fold state, delivery queue or other hub state -/
  | hub
  deriving DecidableEq, Repr

/-- What the translation layer of a Cellar stack does (R414, R415). -/
inductive CellarAct
  | wearLevel
  | relocate (pg : Nat)
  | retireBlock
  deriving DecidableEq, Repr


/-- The instruction set: the slot operations of Tables 3.14 to 3.18 (R60) and the steps of the hardware around the cores. -/
inductive Instr
  /-- `NOP`, R73. -/
  | nop (sl : Slot)
  /-- `BR`, R74. -/
  | br (disp : BitVec 18)
  /-- `JMP`, R74. -/
  | jmp (s : BitVec 6)
  /-- `CALL`, R74. -/
  | call (disp : BitVec 18)
  /-- `CALLR`, R74. -/
  | callr (s : BitVec 6)
  /-- `LOOP`, R76. -/
  | loop (l : Bool) (c : BitVec 6) (e : BitVec 11)
  /-- `BKT_JMP`, R332. -/
  | bktJmp (c : BitVec 6) (xs : BitVec 3) (tdisp : BitVec 20) (np : BitVec 4)
  /-- `PARK`, R316. -/
  | park (xs : BitVec 3) (mask : BitVec 24)
  /-- `SPAWN`, R318. -/
  | spawn (k : BitVec 3) (o : BitVec 6) (p : BitVec 6)
  /-- `WAITW`, R321. -/
  | waitw (k : BitVec 3) (xs : BitVec 3) (o : BitVec 6) (cond : BitVec 2) (w64 : Bool) (scope : BitVec 3) (v : BitVec 6)
  /-- `WAKEW`, R324. -/
  | wakew (k : BitVec 3) (xs : BitVec 3) (o : BitVec 6) (scope : BitVec 3) (n : BitVec 16)
  /-- `FOLD_ARRIVE`, R326. -/
  | foldArrive (fid : BitVec 10)
  /-- `FOLD_WAIT`, R327. -/
  | foldWait (fid : BitVec 10)
  /-- `FOLD_SYNC`, R328. -/
  | foldSync (fid : BitVec 10)
  /-- `FOLD_BYTES`, R329. -/
  | foldBytes (c : BitVec 6) (fid : BitVec 10)
  /-- `WH_WAIT`, R330. -/
  | whWait (s : BitVec 6)
  /-- `PROBE`, R400. -/
  | probe (k : BitVec 3) (w : Bool) (o : BitVec 6) (l : BitVec 6)
  /-- `FENCE`, R229. -/
  | fence (scope : BitVec 3) (xs : BitVec 3) (cmask : BitVec 16)
  /-- `FENCE_X`, R230. -/
  | fenceX (scope : BitVec 3) (paths : BitVec 6)
  /-- `TRAP`, R398. -/
  | trap (a : BitVec 6) (code : BitVec 12)
  /-- `BRK`, R398. -/
  | brk (code : BitVec 12)
  /-- `CTX_RESUME_RUN`, R372. -/
  | ctxResumeRun (a : BitVec 6) (b : BitVec 6)
  /-- `CTX_RESUME_PARK`, R372. -/
  | ctxResumePark (a : BitVec 6) (b : BitVec 6)
  /-- `CTX_RESUME_PRE`, R372. -/
  | ctxResumePre (a : BitVec 6) (b : BitVec 6)
  /-- `CTX_KILL`, R372. -/
  | ctxKill (a : BitVec 6)
  /-- `CTX_KILL_RUN`, R372. -/
  | ctxKillRun (a : BitVec 6)
  /-- `ADD`, R116. -/
  | add (u : IUnit) (x : Bool) (d : BitVec 5) (a : BitVec 6) (b : BitVec 6)
  /-- `SUB`, R116. -/
  | sub (u : IUnit) (x : Bool) (d : BitVec 5) (a : BitVec 6) (b : BitVec 6)
  /-- `MUL`, R116. -/
  | mul (u : IUnit) (x : Bool) (d : BitVec 5) (a : BitVec 6) (b : BitVec 6)
  /-- `MULH`, R116. -/
  | mulh (u : IUnit) (x : Bool) (d : BitVec 5) (a : BitVec 6) (b : BitVec 6)
  /-- `MULHU`, R116. -/
  | mulhu (u : IUnit) (x : Bool) (d : BitVec 5) (a : BitVec 6) (b : BitVec 6)
  /-- `DIV`, R122. -/
  | div (u : IUnit) (x : Bool) (d : BitVec 5) (a : BitVec 6) (b : BitVec 6)
  /-- `DIVU`, R122. -/
  | divu (u : IUnit) (x : Bool) (d : BitVec 5) (a : BitVec 6) (b : BitVec 6)
  /-- `REM`, R122. -/
  | rem (u : IUnit) (x : Bool) (d : BitVec 5) (a : BitVec 6) (b : BitVec 6)
  /-- `REMU`, R122. -/
  | remu (u : IUnit) (x : Bool) (d : BitVec 5) (a : BitVec 6) (b : BitVec 6)
  /-- `AND`, R116. -/
  | and (u : IUnit) (x : Bool) (d : BitVec 5) (a : BitVec 6) (b : BitVec 6)
  /-- `OR`, R116. -/
  | or (u : IUnit) (x : Bool) (d : BitVec 5) (a : BitVec 6) (b : BitVec 6)
  /-- `XOR`, R116. -/
  | xor (u : IUnit) (x : Bool) (d : BitVec 5) (a : BitVec 6) (b : BitVec 6)
  /-- `ANDN`, R116. -/
  | andn (u : IUnit) (x : Bool) (d : BitVec 5) (a : BitVec 6) (b : BitVec 6)
  /-- `ORN`, R116. -/
  | orn (u : IUnit) (x : Bool) (d : BitVec 5) (a : BitVec 6) (b : BitVec 6)
  /-- `XNOR`, R116. -/
  | xnor (u : IUnit) (x : Bool) (d : BitVec 5) (a : BitVec 6) (b : BitVec 6)
  /-- `SHL`, R116. -/
  | shl (u : IUnit) (x : Bool) (d : BitVec 5) (a : BitVec 6) (b : BitVec 6)
  /-- `SHR`, R116. -/
  | shr (u : IUnit) (x : Bool) (d : BitVec 5) (a : BitVec 6) (b : BitVec 6)
  /-- `SAR`, R116. -/
  | sar (u : IUnit) (x : Bool) (d : BitVec 5) (a : BitVec 6) (b : BitVec 6)
  /-- `ROTR`, R116. -/
  | rotr (u : IUnit) (x : Bool) (d : BitVec 5) (a : BitVec 6) (b : BitVec 6)
  /-- `MIN`, R116. -/
  | min (u : IUnit) (x : Bool) (d : BitVec 5) (a : BitVec 6) (b : BitVec 6)
  /-- `MAX`, R116. -/
  | max (u : IUnit) (x : Bool) (d : BitVec 5) (a : BitVec 6) (b : BitVec 6)
  /-- `MINU`, R116. -/
  | minu (u : IUnit) (x : Bool) (d : BitVec 5) (a : BitVec 6) (b : BitVec 6)
  /-- `MAXU`, R116. -/
  | maxu (u : IUnit) (x : Bool) (d : BitVec 5) (a : BitVec 6) (b : BitVec 6)
  /-- `CLZ`, R117. -/
  | clz (u : IUnit) (x : Bool) (d : BitVec 5) (a : BitVec 6)
  /-- `CTZ`, R117. -/
  | ctz (u : IUnit) (x : Bool) (d : BitVec 5) (a : BitVec 6)
  /-- `POPC`, R117. -/
  | popc (u : IUnit) (x : Bool) (d : BitVec 5) (a : BitVec 6)
  /-- `BSWAP`, R117. -/
  | bswap (u : IUnit) (x : Bool) (d : BitVec 5) (a : BitVec 6)
  /-- `BEXT`, R118. -/
  | bext (u : IUnit) (x : Bool) (d : BitVec 5) (a : BitVec 6) (b : BitVec 6)
  /-- `BINS`, R118. -/
  | bins (u : IUnit) (d : BitVec 5) (a : BitVec 6) (b : BitVec 6)
  /-- `ADD_S2`, R116. -/
  | addS2 (u : IUnit) (x : Bool) (d : BitVec 5) (a : BitVec 6) (b : BitVec 6)
  /-- `ADD_S3`, R116. -/
  | addS3 (u : IUnit) (x : Bool) (d : BitVec 5) (a : BitVec 6) (b : BitVec 6)
  /-- `SEXT`, R120. -/
  | sext (u : IUnit) (x : Bool) (d : BitVec 5) (a : BitVec 6) (b : BitVec 6)
  /-- `ZEXT`, R120. -/
  | zext (u : IUnit) (x : Bool) (d : BitVec 5) (a : BitVec 6) (b : BitVec 6)
  /-- `MOV`, R117. -/
  | mov (u : IUnit) (x : Bool) (d : BitVec 5) (a : BitVec 6)
  /-- `LIT_HI`, R121. -/
  | litHi (u : IUnit) (x : Bool) (d : BitVec 5) (a : BitVec 6) (b : BitVec 6)
  /-- `CMP_EQ`, R123. -/
  | cmpEq (u : IUnit) (p : BitVec 2) (a : BitVec 6) (b : BitVec 6)
  /-- `CMP_NE`, R123. -/
  | cmpNe (u : IUnit) (p : BitVec 2) (a : BitVec 6) (b : BitVec 6)
  /-- `CMP_LT`, R123. -/
  | cmpLt (u : IUnit) (p : BitVec 2) (a : BitVec 6) (b : BitVec 6)
  /-- `CMP_LTU`, R123. -/
  | cmpLtu (u : IUnit) (p : BitVec 2) (a : BitVec 6) (b : BitVec 6)
  /-- `CMP_LE`, R123. -/
  | cmpLe (u : IUnit) (p : BitVec 2) (a : BitVec 6) (b : BitVec 6)
  /-- `CMP_LEU`, R123. -/
  | cmpLeu (u : IUnit) (p : BitVec 2) (a : BitVec 6) (b : BitVec 6)
  /-- `PAND`, R124. -/
  | pand (u : IUnit) (p : BitVec 2) (a : BitVec 6) (b : BitVec 6)
  /-- `POR`, R124. -/
  | por (u : IUnit) (p : BitVec 2) (a : BitVec 6) (b : BitVec 6)
  /-- `PXOR`, R124. -/
  | pxor (u : IUnit) (p : BitVec 2) (a : BitVec 6) (b : BitVec 6)
  /-- `PNOT`, R124. -/
  | pnot (u : IUnit) (p : BitVec 2) (a : BitVec 6)
  /-- `TST_BIT`, R124. -/
  | tstBit (u : IUnit) (p : BitVec 2) (a : BitVec 6) (b : BitVec 6)
  /-- `FADD_S`, R126. -/
  | faddS (x : Bool) (d : BitVec 5) (a : BitVec 6) (b : BitVec 6)
  /-- `FSUB_S`, R126. -/
  | fsubS (x : Bool) (d : BitVec 5) (a : BitVec 6) (b : BitVec 6)
  /-- `FMUL_S`, R126. -/
  | fmulS (x : Bool) (d : BitVec 5) (a : BitVec 6) (b : BitVec 6)
  /-- `FFMA_S`, R126. -/
  | ffmaS (x : Bool) (d : BitVec 5) (a : BitVec 6) (b : BitVec 6)
  /-- `FMIN_S`, R126. -/
  | fminS (x : Bool) (d : BitVec 5) (a : BitVec 6) (b : BitVec 6)
  /-- `FMAX_S`, R126. -/
  | fmaxS (x : Bool) (d : BitVec 5) (a : BitVec 6) (b : BitVec 6)
  /-- `FCMP_LT_S`, R127. -/
  | fcmpLtS (p : BitVec 2) (a : BitVec 6) (b : BitVec 6)
  /-- `FCMP_EQ_S`, R127. -/
  | fcmpEqS (p : BitVec 2) (a : BitVec 6) (b : BitVec 6)
  /-- `FCVT_S_I`, R128. -/
  | fcvtSI (x : Bool) (d : BitVec 5) (a : BitVec 6)
  /-- `FCVT_S_I_U`, R128. -/
  | fcvtSIU (x : Bool) (d : BitVec 5) (a : BitVec 6)
  /-- `FCVT_I_S`, R128. -/
  | fcvtIS (x : Bool) (d : BitVec 5) (a : BitVec 6)
  /-- `FCVT_I_S_U`, R128. -/
  | fcvtISU (x : Bool) (d : BitVec 5) (a : BitVec 6)
  /-- `FCVT_I_S_W`, R128. -/
  | fcvtISW (x : Bool) (d : BitVec 5) (a : BitVec 6)
  /-- `SYS_RD`, R129. -/
  | sysRd (x : Bool) (d : BitVec 5) (a : BitVec 6)
  /-- `SYS_WR`, R130. -/
  | sysWr (a : BitVec 6) (b : BitVec 6)
  /-- `BUD_RD`, R131. -/
  | budRd (x : Bool) (d : BitVec 5)
  /-- `TIME_RD`, R131. -/
  | timeRd (x : Bool) (d : BitVec 5)
  /-- `LD_U8`, R219. -/
  | ldU8 (r : BitVec 5) (k : BitVec 3) (o : BitVec 6) (c : BitVec 4)
  /-- `LD_S8`, R219. -/
  | ldS8 (r : BitVec 5) (k : BitVec 3) (o : BitVec 6) (c : BitVec 4)
  /-- `LD_U16`, R219. -/
  | ldU16 (r : BitVec 5) (k : BitVec 3) (o : BitVec 6) (c : BitVec 4)
  /-- `LD_S16`, R219. -/
  | ldS16 (r : BitVec 5) (k : BitVec 3) (o : BitVec 6) (c : BitVec 4)
  /-- `LD_U32`, R219. -/
  | ldU32 (r : BitVec 5) (k : BitVec 3) (o : BitVec 6) (c : BitVec 4)
  /-- `LD_S32`, R219. -/
  | ldS32 (r : BitVec 5) (k : BitVec 3) (o : BitVec 6) (c : BitVec 4)
  /-- `LD_64`, R219. -/
  | ld64 (r : BitVec 5) (k : BitVec 3) (o : BitVec 6) (c : BitVec 4)
  /-- `LD_ACQ`, R222. -/
  | ldAcq (r : BitVec 5) (k : BitVec 3) (o : BitVec 6) (scope : BitVec 3)
  /-- `ST_8`, R219. -/
  | st8 (r : BitVec 5) (k : BitVec 3) (o : BitVec 6) (c : BitVec 4)
  /-- `ST_16`, R219. -/
  | st16 (r : BitVec 5) (k : BitVec 3) (o : BitVec 6) (c : BitVec 4)
  /-- `ST_32`, R219. -/
  | st32 (r : BitVec 5) (k : BitVec 3) (o : BitVec 6) (c : BitVec 4)
  /-- `ST_64`, R219. -/
  | st64 (r : BitVec 5) (k : BitVec 3) (o : BitVec 6) (c : BitVec 4)
  /-- `ST_REL`, R223. -/
  | stRel (r : BitVec 5) (k : BitVec 3) (o : BitVec 6) (scope : BitVec 3)
  /-- `LDK`, R224. -/
  | ldk (kd : BitVec 4) (o : BitVec 6) (c : BitVec 4)
  /-- `AMO_ADD`, R226. -/
  | amoAdd (r : BitVec 5) (k : BitVec 3) (xs : BitVec 3) (w : BitVec 2) (scope : BitVec 3) (c : BitVec 4) (v : BitVec 6)
  /-- `AMO_INC`, R226. -/
  | amoInc (r : BitVec 5) (k : BitVec 3) (xs : BitVec 3) (w : BitVec 2) (scope : BitVec 3) (c : BitVec 4)
  /-- `AMO_AND`, R226. -/
  | amoAnd (r : BitVec 5) (k : BitVec 3) (xs : BitVec 3) (w : BitVec 2) (scope : BitVec 3) (c : BitVec 4) (v : BitVec 6)
  /-- `AMO_OR`, R226. -/
  | amoOr (r : BitVec 5) (k : BitVec 3) (xs : BitVec 3) (w : BitVec 2) (scope : BitVec 3) (c : BitVec 4) (v : BitVec 6)
  /-- `AMO_XOR`, R226. -/
  | amoXor (r : BitVec 5) (k : BitVec 3) (xs : BitVec 3) (w : BitVec 2) (scope : BitVec 3) (c : BitVec 4) (v : BitVec 6)
  /-- `AMO_SMIN`, R226. -/
  | amoSmin (r : BitVec 5) (k : BitVec 3) (xs : BitVec 3) (w : BitVec 2) (scope : BitVec 3) (c : BitVec 4) (v : BitVec 6)
  /-- `AMO_SMAX`, R226. -/
  | amoSmax (r : BitVec 5) (k : BitVec 3) (xs : BitVec 3) (w : BitVec 2) (scope : BitVec 3) (c : BitVec 4) (v : BitVec 6)
  /-- `AMO_UMIN`, R226. -/
  | amoUmin (r : BitVec 5) (k : BitVec 3) (xs : BitVec 3) (w : BitVec 2) (scope : BitVec 3) (c : BitVec 4) (v : BitVec 6)
  /-- `AMO_UMAX`, R226. -/
  | amoUmax (r : BitVec 5) (k : BitVec 3) (xs : BitVec 3) (w : BitVec 2) (scope : BitVec 3) (c : BitVec 4) (v : BitVec 6)
  /-- `AMO_SWAP`, R226. -/
  | amoSwap (r : BitVec 5) (k : BitVec 3) (xs : BitVec 3) (w : BitVec 2) (scope : BitVec 3) (c : BitVec 4) (v : BitVec 6)
  /-- `AMO_CAS`, R226. -/
  | amoCas (r : BitVec 5) (k : BitVec 3) (xs : BitVec 3) (w : BitVec 2) (scope : BitVec 3) (c : BitVec 4) (v : BitVec 6) (cmp : BitVec 5)
  /-- `AMO_FADD`, R109. -/
  | amoFadd (r : BitVec 5) (k : BitVec 3) (xs : BitVec 3) (w : BitVec 2) (scope : BitVec 3) (c : BitVec 4) (v : BitVec 6)
  /-- `RED_ADD`, R227. -/
  | redAdd (k : BitVec 3) (xs : BitVec 3) (w : BitVec 2) (scope : BitVec 3) (c : BitVec 4) (v : BitVec 6)
  /-- `RED_INC`, R227. -/
  | redInc (k : BitVec 3) (xs : BitVec 3) (w : BitVec 2) (scope : BitVec 3) (c : BitVec 4)
  /-- `RED_AND`, R227. -/
  | redAnd (k : BitVec 3) (xs : BitVec 3) (w : BitVec 2) (scope : BitVec 3) (c : BitVec 4) (v : BitVec 6)
  /-- `RED_OR`, R227. -/
  | redOr (k : BitVec 3) (xs : BitVec 3) (w : BitVec 2) (scope : BitVec 3) (c : BitVec 4) (v : BitVec 6)
  /-- `RED_XOR`, R227. -/
  | redXor (k : BitVec 3) (xs : BitVec 3) (w : BitVec 2) (scope : BitVec 3) (c : BitVec 4) (v : BitVec 6)
  /-- `RED_SMIN`, R227. -/
  | redSmin (k : BitVec 3) (xs : BitVec 3) (w : BitVec 2) (scope : BitVec 3) (c : BitVec 4) (v : BitVec 6)
  /-- `RED_SMAX`, R227. -/
  | redSmax (k : BitVec 3) (xs : BitVec 3) (w : BitVec 2) (scope : BitVec 3) (c : BitVec 4) (v : BitVec 6)
  /-- `RED_UMIN`, R227. -/
  | redUmin (k : BitVec 3) (xs : BitVec 3) (w : BitVec 2) (scope : BitVec 3) (c : BitVec 4) (v : BitVec 6)
  /-- `RED_UMAX`, R227. -/
  | redUmax (k : BitVec 3) (xs : BitVec 3) (w : BitVec 2) (scope : BitVec 3) (c : BitVec 4) (v : BitVec 6)
  /-- `RED_FADD`, R109. -/
  | redFadd (k : BitVec 3) (xs : BitVec 3) (w : BitVec 2) (scope : BitVec 3) (c : BitVec 4) (v : BitVec 6)
  /-- `VADD`, R138. -/
  | vadd (u : VUnit) (x : Bool) (d : BitVec 5) (a : BitVec 6) (b : BitVec 6)
  /-- `VSUB`, R138. -/
  | vsub (u : VUnit) (x : Bool) (d : BitVec 5) (a : BitVec 6) (b : BitVec 6)
  /-- `VMUL`, R138. -/
  | vmul (u : VUnit) (x : Bool) (d : BitVec 5) (a : BitVec 6) (b : BitVec 6)
  /-- `VFMA`, R139. -/
  | vfma (u : VUnit) (x : Bool) (d : BitVec 5) (a : BitVec 6) (b : BitVec 6)
  /-- `VFMS`, R139. -/
  | vfms (u : VUnit) (x : Bool) (d : BitVec 5) (a : BitVec 6) (b : BitVec 6)
  /-- `VFNMA`, R139. -/
  | vfnma (u : VUnit) (x : Bool) (d : BitVec 5) (a : BitVec 6) (b : BitVec 6)
  /-- `VMIN`, R138. -/
  | vmin (u : VUnit) (x : Bool) (d : BitVec 5) (a : BitVec 6) (b : BitVec 6)
  /-- `VMAX`, R138. -/
  | vmax (u : VUnit) (x : Bool) (d : BitVec 5) (a : BitVec 6) (b : BitVec 6)
  /-- `VABS`, R138. -/
  | vabs (u : VUnit) (x : Bool) (d : BitVec 5) (a : BitVec 6)
  /-- `VNEG`, R138. -/
  | vneg (u : VUnit) (x : Bool) (d : BitVec 5) (a : BitVec 6)
  /-- `VMOV`, R138. -/
  | vmov (u : VUnit) (x : Bool) (d : BitVec 5) (a : BitVec 6)
  /-- `VAND`, R138. -/
  | vand (u : VUnit) (x : Bool) (d : BitVec 5) (a : BitVec 6) (b : BitVec 6)
  /-- `VOR`, R138. -/
  | vor (u : VUnit) (x : Bool) (d : BitVec 5) (a : BitVec 6) (b : BitVec 6)
  /-- `VXOR`, R138. -/
  | vxor (u : VUnit) (x : Bool) (d : BitVec 5) (a : BitVec 6) (b : BitVec 6)
  /-- `VNOT`, R138. -/
  | vnot (u : VUnit) (x : Bool) (d : BitVec 5) (a : BitVec 6)
  /-- `VSHL`, R138. -/
  | vshl (u : VUnit) (x : Bool) (d : BitVec 5) (a : BitVec 6) (b : BitVec 6)
  /-- `VSHR`, R138. -/
  | vshr (u : VUnit) (x : Bool) (d : BitVec 5) (a : BitVec 6) (b : BitVec 6)
  /-- `VSAR`, R138. -/
  | vsar (u : VUnit) (x : Bool) (d : BitVec 5) (a : BitVec 6) (b : BitVec 6)
  /-- `VCMP_EQ`, R140. -/
  | vcmpEq (u : VUnit) (m : BitVec 2) (a : BitVec 6) (b : BitVec 6)
  /-- `VCMP_NE`, R140. -/
  | vcmpNe (u : VUnit) (m : BitVec 2) (a : BitVec 6) (b : BitVec 6)
  /-- `VCMP_LT`, R140. -/
  | vcmpLt (u : VUnit) (m : BitVec 2) (a : BitVec 6) (b : BitVec 6)
  /-- `VCMP_LE`, R140. -/
  | vcmpLe (u : VUnit) (m : BitVec 2) (a : BitVec 6) (b : BitVec 6)
  /-- `VSEL`, R141. -/
  | vsel (u : VUnit) (x : Bool) (d : BitVec 5) (a : BitVec 6) (b : BitVec 6)
  /-- `VCVT_TO`, R143. -/
  | vcvtTo (u : VUnit) (x : Bool) (d : BitVec 5) (a : BitVec 6) (t : BitVec 3) (q : BitVec 2)
  /-- `VCVT_FROM`, R143. -/
  | vcvtFrom (u : VUnit) (x : Bool) (d : BitVec 5) (a : BitVec 6) (t : BitVec 3) (q : BitVec 2)
  /-- `VCVT_SC`, R144. -/
  | vcvtSc (u : VUnit) (x : Bool) (d : BitVec 5) (a : BitVec 6) (s : BitVec 3) (g : Bool) (q : BitVec 2)
  /-- `VRED_ADD`, R146. -/
  | vredAdd (u : VUnit) (x : Bool) (d : BitVec 5) (a : BitVec 6) (b : BitVec 6)
  /-- `VRED_MAX`, R146. -/
  | vredMax (u : VUnit) (x : Bool) (d : BitVec 5) (a : BitVec 6) (b : BitVec 6)
  /-- `VRED_MIN`, R146. -/
  | vredMin (u : VUnit) (x : Bool) (d : BitVec 5) (a : BitVec 6) (b : BitVec 6)
  /-- `VSCAN_ADD`, R147. -/
  | vscanAdd (u : VUnit) (x : Bool) (d : BitVec 5) (a : BitVec 6) (b : BitVec 6)
  /-- `VBCAST`, R149. -/
  | vbcast (u : VUnit) (x : Bool) (d : BitVec 5) (a : BitVec 6) (b : BitVec 6)
  /-- `VEXT`, R149. -/
  | vext (u : VUnit) (d : BitVec 5) (a : BitVec 6) (b : BitVec 6)
  /-- `VPERM`, R149. -/
  | vperm (u : VUnit) (x : Bool) (d : BitVec 5) (a : BitVec 6) (b : BitVec 6)
  /-- `VROT`, R149. -/
  | vrot (u : VUnit) (x : Bool) (d : BitVec 5) (a : BitVec 6) (b : BitVec 6)
  /-- `VPART`, R150. -/
  | vpart (u : VUnit) (x : Bool) (d : BitVec 5) (a : BitVec 6) (xs : BitVec 3) (cv : Bool) (msk : BitVec 2) (cnt : BitVec 5)
  /-- `VLD`, R152. -/
  | vld (u : VUnit) (x : Bool) (v : BitVec 5) (o : BitVec 6) (k : BitVec 3) (c : BitVec 3)
  /-- `VST`, R152. -/
  | vst (u : VUnit) (v : BitVec 5) (o : BitVec 6) (k : BitVec 3) (c : BitVec 3)
  /-- `VGATH`, R152. -/
  | vgath (u : VUnit) (x : Bool) (v : BitVec 5) (i : BitVec 6) (k : BitVec 3) (c : BitVec 3)
  /-- `VSCAT`, R152. -/
  | vscat (u : VUnit) (v : BitVec 5) (i : BitVec 6) (k : BitVec 3) (c : BitVec 3)
  /-- `VLUT`, R154. -/
  | vlut (u : VUnit) (x : Bool) (d : BitVec 5) (a : BitVec 6) (q : BitVec 3)
  /-- `VMULHI`, R138. -/
  | vmulhi (x : Bool) (d : BitVec 5) (a : BitVec 6) (b : BitVec 6)
  /-- `VDOT4`, R148. -/
  | vdot4 (x : Bool) (d : BitVec 5) (a : BitVec 6) (b : BitVec 6)
  /-- `VAMAX`, R145. -/
  | vamax (x : Bool) (d : BitVec 5) (a : BitVec 6) (b : BitVec 6)
  /-- `VEXP2`, R156. -/
  | vexp2 (x : Bool) (d : BitVec 5) (a : BitVec 6)
  /-- `VLOG2`, R156. -/
  | vlog2 (x : Bool) (d : BitVec 5) (a : BitVec 6)
  /-- `VRCP`, R156. -/
  | vrcp (x : Bool) (d : BitVec 5) (a : BitVec 6)
  /-- `VRSQRT`, R156. -/
  | vrsqrt (x : Bool) (d : BitVec 5) (a : BitVec 6)
  /-- `VSQRT`, R156. -/
  | vsqrt (x : Bool) (d : BitVec 5) (a : BitVec 6)
  /-- `VTANH`, R156. -/
  | vtanh (x : Bool) (d : BitVec 5) (a : BitVec 6)
  /-- `VERF`, R156. -/
  | verf (x : Bool) (d : BitVec 5) (a : BitVec 6)
  /-- `VSIGM`, R156. -/
  | vsigm (x : Bool) (d : BitVec 5) (a : BitVec 6)
  /-- `VDIV`, R156. -/
  | vdiv (x : Bool) (d : BitVec 5) (a : BitVec 6) (b : BitVec 6)
  /-- `VFLOOR`, R138. -/
  | vfloor (x : Bool) (d : BitVec 5) (a : BitVec 6)
  /-- `MMA`, R171. -/
  | mma (a : BitVec 6) (b : BitVec 6) (n : Bool) (z : Bool) (tb : Bool) (s : Bool)
  /-- `MACC_CLR`, R177. -/
  | maccClr (n : Bool) (r : BitVec 7) (c : BitVec 7)
  /-- `MACC_LD`, R177. -/
  | maccLd (t : BitVec 6) (n : Bool) (r : BitVec 7)
  /-- `MACC_ST`, R177. -/
  | maccSt (t : BitVec 6) (n : Bool) (r : BitVec 7)
  /-- `MCANCEL`, R178. -/
  | mcancel (m : BitVec 2)
  /-- `CP_FILL`, R245. -/
  | cpFill (t : BitVec 6) (k : BitVec 3) (xb : BitVec 4) (a : Bool) (c : BitVec 4)
  /-- `CP_DRAIN`, R245. -/
  | cpDrain (t : BitVec 6) (k : BitVec 3) (xb : BitVec 4) (a : Bool) (c : BitVec 4)
  /-- `CP_GATH`, R245. -/
  | cpGath (t : BitVec 6) (k : BitVec 3) (xb : BitVec 4) (c : BitVec 4)
  /-- `CP_SCAT`, R245. -/
  | cpScat (t : BitVec 6) (k : BitVec 3) (xb : BitVec 4) (c : BitVec 4)
  /-- `CP_BCST`, R245. -/
  | cpBcst (t : BitVec 6) (k : BitVec 3) (xb : BitVec 4) (c : BitVec 4)
  /-- `CP_RED_FADD`, R247. -/
  | cpRedFadd (t : BitVec 6) (k : BitVec 3) (xb : BitVec 4) (c : BitVec 4)
  /-- `CP_RED_BF2_ADD`, R247. -/
  | cpRedBf2Add (t : BitVec 6) (k : BitVec 3) (xb : BitVec 4) (c : BitVec 4)
  /-- `CP_RED_INT_ADD`, R247. -/
  | cpRedIntAdd (t : BitVec 6) (k : BitVec 3) (xb : BitVec 4) (c : BitVec 4)
  /-- `CP_RED_SMAX`, R247. -/
  | cpRedSmax (t : BitVec 6) (k : BitVec 3) (xb : BitVec 4) (c : BitVec 4)
  /-- `CP_RED_UMAX`, R247. -/
  | cpRedUmax (t : BitVec 6) (k : BitVec 3) (xb : BitVec 4) (c : BitVec 4)
  /-- `CP_SELR`, R248. -/
  | cpSelr (t : BitVec 6) (k : BitVec 3) (xb : BitVec 4) (c : BitVec 4)
  /-- `CP_SELC`, R248. -/
  | cpSelc (t : BitVec 6) (k : BitVec 3) (xb : BitVec 4) (c : BitVec 4)
  /-- `CP_RMA_PUT`, R250. -/
  | cpRmaPut (t : BitVec 6) (k : BitVec 3) (xb : BitVec 4) (c : BitVec 4)
  /-- `CP_RMA_GET`, R250. -/
  | cpRmaGet (t : BitVec 6) (k : BitVec 3) (xb : BitVec 4) (c : BitVec 4)
  /-- `CP_RAMO`, R251. -/
  | cpRamo (t : BitVec 6) (k : BitVec 3) (xb : BitVec 4) (c : BitVec 4)
  /-- `CP_GDRAIN`, R254. -/
  | cpGdrain (t : BitVec 6) (k : BitVec 3) (xb : BitVec 4) (c : BitVec 4)
  /-- `CP_PMT_GRANT`, R253. -/
  | cpPmtGrant (k : BitVec 3) (xb : BitVec 4) (c : BitVec 4)
  /-- `CP_PMT_TAKE`, R253. -/
  | cpPmtTake (k : BitVec 3) (xb : BitVec 4) (c : BitVec 4)
  /-- `CP_CANCEL`, R255. -/
  | cpCancel (t : BitVec 6)
  /-- `WH_FETCH_PRED`, R264. -/
  | whFetchPred (s : BitVec 6)
  /-- `WH_FETCH_DEM`, R264. -/
  | whFetchDem (s : BitVec 6)
  /-- `WH_DROP`, R263. -/
  | whDrop (s : BitVec 6)
  /-- `WH_PIN`, R264. -/
  | whPin (s : BitVec 6)
  /-- `WH_UNPIN`, R264. -/
  | whUnpin (s : BitVec 6)
  /-- `WH_QRY`, R264. -/
  | whQry (s : BitVec 6)
  /-- `STG`, R132. -/
  | stg (r : BitVec 5) (s : BitVec 6)
  /-- `STG_LO`, R132. -/
  | stgLo (r : BitVec 5) (s : BitVec 6)
  /-- `STG_HI`, R132. -/
  | stgHi (r : BitVec 5) (s : BitVec 6)
  /-- `TT_DEF`, R257. -/
  | ttDef (t : BitVec 6) (ts : BitVec 2) (k : BitVec 3)
  /-- `TT_FREE`, R258. -/
  | ttFree (t : BitVec 6)
  /-- `TT_BIND`, R259. -/
  | ttBind (t : BitVec 6) (ts : BitVec 2)
  /-- `TT_UNBIND`, R259. -/
  | ttUnbind (t : BitVec 6)
  /-- `TT_MARK`, R260. -/
  | ttMark (t : BitVec 6) (fid : BitVec 10)
  /-- `TT_MARK_WAIT`, R260. -/
  | ttMarkWait (t : BitVec 6) (fid : BitVec 10)
  /-- `TT_MARK_NOFOLD`, R260. -/
  | ttMarkNofold (t : BitVec 6)
  /-- `TT_RD`, R261. -/
  | ttRd (t : BitVec 6) (h : Bool) (d : BitVec 5)
  /-- `FMT_SET`, R179. -/
  | fmtSet (scm : BitVec 2) (ofmt : BitVec 4) (accf : BitVec 4) (bf : BitVec 4) (af : BitVec 4)
  /-- `VT_SET`, R157. -/
  | vtSet (t : BitVec 3)
  /-- `VWIN_SET`, R157. -/
  | vwinSet (b : Bool) (q : BitVec 2)
  /-- `VACT_SET`, R157. -/
  | vactSet (m : BitVec 2)
  /-- `FPC_SET`, R158. -/
  | fpcSet (wf : Bool) (wc : Bool) (fl : BitVec 5) (so : Bool) (ws : Bool) (st : Bool) (rm : BitVec 2)
  /-- `FPC_SET_C`, R158. -/
  | fpcSetC (so : Bool) (ws : Bool) (st : Bool) (rm : BitVec 2)
  /-- `FPC_SET_F`, R158. -/
  | fpcSetF (fl : BitVec 5)
  /-- `LEND_MX`, R175. -/
  | lendMx (b : Bool)
  /-- `LEND_VEC`, R175. -/
  | lendVec (b : Bool)
  /-- `PHASE`, R236. -/
  | phase (k : BitVec 3) (t : BitVec 4)
  /-- `VLUT_LD`, R155. -/
  | vlutLd (k : BitVec 3) (c : BitVec 4) (blk : BitVec 11)
  /-- `KMOV`, R364. -/
  | kmov (d : BitVec 4) (s : BitVec 4)
  /-- `KDERIVE`, R364. -/
  | kderive (d : BitVec 4) (s : BitVec 4) (xb : BitVec 4)
  /-- `KRESTRICT`, R364. -/
  | krestrict (d : BitVec 4) (s : BitVec 4) (keep : BitVec 7)
  /-- `KGET_OBJ`, R365. -/
  | kgetObj (d : BitVec 5) (s : BitVec 4)
  /-- `KGET_BASE`, R365. -/
  | kgetBase (d : BitVec 5) (s : BitVec 4)
  /-- `KGET_LEN`, R365. -/
  | kgetLen (d : BitVec 5) (s : BitVec 4)
  /-- `KGET_RGT`, R365. -/
  | kgetRgt (d : BitVec 5) (s : BitVec 4)
  /-- `KCHECK`, R366. -/
  | kcheck (p : BitVec 2) (s : BitVec 4) (xb : BitVec 4) (need : BitVec 8)
  /-- `KCLR`, R364. -/
  | kclr (d : BitVec 4)
  /-- `KST`, R367. -/
  | kst (k : BitVec 3) (s : BitVec 4) (o : BitVec 11)
  /-- `KLD`, R367. -/
  | kld (d : BitVec 4) (k : BitVec 3) (o : BitVec 11)
  /-- `KMINT`, R364. -/
  | kmint (d : BitVec 4) (xb : BitVec 4)
  /-- `PG_REFORM`, R357. -/
  | pgReform (k : BitVec 4) (xb : BitVec 4) (d : BitVec 5)
  /-- `RET`, R75. -/
  | ret
  /-- `EXIT`, R79. -/
  | exit
  /-- `SEG_MARK`, R317. -/
  | segMark
  /-- `RFE`, R373. -/
  | rfe
  /-- `HALT`, R374. -/
  | halt
  /-- `CP_CANCEL_ALL`, R255. -/
  | cpCancelAll
  /-- `AMAX_CLR`, R159. -/
  | amaxClr
  /-- `XLAT_SYNC`, R368. -/
  | xlatSync
  /-- `HRESET_WRITE`, R379. -/
  | hresetWrite
  /-- `FOLDLO_WRITE`, R377. -/
  | foldloWrite
  /-- `FOLDHI_WRITE`, R377. -/
  | foldhiWrite
  /-- `SPACE_DESCRIPTOR_WRITE`, R350. -/
  | spaceDescriptorWrite
  /-- `LOCAL_SPACE_CLEAR_END`, R350. -/
  | localSpaceClearEnd
  /-- `SCHCFG_WRITE`, R300. -/
  | schcfgWrite
  /-- `BUNDLE_CHECK`, R62. -/
  | bundleCheck
  /-- `BUDGET_TRAP`, R29. -/
  | budgetTrap
  /-- `TRAP_DELIVERY`, R373. -/
  | trapDelivery
  /-- `MX_COMMAND_START`, R161. -/
  | mxCommandStart
  /-- `MMA_ROW_FINAL`, R174. -/
  | mmaRowFinal
  /-- `MX_COMMAND_COMPLETE`, R161. -/
  | mxCommandComplete
  /-- `COPY_SOURCE_READ`, R261. -/
  | copySourceRead
  /-- `BYTE_LANDING`, R242. -/
  | byteLanding
  /-- `COPY_COMMAND_COMPLETE`, R242. -/
  | copyCommandComplete
  /-- `ATOMIC_TILE`, R246. -/
  | atomicTile
  /-- `GROUP_DRAIN_PERFORM`, R254. -/
  | groupDrainPerform
  /-- `GROUP_DRAIN_TIMEOUT`, R254. -/
  | groupDrainTimeout
  /-- `SPAWN_SLOT_RESERVE`, R319. -/
  | spawnSlotReserve
  /-- `PORCH_SPILL`, R233. -/
  | porchSpill
  /-- `PUT`, R214. -/
  | put
  /-- `GET`, R214. -/
  | get
  /-- `GET_RESPONSE`, R250. -/
  | getResponse
  /-- `FADD`, R214. -/
  | fadd
  /-- `TAIL`, R215. -/
  | tail
  /-- `PERMIT`, R253. -/
  | permit
  /-- `ACK`, R283. -/
  | ack
  /-- `NAK`, R214. -/
  | nak
  /-- `MESSAGE_RESEND`, R283. -/
  | messageResend
  /-- `CONNECTION_FAIL`, R409. -/
  | connectionFail
  /-- `FRAME_RECEIVE`, R212. -/
  | frameReceive
  /-- `PORT_LINK_DOWN`, R413. -/
  | portLinkDown
  /-- `FLIT_CRC_REPLAY`, R412. -/
  | flitCrcReplay
  /-- `LINK_RETRAIN`, R412. -/
  | linkRetrain
  /-- `PERMIT_LEASE_EXPIRY`, R307. -/
  | permitLeaseExpiry
  /-- `DROVER_REQUEST_SEND`, R263. -/
  | droverRequestSend
  /-- `HANDLE_FETCH_COMPLETE`, R263. -/
  | handleFetchComplete
  /-- `HANDLE_FETCH_FAIL`, R263. -/
  | handleFetchFail
  /-- `HANDLE_EVICT_COMPLETE`, R263. -/
  | handleEvictComplete
  /-- `PASTURE_NONEMPTY`, R296. -/
  | pastureNonempty
  /-- `PEN_MAP`, R297. -/
  | penMap
  /-- `PEN_REMAP`, R297. -/
  | penRemap
  /-- `PEN_CLAIM`, R297. -/
  | penClaim
  /-- `PICKUP`, R289. -/
  | pickup
  /-- `RECORD_RETURN`, R293. -/
  | recordReturn
  /-- `WAKE_WITHOUT_CAUSE`, R322. -/
  | wakeWithoutCause
  /-- `PINFOLD_WAKE`, R401. -/
  | pinfoldWake
  /-- `SECTOR_FILL`, R187. -/
  | sectorFill
  /-- `L2_WRITEBACK`, R192. -/
  | l2Writeback
  /-- `WRITE_QUEUE_DRAIN`, R281. -/
  | writeQueueDrain
  /-- `PHASE_SHRINK_COMPLETE`, R206. -/
  | phaseShrinkComplete
  /-- `PHASE_GROW_COMPLETE`, R206. -/
  | phaseGrowComplete
  /-- `UNCORRECTABLE_ERROR`, R404. -/
  | uncorrectableError
  /-- `SRAM_SCRUB`, R403. -/
  | sramScrub
  /-- `HBM_SCRUB`, R403. -/
  | hbmScrub
  /-- `CORE_SELF_TEST`, R405. -/
  | coreSelfTest
  /-- `CELLAR_MAINTENANCE`, R415. -/
  | cellarMaintenance
  /-- `ARBITER_INTERVAL`, R15. -/
  | arbiterInterval
  /-- `JUNCTION_OVERTEMP`, R419. -/
  | junctionOvertemp
  /-- `RECORDER_APPEND`, R383. -/
  | recorderAppend
  /-- `HUB_WATCHDOG`, R388. -/
  | hubWatchdog
  /-- `COLD_RESET`, R388. -/
  | coldReset
  /-- `WARM_RESET`, R388. -/
  | warmReset
  /-- `ATTESTATION_REQUEST`, R386. -/
  | attestationRequest
  /-- `RECORDER_FREEZE_RELEASE`, R420. -/
  | recorderFreezeRelease
  /-- `VARIABLE_LATENCY_RESULT`, R45. -/
  | variableLatencyResult
  /-- `PORT_LINK_UP`, R413. -/
  | portLinkUp
  /-- `CONNECTION_REESTABLISHED`, R307. -/
  | connectionReestablished
  /-- `PROGRAMMING_SLICE_END`, R381. -/
  | programmingSliceEnd
  /-- `RECOVERY_EXCHANGE`, R384. -/
  | recoveryExchange
  /-- `HARDWARE_PREFETCH`, R360. -/
  | hardwarePrefetch
  deriving DecidableEq, Repr

end Sys2Proof
end

