-- ==== Sys2Proof/WellFormed.lean ====
section
/-! DEFINITION. The checks on one operation that its own word and extension word decide (R54 to R61 and the illegal uses of
each entry). The rules over several words of a bundle and the levels are in Machine/Issue.lean. -/

namespace Sys2Proof

/-- A scalar source code: `0x2E` and `0x2F` are reserved (R57). -/
def srcOk (s : BitVec 6) : Bool := s != 0x2E && s != 0x2F
/-- A scalar source code read as FP32: no `p` and no `lc` code either (R57). -/
def fpSrcOk (s : BitVec 6) : Bool := decide (s.toNat < 0x28) || decide (0x30 ≤ s.toNat)
/-- With `d` = 1 the destination field is zero (R59). -/
def dOk (x : Bool) (d : BitVec 5) : Bool := !x || d == 0
/-- A scope code: 6 and 7 are reserved (R55). -/
def scopeOk (s : BitVec 3) : Bool := decide (s.toNat < 6)
/-- A block of `n` staging registers that begins at `xs[b]` lies within `xs0`-`xs15`. -/
def xbOk (b : BitVec 4) (n : Nat) : Bool := decide (b.toNat + n ≤ 16)
/-- A vector source code that names a register or a ring entry. -/
def vwOk (a : BitVec 6) : Bool := decide (a.toNat < 0x28)
/-- The scalar source code of the literal in a slot (Table 3.10). -/
def litCode (k : BitVec 3) : BitVec 6 := BitVec.ofNat 6 (48 + k.toNat)

/-- Whether an operation's own words are legal. Steps that are not operations are always well-formed. -/
def Instr.wf : Instr → Bool
  | .nop _ => true
  | .br _ => true
  | .jmp s => srcOk s
  | .call _ => true
  | .callr s => srcOk s
  | .ret => true
  | .loop _ c e => srcOk c && (e != 0)
  | .bktJmp c _ _ _ => srcOk c
  | .park _ _ => true
  | .exit => true
  | .spawn _ o p => srcOk o && srcOk p
  | .waitw _ _ o cond _ scope v => srcOk o && srcOk v && scopeOk scope && (cond != 3) && (cond != 2 || v == 0)
  | .wakew _ _ o scope _ => srcOk o && scopeOk scope
  | .foldArrive _ => true
  | .foldWait _ => true
  | .foldSync _ => true
  | .foldBytes c _ => srcOk c
  | .whWait s => srcOk s
  | .probe _ _ o l => srcOk o && srcOk l
  | .segMark => true
  | .fence scope _ cmask => scopeOk scope && (cmask != 0)
  | .fenceX scope paths => scopeOk scope && (paths != 0)
  | .trap a _ => srcOk a
  | .brk _ => true
  | .rfe => true
  | .ctxResumeRun a b => srcOk a && srcOk b
  | .ctxResumePark a b => srcOk a && srcOk b
  | .ctxResumePre a b => srcOk a && srcOk b
  | .ctxKill a => srcOk a
  | .ctxKillRun a => srcOk a
  | .halt => true
  | .add _ x d a b => dOk x d && srcOk a && srcOk b
  | .sub _ x d a b => dOk x d && srcOk a && srcOk b
  | .mul _ x d a b => dOk x d && srcOk a && srcOk b
  | .mulh _ x d a b => dOk x d && srcOk a && srcOk b
  | .mulhu _ x d a b => dOk x d && srcOk a && srcOk b
  | .div _ x d a b => dOk x d && srcOk a && srcOk b
  | .divu _ x d a b => dOk x d && srcOk a && srcOk b
  | .rem _ x d a b => dOk x d && srcOk a && srcOk b
  | .remu _ x d a b => dOk x d && srcOk a && srcOk b
  | .and _ x d a b => dOk x d && srcOk a && srcOk b
  | .or _ x d a b => dOk x d && srcOk a && srcOk b
  | .xor _ x d a b => dOk x d && srcOk a && srcOk b
  | .andn _ x d a b => dOk x d && srcOk a && srcOk b
  | .orn _ x d a b => dOk x d && srcOk a && srcOk b
  | .xnor _ x d a b => dOk x d && srcOk a && srcOk b
  | .shl _ x d a b => dOk x d && srcOk a && srcOk b
  | .shr _ x d a b => dOk x d && srcOk a && srcOk b
  | .sar _ x d a b => dOk x d && srcOk a && srcOk b
  | .rotr _ x d a b => dOk x d && srcOk a && srcOk b
  | .min _ x d a b => dOk x d && srcOk a && srcOk b
  | .max _ x d a b => dOk x d && srcOk a && srcOk b
  | .minu _ x d a b => dOk x d && srcOk a && srcOk b
  | .maxu _ x d a b => dOk x d && srcOk a && srcOk b
  | .clz _ x d a => dOk x d && srcOk a
  | .ctz _ x d a => dOk x d && srcOk a
  | .popc _ x d a => dOk x d && srcOk a
  | .bswap _ x d a => dOk x d && srcOk a
  | .bext _ x d a b => dOk x d && srcOk a && srcOk b
  | .bins _ _ a b => srcOk a && srcOk b
  | .addS2 _ x d a b => dOk x d && srcOk a && srcOk b
  | .addS3 _ x d a b => dOk x d && srcOk a && srcOk b
  | .sext _ x d a b => dOk x d && srcOk a && srcOk b
  | .zext _ x d a b => dOk x d && srcOk a && srcOk b
  | .mov _ x d a => dOk x d && srcOk a
  | .litHi _ x d a b => dOk x d && srcOk a && srcOk b
  | .cmpEq _ p a b => (p != 0) && srcOk a && srcOk b
  | .cmpNe _ p a b => (p != 0) && srcOk a && srcOk b
  | .cmpLt _ p a b => (p != 0) && srcOk a && srcOk b
  | .cmpLtu _ p a b => (p != 0) && srcOk a && srcOk b
  | .cmpLe _ p a b => (p != 0) && srcOk a && srcOk b
  | .cmpLeu _ p a b => (p != 0) && srcOk a && srcOk b
  | .pand _ p a b => (p != 0) && srcOk a && srcOk b
  | .por _ p a b => (p != 0) && srcOk a && srcOk b
  | .pxor _ p a b => (p != 0) && srcOk a && srcOk b
  | .pnot _ p a => (p != 0) && srcOk a
  | .tstBit _ p a b => (p != 0) && srcOk a && srcOk b
  | .faddS x d a b => dOk x d && fpSrcOk a && fpSrcOk b
  | .fsubS x d a b => dOk x d && fpSrcOk a && fpSrcOk b
  | .fmulS x d a b => dOk x d && fpSrcOk a && fpSrcOk b
  | .ffmaS x d a b => dOk x d && fpSrcOk a && fpSrcOk b
  | .fminS x d a b => dOk x d && fpSrcOk a && fpSrcOk b
  | .fmaxS x d a b => dOk x d && fpSrcOk a && fpSrcOk b
  | .fcmpLtS p a b => (p != 0) && fpSrcOk a && fpSrcOk b
  | .fcmpEqS p a b => (p != 0) && fpSrcOk a && fpSrcOk b
  | .fcvtSI x d a => dOk x d && srcOk a
  | .fcvtSIU x d a => dOk x d && srcOk a
  | .fcvtIS x d a => dOk x d && fpSrcOk a
  | .fcvtISU x d a => dOk x d && fpSrcOk a
  | .fcvtISW x d a => dOk x d && fpSrcOk a
  | .sysRd x d a => dOk x d && srcOk a
  | .sysWr a b => srcOk a && srcOk b
  | .budRd x d => dOk x d
  | .timeRd x d => dOk x d
  | .ldU8 _ _ o _ => srcOk o
  | .ldS8 _ _ o _ => srcOk o
  | .ldU16 _ _ o _ => srcOk o
  | .ldS16 _ _ o _ => srcOk o
  | .ldU32 _ _ o _ => srcOk o
  | .ldS32 _ _ o _ => srcOk o
  | .ld64 _ _ o _ => srcOk o
  | .ldAcq _ _ o scope => srcOk o && scopeOk scope
  | .st8 _ _ o _ => srcOk o
  | .st16 _ _ o _ => srcOk o
  | .st32 _ _ o _ => srcOk o
  | .st64 _ _ o _ => srcOk o
  | .stRel _ _ o scope => srcOk o && scopeOk scope
  | .ldk _ o _ => srcOk o
  | .amoAdd _ _ xs w scope _ v => scopeOk scope && (w == 0 || w == 1) && srcOk v && (v != litCode xs)
  | .amoInc _ _ _ w scope _ => scopeOk scope && (w == 0 || w == 1)
  | .amoAnd _ _ xs w scope _ v => scopeOk scope && (w == 0 || w == 1) && srcOk v && (v != litCode xs)
  | .amoOr _ _ xs w scope _ v => scopeOk scope && (w == 0 || w == 1) && srcOk v && (v != litCode xs)
  | .amoXor _ _ xs w scope _ v => scopeOk scope && (w == 0 || w == 1) && srcOk v && (v != litCode xs)
  | .amoSmin _ _ xs w scope _ v => scopeOk scope && (w == 0 || w == 1) && srcOk v && (v != litCode xs)
  | .amoSmax _ _ xs w scope _ v => scopeOk scope && (w == 0 || w == 1) && srcOk v && (v != litCode xs)
  | .amoUmin _ _ xs w scope _ v => scopeOk scope && (w == 0 || w == 1) && srcOk v && (v != litCode xs)
  | .amoUmax _ _ xs w scope _ v => scopeOk scope && (w == 0 || w == 1) && srcOk v && (v != litCode xs)
  | .amoSwap _ _ xs w scope _ v => scopeOk scope && (w == 0 || w == 1) && srcOk v && (v != litCode xs)
  | .amoCas _ _ xs w scope _ v _ => scopeOk scope && (w == 0 || w == 1) && srcOk v && (v != litCode xs)
  | .amoFadd _ _ xs w scope _ v => scopeOk scope && (w == 0 || w == 2) && srcOk v && (v != litCode xs)
  | .redAdd _ xs w scope _ v => scopeOk scope && (w == 0 || w == 1) && srcOk v && (v != litCode xs)
  | .redInc _ _ w scope _ => scopeOk scope && (w == 0 || w == 1)
  | .redAnd _ xs w scope _ v => scopeOk scope && (w == 0 || w == 1) && srcOk v && (v != litCode xs)
  | .redOr _ xs w scope _ v => scopeOk scope && (w == 0 || w == 1) && srcOk v && (v != litCode xs)
  | .redXor _ xs w scope _ v => scopeOk scope && (w == 0 || w == 1) && srcOk v && (v != litCode xs)
  | .redSmin _ xs w scope _ v => scopeOk scope && (w == 0 || w == 1) && srcOk v && (v != litCode xs)
  | .redSmax _ xs w scope _ v => scopeOk scope && (w == 0 || w == 1) && srcOk v && (v != litCode xs)
  | .redUmin _ xs w scope _ v => scopeOk scope && (w == 0 || w == 1) && srcOk v && (v != litCode xs)
  | .redUmax _ xs w scope _ v => scopeOk scope && (w == 0 || w == 1) && srcOk v && (v != litCode xs)
  | .redFadd _ xs w scope _ v => scopeOk scope && (w == 0 || w == 2) && srcOk v && (v != litCode xs)
  | .vadd _ x d _ _ => dOk x d
  | .vsub _ x d _ _ => dOk x d
  | .vmul _ x d _ _ => dOk x d
  | .vfma _ x d _ _ => dOk x d
  | .vfms _ x d _ _ => dOk x d
  | .vfnma _ x d _ _ => dOk x d
  | .vmin _ x d _ _ => dOk x d
  | .vmax _ x d _ _ => dOk x d
  | .vabs _ x d _ => dOk x d
  | .vneg _ x d _ => dOk x d
  | .vmov _ x d _ => dOk x d
  | .vand _ x d _ _ => dOk x d
  | .vor _ x d _ _ => dOk x d
  | .vxor _ x d _ _ => dOk x d
  | .vnot _ x d _ => dOk x d
  | .vshl _ x d _ _ => dOk x d
  | .vshr _ x d _ _ => dOk x d
  | .vsar _ x d _ _ => dOk x d
  | .vcmpEq _ m _ _ => (m != 0)
  | .vcmpNe _ m _ _ => (m != 0)
  | .vcmpLt _ m _ _ => (m != 0)
  | .vcmpLe _ m _ _ => (m != 0)
  | .vsel _ x d _ _ => dOk x d
  | .vcvtTo _ x d _ _ _ => dOk x d
  | .vcvtFrom _ x d a _ _ => dOk x d && vwOk a
  | .vcvtSc _ x d _ _ _ _ => dOk x d
  | .vredAdd _ x d _ _ => dOk x d
  | .vredMax _ x d _ _ => dOk x d
  | .vredMin _ x d _ _ => dOk x d
  | .vscanAdd _ x d _ _ => dOk x d
  | .vbcast _ x d _ _ => dOk x d
  | .vext _ _ _ _ => true
  | .vperm _ x d _ _ => dOk x d
  | .vrot _ x d _ _ => dOk x d
  | .vpart _ x d _ _ cv _ cnt => dOk x d && (cv || cnt == 0)
  | .vld _ x v o _ _ => dOk x v && srcOk o
  | .vst _ _ o _ _ => srcOk o
  | .vgath _ x v _ _ _ => dOk x v
  | .vscat _ _ _ _ _ => true
  | .vlut _ x d _ _ => dOk x d
  | .vmulhi x d _ _ => dOk x d
  | .vdot4 x d _ _ => dOk x d
  | .vamax x d _ _ => dOk x d
  | .vexp2 x d _ => dOk x d
  | .vlog2 x d _ => dOk x d
  | .vrcp x d _ => dOk x d
  | .vrsqrt x d _ => dOk x d
  | .vsqrt x d _ => dOk x d
  | .vtanh x d _ => dOk x d
  | .verf x d _ => dOk x d
  | .vsigm x d _ => dOk x d
  | .vdiv x d _ _ => dOk x d
  | .vfloor x d _ => dOk x d
  | .mma _ _ _ _ _ _ => true
  | .maccClr _ r c => decide (r.toNat + c.toNat + 1 ≤ 128)
  | .maccLd _ _ _ => true
  | .maccSt _ _ _ => true
  | .mcancel m => (m != 0)
  | .cpFill _ _ xb _ _ => xbOk xb 1
  | .cpDrain _ _ xb _ _ => xbOk xb 1
  | .cpGath _ _ xb _ => xbOk xb 2
  | .cpScat _ _ xb _ => xbOk xb 2
  | .cpBcst _ _ xb _ => xbOk xb 2
  | .cpRedFadd _ _ xb _ => xbOk xb 2
  | .cpRedBf2Add _ _ xb _ => xbOk xb 2
  | .cpRedIntAdd _ _ xb _ => xbOk xb 2
  | .cpRedSmax _ _ xb _ => xbOk xb 2
  | .cpRedUmax _ _ xb _ => xbOk xb 2
  | .cpSelr _ _ xb _ => xbOk xb 2
  | .cpSelc _ _ xb _ => xbOk xb 2
  | .cpRmaPut _ _ xb _ => xbOk xb 3
  | .cpRmaGet _ _ xb _ => xbOk xb 3
  | .cpRamo _ _ xb _ => xbOk xb 3
  | .cpGdrain _ _ xb _ => xbOk xb 2
  | .cpPmtGrant _ xb _ => xbOk xb 2
  | .cpPmtTake _ xb _ => xbOk xb 1
  | .cpCancel _ => true
  | .cpCancelAll => true
  | .whFetchPred s => srcOk s
  | .whFetchDem s => srcOk s
  | .whDrop s => srcOk s
  | .whPin s => srcOk s
  | .whUnpin s => srcOk s
  | .whQry s => srcOk s
  | .stg r s => decide (r.toNat < 28) && srcOk s
  | .stgLo r s => decide (r.toNat < 28) && srcOk s
  | .stgHi r s => decide (r.toNat < 28) && srcOk s
  | .ttDef _ _ _ => true
  | .ttFree _ => true
  | .ttBind _ _ => true
  | .ttUnbind _ => true
  | .ttMark _ _ => true
  | .ttMarkWait _ _ => true
  | .ttMarkNofold _ => true
  | .ttRd _ _ _ => true
  | .fmtSet _ _ _ _ _ => true
  | .vtSet t => decide (t.toNat < 6)
  | .vwinSet _ _ => true
  | .vactSet _ => true
  | .fpcSet wf wc fl so ws st rm => (wf == wc || (wc && fl != 0) || (wf && (so || ws || st || rm != 0)))
  | .fpcSetC _ _ _ _ => true
  | .fpcSetF _ => true
  | .lendMx _ => true
  | .lendVec _ => true
  | .phase _ t => decide (t.toNat < 9)
  | .amaxClr => true
  | .vlutLd _ _ _ => true
  | .kmov _ _ => true
  | .kderive _ _ xb => xbOk xb 2
  | .krestrict _ _ _ => true
  | .kgetObj _ _ => true
  | .kgetBase _ _ => true
  | .kgetLen _ _ => true
  | .kgetRgt _ _ => true
  | .kcheck p _ xb _ => (p != 0) && xbOk xb 2
  | .kclr _ => true
  | .kst _ _ _ => true
  | .kld _ _ _ => true
  | .kmint _ xb => xbOk xb 2
  | .xlatSync => true
  | .pgReform _ xb _ => xbOk xb 2
  | .hresetWrite => true
  | .foldloWrite => true
  | .foldhiWrite => true
  | .spaceDescriptorWrite => true
  | .localSpaceClearEnd => true
  | .schcfgWrite => true
  | .bundleCheck => true
  | .budgetTrap => true
  | .trapDelivery => true
  | .mxCommandStart => true
  | .mmaRowFinal => true
  | .mxCommandComplete => true
  | .copySourceRead => true
  | .byteLanding => true
  | .copyCommandComplete => true
  | .atomicTile => true
  | .groupDrainPerform => true
  | .groupDrainTimeout => true
  | .spawnSlotReserve => true
  | .porchSpill => true
  | .put => true
  | .get => true
  | .getResponse => true
  | .fadd => true
  | .tail => true
  | .permit => true
  | .ack => true
  | .nak => true
  | .messageResend => true
  | .connectionFail => true
  | .frameReceive => true
  | .portLinkDown => true
  | .flitCrcReplay => true
  | .linkRetrain => true
  | .permitLeaseExpiry => true
  | .droverRequestSend => true
  | .handleFetchComplete => true
  | .handleFetchFail => true
  | .handleEvictComplete => true
  | .pastureNonempty => true
  | .penMap => true
  | .penRemap => true
  | .penClaim => true
  | .pickup => true
  | .recordReturn => true
  | .wakeWithoutCause => true
  | .pinfoldWake => true
  | .sectorFill => true
  | .l2Writeback => true
  | .writeQueueDrain => true
  | .phaseShrinkComplete => true
  | .phaseGrowComplete => true
  | .uncorrectableError => true
  | .sramScrub => true
  | .hbmScrub => true
  | .coreSelfTest => true
  | .cellarMaintenance => true
  | .arbiterInterval => true
  | .junctionOvertemp => true
  | .recorderAppend => true
  | .hubWatchdog => true
  | .coldReset => true
  | .warmReset => true
  | .attestationRequest => true
  | .recorderFreezeRelease => true
  | .variableLatencyResult => true
  | .portLinkUp => true
  | .connectionReestablished => true
  | .programmingSliceEnd => true
  | .recoveryExchange => true
  | .hardwarePrefetch => true

end Sys2Proof
end

