-- ==== Sys2Proof/Decode.lean ====
section
/-! DEFINITION. Reading a slot word as an operation, and writing an operation as its words (R33 to R38, R53 to R61). -/

namespace Sys2Proof

/-- The `n` bits of a word from bit `lo` up. -/
def fld {m : Nat} (w : BitVec m) (lo n : Nat) : BitVec n := BitVec.ofNat n (w.toNat / 2 ^ lo)

/-- An operation, where its fixed and unused bits are as they must be (R56) and its fields are legal. -/
def ok (c : Bool) (i : Instr) : Option Instr := if c && i.wf then some i else none

/-- The C slot: Table 3.14. -/
def decodeC (lit : BitVec 3 → BitVec 24) (w : BitVec 24) : Option Instr :=
  match (fld w 18 6).toNat with
  | 0 => ok (fld w 0 18 == 0) (.nop .c)
  | 1 => ok (true) (.br (fld w 0 18))
  | 2 => ok (fld w 6 12 == 0) (.jmp (fld w 0 6))
  | 3 => ok (true) (.call (fld w 0 18))
  | 4 => ok (fld w 6 12 == 0) (.callr (fld w 0 6))
  | 5 => ok (fld w 0 18 == 0) (.ret)
  | 6 => ok (true) (.loop (w.getLsbD 17) (fld w 11 6) (fld w 0 11))
  | 7 => let e := lit (fld w 9 3); ok (fld w 0 9 == 0) (.bktJmp (fld w 12 6) (fld w 9 3) (fld e 4 20) (fld e 0 4))
  | 8 => let e := lit (fld w 15 3); ok (fld w 0 15 == 0) (.park (fld w 15 3) (fld e 0 24))
  | 9 => ok (fld w 0 18 == 0) (.exit)
  | 10 => ok (fld w 12 3 == 0) (.spawn (fld w 15 3) (fld w 6 6) (fld w 0 6))
  | 11 => let e := lit (fld w 12 3); ok (fld w 0 6 == 0 && fld e 0 12 == 0) (.waitw (fld w 15 3) (fld w 12 3) (fld w 6 6) (fld e 22 2) (e.getLsbD 21) (fld e 18 3) (fld e 12 6))
  | 12 => let e := lit (fld w 12 3); ok (fld w 0 6 == 0 && fld e 16 5 == 0) (.wakew (fld w 15 3) (fld w 12 3) (fld w 6 6) (fld e 21 3) (fld e 0 16))
  | 13 => ok (fld w 10 8 == 0) (.foldArrive (fld w 0 10))
  | 14 => ok (fld w 10 8 == 0) (.foldWait (fld w 0 10))
  | 15 => ok (fld w 10 8 == 0) (.foldSync (fld w 0 10))
  | 16 => ok (fld w 10 2 == 0) (.foldBytes (fld w 12 6) (fld w 0 10))
  | 17 => ok (fld w 6 12 == 0) (.whWait (fld w 0 6))
  | 18 => ok (fld w 12 2 == 0) (.probe (fld w 15 3) (w.getLsbD 14) (fld w 6 6) (fld w 0 6))
  | 19 => ok (fld w 0 18 == 0) (.segMark)
  | 20 => let e := lit (fld w 12 3); ok (fld w 0 12 == 0 && fld e 16 8 == 0) (.fence (fld w 15 3) (fld w 12 3) (fld e 0 16))
  | 21 => ok (fld w 6 9 == 0) (.fenceX (fld w 15 3) (fld w 0 6))
  | 22 => ok (true) (.trap (fld w 12 6) (fld w 0 12))
  | 23 => ok (fld w 12 6 == 0) (.brk (fld w 0 12))
  | 24 => ok (fld w 0 18 == 0) (.rfe)
  | 25 => ok (fld w 12 2 == 0 && fld w 14 4 == 0) (.ctxResumeRun (fld w 6 6) (fld w 0 6)) <|> ok (fld w 12 2 == 1 && fld w 14 4 == 0) (.ctxResumePark (fld w 6 6) (fld w 0 6)) <|> ok (fld w 12 2 == 2 && fld w 14 4 == 0) (.ctxResumePre (fld w 6 6) (fld w 0 6))
  | 26 => ok (fld w 12 1 == 0 && fld w 0 6 == 0 && fld w 13 5 == 0) (.ctxKill (fld w 6 6)) <|> ok (fld w 12 1 == 1 && fld w 0 6 == 0 && fld w 13 5 == 0) (.ctxKillRun (fld w 6 6))
  | 27 => ok (fld w 0 18 == 0) (.halt)
  | _ => none

/-- IA and IB, the codes of Table 3.15. -/
def decodeI (u : IUnit) (w : BitVec 24) : Option Instr :=
  match (fld w 18 6).toNat with
  | 0 => ok (fld w 0 18 == 0) (.nop u.slot)
  | 1 => ok (true) (.add u (w.getLsbD 17) (fld w 12 5) (fld w 6 6) (fld w 0 6))
  | 2 => ok (true) (.sub u (w.getLsbD 17) (fld w 12 5) (fld w 6 6) (fld w 0 6))
  | 3 => ok (true) (.mul u (w.getLsbD 17) (fld w 12 5) (fld w 6 6) (fld w 0 6))
  | 4 => ok (true) (.mulh u (w.getLsbD 17) (fld w 12 5) (fld w 6 6) (fld w 0 6))
  | 5 => ok (true) (.mulhu u (w.getLsbD 17) (fld w 12 5) (fld w 6 6) (fld w 0 6))
  | 6 => ok (true) (.div u (w.getLsbD 17) (fld w 12 5) (fld w 6 6) (fld w 0 6))
  | 7 => ok (true) (.divu u (w.getLsbD 17) (fld w 12 5) (fld w 6 6) (fld w 0 6))
  | 8 => ok (true) (.rem u (w.getLsbD 17) (fld w 12 5) (fld w 6 6) (fld w 0 6))
  | 9 => ok (true) (.remu u (w.getLsbD 17) (fld w 12 5) (fld w 6 6) (fld w 0 6))
  | 10 => ok (true) (.and u (w.getLsbD 17) (fld w 12 5) (fld w 6 6) (fld w 0 6))
  | 11 => ok (true) (.or u (w.getLsbD 17) (fld w 12 5) (fld w 6 6) (fld w 0 6))
  | 12 => ok (true) (.xor u (w.getLsbD 17) (fld w 12 5) (fld w 6 6) (fld w 0 6))
  | 13 => ok (true) (.andn u (w.getLsbD 17) (fld w 12 5) (fld w 6 6) (fld w 0 6))
  | 14 => ok (true) (.orn u (w.getLsbD 17) (fld w 12 5) (fld w 6 6) (fld w 0 6))
  | 15 => ok (true) (.xnor u (w.getLsbD 17) (fld w 12 5) (fld w 6 6) (fld w 0 6))
  | 16 => ok (true) (.shl u (w.getLsbD 17) (fld w 12 5) (fld w 6 6) (fld w 0 6))
  | 17 => ok (true) (.shr u (w.getLsbD 17) (fld w 12 5) (fld w 6 6) (fld w 0 6))
  | 18 => ok (true) (.sar u (w.getLsbD 17) (fld w 12 5) (fld w 6 6) (fld w 0 6))
  | 19 => ok (true) (.rotr u (w.getLsbD 17) (fld w 12 5) (fld w 6 6) (fld w 0 6))
  | 20 => ok (true) (.min u (w.getLsbD 17) (fld w 12 5) (fld w 6 6) (fld w 0 6))
  | 21 => ok (true) (.max u (w.getLsbD 17) (fld w 12 5) (fld w 6 6) (fld w 0 6))
  | 22 => ok (true) (.minu u (w.getLsbD 17) (fld w 12 5) (fld w 6 6) (fld w 0 6))
  | 23 => ok (true) (.maxu u (w.getLsbD 17) (fld w 12 5) (fld w 6 6) (fld w 0 6))
  | 24 => ok (fld w 0 6 == 0) (.clz u (w.getLsbD 17) (fld w 12 5) (fld w 6 6))
  | 25 => ok (fld w 0 6 == 0) (.ctz u (w.getLsbD 17) (fld w 12 5) (fld w 6 6))
  | 26 => ok (fld w 0 6 == 0) (.popc u (w.getLsbD 17) (fld w 12 5) (fld w 6 6))
  | 27 => ok (fld w 0 6 == 0) (.bswap u (w.getLsbD 17) (fld w 12 5) (fld w 6 6))
  | 28 => ok (true) (.bext u (w.getLsbD 17) (fld w 12 5) (fld w 6 6) (fld w 0 6))
  | 29 => ok (fld w 17 1 == 0) (.bins u (fld w 12 5) (fld w 6 6) (fld w 0 6))
  | 30 => ok (true) (.addS2 u (w.getLsbD 17) (fld w 12 5) (fld w 6 6) (fld w 0 6))
  | 31 => ok (true) (.addS3 u (w.getLsbD 17) (fld w 12 5) (fld w 6 6) (fld w 0 6))
  | 32 => ok (true) (.sext u (w.getLsbD 17) (fld w 12 5) (fld w 6 6) (fld w 0 6))
  | 33 => ok (true) (.zext u (w.getLsbD 17) (fld w 12 5) (fld w 6 6) (fld w 0 6))
  | 34 => ok (fld w 0 6 == 0) (.mov u (w.getLsbD 17) (fld w 12 5) (fld w 6 6))
  | 35 => ok (true) (.litHi u (w.getLsbD 17) (fld w 12 5) (fld w 6 6) (fld w 0 6))
  | 36 => ok (fld w 14 4 == 0) (.cmpEq u (fld w 12 2) (fld w 6 6) (fld w 0 6))
  | 37 => ok (fld w 14 4 == 0) (.cmpNe u (fld w 12 2) (fld w 6 6) (fld w 0 6))
  | 38 => ok (fld w 14 4 == 0) (.cmpLt u (fld w 12 2) (fld w 6 6) (fld w 0 6))
  | 39 => ok (fld w 14 4 == 0) (.cmpLtu u (fld w 12 2) (fld w 6 6) (fld w 0 6))
  | 40 => ok (fld w 14 4 == 0) (.cmpLe u (fld w 12 2) (fld w 6 6) (fld w 0 6))
  | 41 => ok (fld w 14 4 == 0) (.cmpLeu u (fld w 12 2) (fld w 6 6) (fld w 0 6))
  | 42 => ok (fld w 14 4 == 0) (.pand u (fld w 12 2) (fld w 6 6) (fld w 0 6))
  | 43 => ok (fld w 14 4 == 0) (.por u (fld w 12 2) (fld w 6 6) (fld w 0 6))
  | 44 => ok (fld w 14 4 == 0) (.pxor u (fld w 12 2) (fld w 6 6) (fld w 0 6))
  | 45 => ok (fld w 0 6 == 0 && fld w 14 4 == 0) (.pnot u (fld w 12 2) (fld w 6 6))
  | 46 => ok (fld w 14 4 == 0) (.tstBit u (fld w 12 2) (fld w 6 6) (fld w 0 6))
  | _ => none

/-- The codes of IA alone. -/
def decodeIA (w : BitVec 24) : Option Instr :=
  match (fld w 18 6).toNat with
  | 48 => ok (true) (.faddS (w.getLsbD 17) (fld w 12 5) (fld w 6 6) (fld w 0 6))
  | 49 => ok (true) (.fsubS (w.getLsbD 17) (fld w 12 5) (fld w 6 6) (fld w 0 6))
  | 50 => ok (true) (.fmulS (w.getLsbD 17) (fld w 12 5) (fld w 6 6) (fld w 0 6))
  | 51 => ok (true) (.ffmaS (w.getLsbD 17) (fld w 12 5) (fld w 6 6) (fld w 0 6))
  | 52 => ok (true) (.fminS (w.getLsbD 17) (fld w 12 5) (fld w 6 6) (fld w 0 6))
  | 53 => ok (true) (.fmaxS (w.getLsbD 17) (fld w 12 5) (fld w 6 6) (fld w 0 6))
  | 54 => ok (fld w 14 4 == 0) (.fcmpLtS (fld w 12 2) (fld w 6 6) (fld w 0 6))
  | 55 => ok (fld w 14 4 == 0) (.fcmpEqS (fld w 12 2) (fld w 6 6) (fld w 0 6))
  | 56 => ok (fld w 0 6 == 0) (.fcvtSI (w.getLsbD 17) (fld w 12 5) (fld w 6 6)) <|> ok (fld w 0 6 == 1) (.fcvtSIU (w.getLsbD 17) (fld w 12 5) (fld w 6 6))
  | 57 => ok (fld w 0 6 == 0) (.fcvtIS (w.getLsbD 17) (fld w 12 5) (fld w 6 6)) <|> ok (fld w 0 6 == 1) (.fcvtISU (w.getLsbD 17) (fld w 12 5) (fld w 6 6)) <|> ok (fld w 0 6 == 2) (.fcvtISW (w.getLsbD 17) (fld w 12 5) (fld w 6 6))
  | 58 => ok (fld w 0 6 == 0) (.sysRd (w.getLsbD 17) (fld w 12 5) (fld w 6 6))
  | 59 => ok (fld w 12 6 == 0) (.sysWr (fld w 6 6) (fld w 0 6))
  | 60 => ok (fld w 0 12 == 0) (.budRd (w.getLsbD 17) (fld w 12 5))
  | 61 => ok (fld w 0 12 == 0) (.timeRd (w.getLsbD 17) (fld w 12 5))
  | _ => none

/-- Family M of IB: op6 is `0b11` and op4 (R54). -/
def decodeIB (lit : BitVec 3 → BitVec 24) (w : BitVec 24) : Option Instr :=
  match (fld w 18 6).toNat with
  | 48 => ok (true) (.ldU8 (fld w 13 5) (fld w 10 3) (fld w 4 6) (fld w 0 4))
  | 49 => ok (true) (.ldS8 (fld w 13 5) (fld w 10 3) (fld w 4 6) (fld w 0 4))
  | 50 => ok (true) (.ldU16 (fld w 13 5) (fld w 10 3) (fld w 4 6) (fld w 0 4))
  | 51 => ok (true) (.ldS16 (fld w 13 5) (fld w 10 3) (fld w 4 6) (fld w 0 4))
  | 52 => ok (true) (.ldU32 (fld w 13 5) (fld w 10 3) (fld w 4 6) (fld w 0 4))
  | 53 => ok (true) (.ldS32 (fld w 13 5) (fld w 10 3) (fld w 4 6) (fld w 0 4))
  | 54 => ok (true) (.ld64 (fld w 13 5) (fld w 10 3) (fld w 4 6) (fld w 0 4))
  | 55 => ok (fld w 0 1 == 0) (.ldAcq (fld w 13 5) (fld w 10 3) (fld w 4 6) (fld w 1 3))
  | 56 => ok (true) (.st8 (fld w 13 5) (fld w 10 3) (fld w 4 6) (fld w 0 4))
  | 57 => ok (true) (.st16 (fld w 13 5) (fld w 10 3) (fld w 4 6) (fld w 0 4))
  | 58 => ok (true) (.st32 (fld w 13 5) (fld w 10 3) (fld w 4 6) (fld w 0 4))
  | 59 => ok (true) (.st64 (fld w 13 5) (fld w 10 3) (fld w 4 6) (fld w 0 4))
  | 60 => ok (fld w 0 1 == 0) (.stRel (fld w 13 5) (fld w 10 3) (fld w 4 6) (fld w 1 3))
  | 61 => ok (fld w 10 3 == 0 && fld w 17 1 == 0) (.ldk (fld w 13 4) (fld w 4 6) (fld w 0 4))
  | 62 =>
    let e := lit (fld w 4 3)
    match (fld e 20 4).toNat with
    | 0 => ok (fld w 7 3 == 6 && fld w 0 4 == 0 && fld e 0 5 == 0) (.amoAdd (fld w 13 5) (fld w 10 3) (fld w 4 3) (fld e 18 2) (fld e 15 3) (fld e 11 4) (fld e 5 6))
    | 1 => ok (fld w 7 3 == 6 && fld w 0 4 == 0 && fld e 0 11 == 0) (.amoInc (fld w 13 5) (fld w 10 3) (fld w 4 3) (fld e 18 2) (fld e 15 3) (fld e 11 4))
    | 2 => ok (fld w 7 3 == 6 && fld w 0 4 == 0 && fld e 0 5 == 0) (.amoAnd (fld w 13 5) (fld w 10 3) (fld w 4 3) (fld e 18 2) (fld e 15 3) (fld e 11 4) (fld e 5 6))
    | 3 => ok (fld w 7 3 == 6 && fld w 0 4 == 0 && fld e 0 5 == 0) (.amoOr (fld w 13 5) (fld w 10 3) (fld w 4 3) (fld e 18 2) (fld e 15 3) (fld e 11 4) (fld e 5 6))
    | 4 => ok (fld w 7 3 == 6 && fld w 0 4 == 0 && fld e 0 5 == 0) (.amoXor (fld w 13 5) (fld w 10 3) (fld w 4 3) (fld e 18 2) (fld e 15 3) (fld e 11 4) (fld e 5 6))
    | 5 => ok (fld w 7 3 == 6 && fld w 0 4 == 0 && fld e 0 5 == 0) (.amoSmin (fld w 13 5) (fld w 10 3) (fld w 4 3) (fld e 18 2) (fld e 15 3) (fld e 11 4) (fld e 5 6))
    | 6 => ok (fld w 7 3 == 6 && fld w 0 4 == 0 && fld e 0 5 == 0) (.amoSmax (fld w 13 5) (fld w 10 3) (fld w 4 3) (fld e 18 2) (fld e 15 3) (fld e 11 4) (fld e 5 6))
    | 7 => ok (fld w 7 3 == 6 && fld w 0 4 == 0 && fld e 0 5 == 0) (.amoUmin (fld w 13 5) (fld w 10 3) (fld w 4 3) (fld e 18 2) (fld e 15 3) (fld e 11 4) (fld e 5 6))
    | 8 => ok (fld w 7 3 == 6 && fld w 0 4 == 0 && fld e 0 5 == 0) (.amoUmax (fld w 13 5) (fld w 10 3) (fld w 4 3) (fld e 18 2) (fld e 15 3) (fld e 11 4) (fld e 5 6))
    | 9 => ok (fld w 7 3 == 6 && fld w 0 4 == 0 && fld e 0 5 == 0) (.amoSwap (fld w 13 5) (fld w 10 3) (fld w 4 3) (fld e 18 2) (fld e 15 3) (fld e 11 4) (fld e 5 6))
    | 10 => ok (fld w 7 3 == 6 && fld w 0 4 == 0) (.amoCas (fld w 13 5) (fld w 10 3) (fld w 4 3) (fld e 18 2) (fld e 15 3) (fld e 11 4) (fld e 5 6) (fld e 0 5))
    | 11 => ok (fld w 7 3 == 6 && fld w 0 4 == 0 && fld e 0 5 == 0) (.amoFadd (fld w 13 5) (fld w 10 3) (fld w 4 3) (fld e 18 2) (fld e 15 3) (fld e 11 4) (fld e 5 6))
    | _ => none
  | 63 =>
    let e := lit (fld w 4 3)
    match (fld e 20 4).toNat with
    | 0 => ok (fld w 7 3 == 6 && fld w 0 4 == 0 && fld w 13 5 == 0 && fld e 0 5 == 0) (.redAdd (fld w 10 3) (fld w 4 3) (fld e 18 2) (fld e 15 3) (fld e 11 4) (fld e 5 6))
    | 1 => ok (fld w 7 3 == 6 && fld w 0 4 == 0 && fld w 13 5 == 0 && fld e 0 11 == 0) (.redInc (fld w 10 3) (fld w 4 3) (fld e 18 2) (fld e 15 3) (fld e 11 4))
    | 2 => ok (fld w 7 3 == 6 && fld w 0 4 == 0 && fld w 13 5 == 0 && fld e 0 5 == 0) (.redAnd (fld w 10 3) (fld w 4 3) (fld e 18 2) (fld e 15 3) (fld e 11 4) (fld e 5 6))
    | 3 => ok (fld w 7 3 == 6 && fld w 0 4 == 0 && fld w 13 5 == 0 && fld e 0 5 == 0) (.redOr (fld w 10 3) (fld w 4 3) (fld e 18 2) (fld e 15 3) (fld e 11 4) (fld e 5 6))
    | 4 => ok (fld w 7 3 == 6 && fld w 0 4 == 0 && fld w 13 5 == 0 && fld e 0 5 == 0) (.redXor (fld w 10 3) (fld w 4 3) (fld e 18 2) (fld e 15 3) (fld e 11 4) (fld e 5 6))
    | 5 => ok (fld w 7 3 == 6 && fld w 0 4 == 0 && fld w 13 5 == 0 && fld e 0 5 == 0) (.redSmin (fld w 10 3) (fld w 4 3) (fld e 18 2) (fld e 15 3) (fld e 11 4) (fld e 5 6))
    | 6 => ok (fld w 7 3 == 6 && fld w 0 4 == 0 && fld w 13 5 == 0 && fld e 0 5 == 0) (.redSmax (fld w 10 3) (fld w 4 3) (fld e 18 2) (fld e 15 3) (fld e 11 4) (fld e 5 6))
    | 7 => ok (fld w 7 3 == 6 && fld w 0 4 == 0 && fld w 13 5 == 0 && fld e 0 5 == 0) (.redUmin (fld w 10 3) (fld w 4 3) (fld e 18 2) (fld e 15 3) (fld e 11 4) (fld e 5 6))
    | 8 => ok (fld w 7 3 == 6 && fld w 0 4 == 0 && fld w 13 5 == 0 && fld e 0 5 == 0) (.redUmax (fld w 10 3) (fld w 4 3) (fld e 18 2) (fld e 15 3) (fld e 11 4) (fld e 5 6))
    | 11 => ok (fld w 7 3 == 6 && fld w 0 4 == 0 && fld w 13 5 == 0 && fld e 0 5 == 0) (.redFadd (fld w 10 3) (fld w 4 3) (fld e 18 2) (fld e 15 3) (fld e 11 4) (fld e 5 6))
    | _ => none
  | _ => none

/-- VA and VB, the codes both have (Table 3.16). -/
def decodeV (u : VUnit) (lit : BitVec 3 → BitVec 24) (w : BitVec 24) : Option Instr :=
  match (fld w 18 6).toNat with
  | 0 => ok (fld w 0 18 == 0) (.nop u.slot)
  | 1 => ok (true) (.vadd u (w.getLsbD 17) (fld w 12 5) (fld w 6 6) (fld w 0 6))
  | 2 => ok (true) (.vsub u (w.getLsbD 17) (fld w 12 5) (fld w 6 6) (fld w 0 6))
  | 3 => ok (true) (.vmul u (w.getLsbD 17) (fld w 12 5) (fld w 6 6) (fld w 0 6))
  | 4 => ok (true) (.vfma u (w.getLsbD 17) (fld w 12 5) (fld w 6 6) (fld w 0 6))
  | 5 => ok (true) (.vfms u (w.getLsbD 17) (fld w 12 5) (fld w 6 6) (fld w 0 6))
  | 6 => ok (true) (.vfnma u (w.getLsbD 17) (fld w 12 5) (fld w 6 6) (fld w 0 6))
  | 7 => ok (true) (.vmin u (w.getLsbD 17) (fld w 12 5) (fld w 6 6) (fld w 0 6))
  | 8 => ok (true) (.vmax u (w.getLsbD 17) (fld w 12 5) (fld w 6 6) (fld w 0 6))
  | 9 => ok (fld w 0 6 == 0) (.vabs u (w.getLsbD 17) (fld w 12 5) (fld w 6 6))
  | 10 => ok (fld w 0 6 == 0) (.vneg u (w.getLsbD 17) (fld w 12 5) (fld w 6 6))
  | 11 => ok (fld w 0 6 == 0) (.vmov u (w.getLsbD 17) (fld w 12 5) (fld w 6 6))
  | 12 => ok (true) (.vand u (w.getLsbD 17) (fld w 12 5) (fld w 6 6) (fld w 0 6))
  | 13 => ok (true) (.vor u (w.getLsbD 17) (fld w 12 5) (fld w 6 6) (fld w 0 6))
  | 14 => ok (true) (.vxor u (w.getLsbD 17) (fld w 12 5) (fld w 6 6) (fld w 0 6))
  | 15 => ok (fld w 0 6 == 0) (.vnot u (w.getLsbD 17) (fld w 12 5) (fld w 6 6))
  | 16 => ok (true) (.vshl u (w.getLsbD 17) (fld w 12 5) (fld w 6 6) (fld w 0 6))
  | 17 => ok (true) (.vshr u (w.getLsbD 17) (fld w 12 5) (fld w 6 6) (fld w 0 6))
  | 18 => ok (true) (.vsar u (w.getLsbD 17) (fld w 12 5) (fld w 6 6) (fld w 0 6))
  | 19 => ok (fld w 14 4 == 0) (.vcmpEq u (fld w 12 2) (fld w 6 6) (fld w 0 6))
  | 20 => ok (fld w 14 4 == 0) (.vcmpNe u (fld w 12 2) (fld w 6 6) (fld w 0 6))
  | 21 => ok (fld w 14 4 == 0) (.vcmpLt u (fld w 12 2) (fld w 6 6) (fld w 0 6))
  | 22 => ok (fld w 14 4 == 0) (.vcmpLe u (fld w 12 2) (fld w 6 6) (fld w 0 6))
  | 23 => ok (true) (.vsel u (w.getLsbD 17) (fld w 12 5) (fld w 6 6) (fld w 0 6))
  | 24 => ok (fld w 2 1 == 0) (.vcvtTo u (w.getLsbD 17) (fld w 12 5) (fld w 6 6) (fld w 3 3) (fld w 0 2)) <|> ok (fld w 2 1 == 1) (.vcvtFrom u (w.getLsbD 17) (fld w 12 5) (fld w 6 6) (fld w 3 3) (fld w 0 2))
  | 25 => ok (true) (.vcvtSc u (w.getLsbD 17) (fld w 12 5) (fld w 6 6) (fld w 3 3) (w.getLsbD 2) (fld w 0 2))
  | 26 => ok (true) (.vredAdd u (w.getLsbD 17) (fld w 12 5) (fld w 6 6) (fld w 0 6))
  | 27 => ok (true) (.vredMax u (w.getLsbD 17) (fld w 12 5) (fld w 6 6) (fld w 0 6))
  | 28 => ok (true) (.vredMin u (w.getLsbD 17) (fld w 12 5) (fld w 6 6) (fld w 0 6))
  | 29 => ok (true) (.vscanAdd u (w.getLsbD 17) (fld w 12 5) (fld w 6 6) (fld w 0 6))
  | 30 => ok (true) (.vbcast u (w.getLsbD 17) (fld w 12 5) (fld w 6 6) (fld w 0 6))
  | 31 => ok (fld w 17 1 == 0) (.vext u (fld w 12 5) (fld w 6 6) (fld w 0 6))
  | 32 => ok (true) (.vperm u (w.getLsbD 17) (fld w 12 5) (fld w 6 6) (fld w 0 6))
  | 33 => ok (true) (.vrot u (w.getLsbD 17) (fld w 12 5) (fld w 6 6) (fld w 0 6))
  | 34 => let e := lit (fld w 0 3); ok (fld w 3 3 == 6 && fld e 8 16 == 0) (.vpart u (w.getLsbD 17) (fld w 12 5) (fld w 6 6) (fld w 0 3) (e.getLsbD 7) (fld e 5 2) (fld e 0 5))
  | 35 => ok (true) (.vld u (w.getLsbD 17) (fld w 12 5) (fld w 6 6) (fld w 3 3) (fld w 0 3))
  | 36 => ok (fld w 17 1 == 0) (.vst u (fld w 12 5) (fld w 6 6) (fld w 3 3) (fld w 0 3))
  | 37 => ok (true) (.vgath u (w.getLsbD 17) (fld w 12 5) (fld w 6 6) (fld w 3 3) (fld w 0 3))
  | 38 => ok (fld w 17 1 == 0) (.vscat u (fld w 12 5) (fld w 6 6) (fld w 3 3) (fld w 0 3))
  | 39 => ok (fld w 3 3 == 0) (.vlut u (w.getLsbD 17) (fld w 12 5) (fld w 6 6) (fld w 0 3))
  | _ => none

/-- The codes of VA alone. -/
def decodeVA (w : BitVec 24) : Option Instr :=
  match (fld w 18 6).toNat with
  | 48 => ok (true) (.vmulhi (w.getLsbD 17) (fld w 12 5) (fld w 6 6) (fld w 0 6))
  | 49 => ok (true) (.vdot4 (w.getLsbD 17) (fld w 12 5) (fld w 6 6) (fld w 0 6))
  | 50 => ok (true) (.vamax (w.getLsbD 17) (fld w 12 5) (fld w 6 6) (fld w 0 6))
  | _ => none

/-- The codes of VB alone. -/
def decodeVB (w : BitVec 24) : Option Instr :=
  match (fld w 18 6).toNat with
  | 48 => ok (fld w 0 6 == 0) (.vexp2 (w.getLsbD 17) (fld w 12 5) (fld w 6 6))
  | 49 => ok (fld w 0 6 == 0) (.vlog2 (w.getLsbD 17) (fld w 12 5) (fld w 6 6))
  | 50 => ok (fld w 0 6 == 0) (.vrcp (w.getLsbD 17) (fld w 12 5) (fld w 6 6))
  | 51 => ok (fld w 0 6 == 0) (.vrsqrt (w.getLsbD 17) (fld w 12 5) (fld w 6 6))
  | 52 => ok (fld w 0 6 == 0) (.vsqrt (w.getLsbD 17) (fld w 12 5) (fld w 6 6))
  | 53 => ok (fld w 0 6 == 0) (.vtanh (w.getLsbD 17) (fld w 12 5) (fld w 6 6))
  | 54 => ok (fld w 0 6 == 0) (.verf (w.getLsbD 17) (fld w 12 5) (fld w 6 6))
  | 55 => ok (fld w 0 6 == 0) (.vsigm (w.getLsbD 17) (fld w 12 5) (fld w 6 6))
  | 56 => ok (true) (.vdiv (w.getLsbD 17) (fld w 12 5) (fld w 6 6) (fld w 0 6))
  | 57 => ok (fld w 0 6 == 0) (.vfloor (w.getLsbD 17) (fld w 12 5) (fld w 6 6))
  | _ => none

/-- The MX slot: Table 3.18. -/
def decodeMX (w : BitVec 24) : Option Instr :=
  match (fld w 18 6).toNat with
  | 0 => ok (fld w 0 18 == 0) (.nop .mx)
  | 1 => ok (fld w 0 2 == 0) (.mma (fld w 12 6) (fld w 6 6) (w.getLsbD 5) (w.getLsbD 4) (w.getLsbD 3) (w.getLsbD 2))
  | 2 => ok (fld w 15 3 == 0) (.maccClr (w.getLsbD 14) (fld w 7 7) (fld w 0 7))
  | 3 => ok (fld w 0 4 == 0) (.maccLd (fld w 12 6) (w.getLsbD 11) (fld w 4 7))
  | 4 => ok (fld w 0 4 == 0) (.maccSt (fld w 12 6) (w.getLsbD 11) (fld w 4 7))
  | 5 => ok (fld w 2 16 == 0) (.mcancel (fld w 0 2))
  | _ => none

/-- The XC slot: Table 3.18. -/
def decodeXC (w : BitVec 24) : Option Instr :=
  match (fld w 18 6).toNat with
  | 0 => ok (fld w 0 18 == 0) (.nop .xc)
  | 1 => ok (true) (.cpFill (fld w 12 6) (fld w 9 3) (fld w 5 4) (w.getLsbD 4) (fld w 0 4))
  | 2 => ok (true) (.cpDrain (fld w 12 6) (fld w 9 3) (fld w 5 4) (w.getLsbD 4) (fld w 0 4))
  | 3 => ok (fld w 4 1 == 0) (.cpGath (fld w 12 6) (fld w 9 3) (fld w 5 4) (fld w 0 4))
  | 4 => ok (fld w 4 1 == 0) (.cpScat (fld w 12 6) (fld w 9 3) (fld w 5 4) (fld w 0 4))
  | 5 => ok (fld w 4 1 == 0) (.cpBcst (fld w 12 6) (fld w 9 3) (fld w 5 4) (fld w 0 4))
  | 6 => ok (fld w 4 1 == 0) (.cpRedFadd (fld w 12 6) (fld w 9 3) (fld w 5 4) (fld w 0 4))
  | 7 => ok (fld w 4 1 == 0) (.cpSelr (fld w 12 6) (fld w 9 3) (fld w 5 4) (fld w 0 4))
  | 8 => ok (fld w 4 1 == 0) (.cpSelc (fld w 12 6) (fld w 9 3) (fld w 5 4) (fld w 0 4))
  | 9 => ok (fld w 4 1 == 0) (.cpRmaPut (fld w 12 6) (fld w 9 3) (fld w 5 4) (fld w 0 4))
  | 10 => ok (fld w 4 1 == 0) (.cpRamo (fld w 12 6) (fld w 9 3) (fld w 5 4) (fld w 0 4))
  | 11 => ok (fld w 4 1 == 1) (.cpGdrain (fld w 12 6) (fld w 9 3) (fld w 5 4) (fld w 0 4))
  | 12 => ok (fld w 4 1 == 1 && fld w 12 6 == 0) (.cpPmtGrant (fld w 9 3) (fld w 5 4) (fld w 0 4)) <|> ok (fld w 4 1 == 0 && fld w 12 6 == 0) (.cpPmtTake (fld w 9 3) (fld w 5 4) (fld w 0 4))
  | 13 => ok (fld w 11 1 == 0 && fld w 0 11 == 0) (.cpCancel (fld w 12 6)) <|> ok (fld w 11 1 == 1 && fld w 0 11 == 0 && fld w 12 6 == 0) (.cpCancelAll)
  | 14 => ok (fld w 6 1 == 0 && fld w 7 11 == 0) (.whFetchPred (fld w 0 6)) <|> ok (fld w 6 1 == 1 && fld w 7 11 == 0) (.whFetchDem (fld w 0 6))
  | 15 => ok (fld w 6 12 == 0) (.whDrop (fld w 0 6))
  | 16 => ok (fld w 6 12 == 0) (.whPin (fld w 0 6))
  | 17 => ok (fld w 6 12 == 0) (.whUnpin (fld w 0 6))
  | 18 => ok (fld w 6 12 == 0) (.whQry (fld w 0 6))
  | _ => none

/-- The CF slot: Table 3.18. -/
def decodeCF (w : BitVec 24) : Option Instr :=
  match (fld w 18 6).toNat with
  | 0 => ok (fld w 0 18 == 0) (.nop .cf)
  | 1 => ok (fld w 11 2 == 0 && fld w 6 5 == 0) (.stg (fld w 13 5) (fld w 0 6)) <|> ok (fld w 11 2 == 1 && fld w 6 5 == 0) (.stgLo (fld w 13 5) (fld w 0 6)) <|> ok (fld w 11 2 == 2 && fld w 6 5 == 0) (.stgHi (fld w 13 5) (fld w 0 6))
  | 2 => ok (fld w 0 7 == 0) (.ttDef (fld w 12 6) (fld w 10 2) (fld w 7 3))
  | 3 => ok (fld w 0 12 == 0) (.ttFree (fld w 12 6))
  | 4 => ok (fld w 9 1 == 0 && fld w 0 9 == 0) (.ttBind (fld w 12 6) (fld w 10 2)) <|> ok (fld w 9 1 == 1 && fld w 0 9 == 0 && fld w 10 2 == 0) (.ttUnbind (fld w 12 6))
  | 5 => ok (fld w 10 2 == 2) (.ttMark (fld w 12 6) (fld w 0 10)) <|> ok (fld w 10 2 == 3) (.ttMarkWait (fld w 12 6) (fld w 0 10)) <|> ok (fld w 10 2 == 0 && fld w 0 10 == 0) (.ttMarkNofold (fld w 12 6))
  | 6 => ok (fld w 0 6 == 0) (.ttRd (fld w 12 6) (w.getLsbD 11) (fld w 6 5))
  | 7 => ok (true) (.fmtSet (fld w 16 2) (fld w 12 4) (fld w 8 4) (fld w 4 4) (fld w 0 4))
  | 8 => ok (fld w 3 15 == 0) (.vtSet (fld w 0 3))
  | 9 => ok (fld w 3 15 == 0) (.vwinSet (w.getLsbD 2) (fld w 0 2))
  | 10 => ok (fld w 2 16 == 0) (.vactSet (fld w 0 2))
  | 11 => ok (fld w 16 2 == 1 && fld w 0 5 == 0 && fld w 10 6 == 0) (.fpcSetC (w.getLsbD 9) (w.getLsbD 8) (w.getLsbD 7) (fld w 5 2)) <|> ok (fld w 16 2 == 2 && fld w 0 11 == 0) (.fpcSetF (fld w 11 5)) <|> ok (fld w 0 5 == 0 && fld w 10 1 == 0) (.fpcSet (w.getLsbD 17) (w.getLsbD 16) (fld w 11 5) (w.getLsbD 9) (w.getLsbD 8) (w.getLsbD 7) (fld w 5 2))
  | 12 => ok (fld w 0 1 == 0 && fld w 2 16 == 0) (.lendMx (w.getLsbD 1)) <|> ok (fld w 0 1 == 1 && fld w 2 16 == 0) (.lendVec (w.getLsbD 1))
  | 13 => ok (fld w 4 11 == 0) (.phase (fld w 15 3) (fld w 0 4))
  | 14 => ok (fld w 0 18 == 0) (.amaxClr)
  | 15 => ok (true) (.vlutLd (fld w 15 3) (fld w 11 4) (fld w 0 11))
  | 16 => ok (fld w 0 10 == 0) (.kmov (fld w 14 4) (fld w 10 4))
  | 17 => ok (fld w 0 6 == 0) (.kderive (fld w 14 4) (fld w 10 4) (fld w 6 4))
  | 18 => ok (fld w 7 3 == 0) (.krestrict (fld w 14 4) (fld w 10 4) (fld w 0 7))
  | 19 => ok (fld w 0 9 == 0) (.kgetObj (fld w 13 5) (fld w 9 4))
  | 20 => ok (fld w 0 9 == 0) (.kgetBase (fld w 13 5) (fld w 9 4))
  | 21 => ok (fld w 0 9 == 0) (.kgetLen (fld w 13 5) (fld w 9 4))
  | 22 => ok (fld w 0 9 == 0) (.kgetRgt (fld w 13 5) (fld w 9 4))
  | 23 => ok (true) (.kcheck (fld w 16 2) (fld w 12 4) (fld w 8 4) (fld w 0 8))
  | 24 => ok (fld w 0 14 == 0) (.kclr (fld w 14 4))
  | 25 => ok (true) (.kst (fld w 15 3) (fld w 11 4) (fld w 0 11))
  | 26 => ok (true) (.kld (fld w 14 4) (fld w 11 3) (fld w 0 11))
  | 27 => ok (fld w 0 10 == 0) (.kmint (fld w 14 4) (fld w 10 4))
  | 28 => ok (fld w 0 18 == 0) (.xlatSync)
  | 29 => ok (fld w 0 5 == 0) (.pgReform (fld w 14 4) (fld w 10 4) (fld w 5 5))
  | _ => none

/-- The operation of a slot word, where `lit k` is the literal that slot k holds (R37, R60, R61). -/
def decode (sl : Slot) (lit : BitVec 3 → BitVec 24) (w : BitVec 24) : Option Instr :=
  match sl with
  | .c => decodeC lit w
  | .ia => if w.toNat < 0x30 * 262144 then decodeI .ia w else decodeIA w
  | .ib => if w.toNat < 0x30 * 262144 then decodeI .ib w else decodeIB lit w
  | .va => if w.toNat < 0x30 * 262144 then decodeV .va lit w else decodeVA w
  | .vb => if w.toNat < 0x30 * 262144 then decodeV .vb lit w else decodeVB w
  | .mx => decodeMX w
  | .xc => decodeXC w
  | .cf => decodeCF w

/-- The slot an operation stands in; none for a step that is no operation. -/
def Instr.slot : Instr → Option Slot
  | .nop sl => some sl
  | .br _ => some .c
  | .jmp _ => some .c
  | .call _ => some .c
  | .callr _ => some .c
  | .ret => some .c
  | .loop _ _ _ => some .c
  | .bktJmp _ _ _ _ => some .c
  | .park _ _ => some .c
  | .exit => some .c
  | .spawn _ _ _ => some .c
  | .waitw _ _ _ _ _ _ _ => some .c
  | .wakew _ _ _ _ _ => some .c
  | .foldArrive _ => some .c
  | .foldWait _ => some .c
  | .foldSync _ => some .c
  | .foldBytes _ _ => some .c
  | .whWait _ => some .c
  | .probe _ _ _ _ => some .c
  | .segMark => some .c
  | .fence _ _ _ => some .c
  | .fenceX _ _ => some .c
  | .trap _ _ => some .c
  | .brk _ => some .c
  | .rfe => some .c
  | .ctxResumeRun _ _ => some .c
  | .ctxResumePark _ _ => some .c
  | .ctxResumePre _ _ => some .c
  | .ctxKill _ => some .c
  | .ctxKillRun _ => some .c
  | .halt => some .c
  | .add u _ _ _ _ => some u.slot
  | .sub u _ _ _ _ => some u.slot
  | .mul u _ _ _ _ => some u.slot
  | .mulh u _ _ _ _ => some u.slot
  | .mulhu u _ _ _ _ => some u.slot
  | .div u _ _ _ _ => some u.slot
  | .divu u _ _ _ _ => some u.slot
  | .rem u _ _ _ _ => some u.slot
  | .remu u _ _ _ _ => some u.slot
  | .and u _ _ _ _ => some u.slot
  | .or u _ _ _ _ => some u.slot
  | .xor u _ _ _ _ => some u.slot
  | .andn u _ _ _ _ => some u.slot
  | .orn u _ _ _ _ => some u.slot
  | .xnor u _ _ _ _ => some u.slot
  | .shl u _ _ _ _ => some u.slot
  | .shr u _ _ _ _ => some u.slot
  | .sar u _ _ _ _ => some u.slot
  | .rotr u _ _ _ _ => some u.slot
  | .min u _ _ _ _ => some u.slot
  | .max u _ _ _ _ => some u.slot
  | .minu u _ _ _ _ => some u.slot
  | .maxu u _ _ _ _ => some u.slot
  | .clz u _ _ _ => some u.slot
  | .ctz u _ _ _ => some u.slot
  | .popc u _ _ _ => some u.slot
  | .bswap u _ _ _ => some u.slot
  | .bext u _ _ _ _ => some u.slot
  | .bins u _ _ _ => some u.slot
  | .addS2 u _ _ _ _ => some u.slot
  | .addS3 u _ _ _ _ => some u.slot
  | .sext u _ _ _ _ => some u.slot
  | .zext u _ _ _ _ => some u.slot
  | .mov u _ _ _ => some u.slot
  | .litHi u _ _ _ _ => some u.slot
  | .cmpEq u _ _ _ => some u.slot
  | .cmpNe u _ _ _ => some u.slot
  | .cmpLt u _ _ _ => some u.slot
  | .cmpLtu u _ _ _ => some u.slot
  | .cmpLe u _ _ _ => some u.slot
  | .cmpLeu u _ _ _ => some u.slot
  | .pand u _ _ _ => some u.slot
  | .por u _ _ _ => some u.slot
  | .pxor u _ _ _ => some u.slot
  | .pnot u _ _ => some u.slot
  | .tstBit u _ _ _ => some u.slot
  | .faddS _ _ _ _ => some .ia
  | .fsubS _ _ _ _ => some .ia
  | .fmulS _ _ _ _ => some .ia
  | .ffmaS _ _ _ _ => some .ia
  | .fminS _ _ _ _ => some .ia
  | .fmaxS _ _ _ _ => some .ia
  | .fcmpLtS _ _ _ => some .ia
  | .fcmpEqS _ _ _ => some .ia
  | .fcvtSI _ _ _ => some .ia
  | .fcvtSIU _ _ _ => some .ia
  | .fcvtIS _ _ _ => some .ia
  | .fcvtISU _ _ _ => some .ia
  | .fcvtISW _ _ _ => some .ia
  | .sysRd _ _ _ => some .ia
  | .sysWr _ _ => some .ia
  | .budRd _ _ => some .ia
  | .timeRd _ _ => some .ia
  | .ldU8 _ _ _ _ => some .ib
  | .ldS8 _ _ _ _ => some .ib
  | .ldU16 _ _ _ _ => some .ib
  | .ldS16 _ _ _ _ => some .ib
  | .ldU32 _ _ _ _ => some .ib
  | .ldS32 _ _ _ _ => some .ib
  | .ld64 _ _ _ _ => some .ib
  | .ldAcq _ _ _ _ => some .ib
  | .st8 _ _ _ _ => some .ib
  | .st16 _ _ _ _ => some .ib
  | .st32 _ _ _ _ => some .ib
  | .st64 _ _ _ _ => some .ib
  | .stRel _ _ _ _ => some .ib
  | .ldk _ _ _ => some .ib
  | .amoAdd _ _ _ _ _ _ _ => some .ib
  | .amoInc _ _ _ _ _ _ => some .ib
  | .amoAnd _ _ _ _ _ _ _ => some .ib
  | .amoOr _ _ _ _ _ _ _ => some .ib
  | .amoXor _ _ _ _ _ _ _ => some .ib
  | .amoSmin _ _ _ _ _ _ _ => some .ib
  | .amoSmax _ _ _ _ _ _ _ => some .ib
  | .amoUmin _ _ _ _ _ _ _ => some .ib
  | .amoUmax _ _ _ _ _ _ _ => some .ib
  | .amoSwap _ _ _ _ _ _ _ => some .ib
  | .amoCas _ _ _ _ _ _ _ _ => some .ib
  | .amoFadd _ _ _ _ _ _ _ => some .ib
  | .redAdd _ _ _ _ _ _ => some .ib
  | .redInc _ _ _ _ _ => some .ib
  | .redAnd _ _ _ _ _ _ => some .ib
  | .redOr _ _ _ _ _ _ => some .ib
  | .redXor _ _ _ _ _ _ => some .ib
  | .redSmin _ _ _ _ _ _ => some .ib
  | .redSmax _ _ _ _ _ _ => some .ib
  | .redUmin _ _ _ _ _ _ => some .ib
  | .redUmax _ _ _ _ _ _ => some .ib
  | .redFadd _ _ _ _ _ _ => some .ib
  | .vadd u _ _ _ _ => some u.slot
  | .vsub u _ _ _ _ => some u.slot
  | .vmul u _ _ _ _ => some u.slot
  | .vfma u _ _ _ _ => some u.slot
  | .vfms u _ _ _ _ => some u.slot
  | .vfnma u _ _ _ _ => some u.slot
  | .vmin u _ _ _ _ => some u.slot
  | .vmax u _ _ _ _ => some u.slot
  | .vabs u _ _ _ => some u.slot
  | .vneg u _ _ _ => some u.slot
  | .vmov u _ _ _ => some u.slot
  | .vand u _ _ _ _ => some u.slot
  | .vor u _ _ _ _ => some u.slot
  | .vxor u _ _ _ _ => some u.slot
  | .vnot u _ _ _ => some u.slot
  | .vshl u _ _ _ _ => some u.slot
  | .vshr u _ _ _ _ => some u.slot
  | .vsar u _ _ _ _ => some u.slot
  | .vcmpEq u _ _ _ => some u.slot
  | .vcmpNe u _ _ _ => some u.slot
  | .vcmpLt u _ _ _ => some u.slot
  | .vcmpLe u _ _ _ => some u.slot
  | .vsel u _ _ _ _ => some u.slot
  | .vcvtTo u _ _ _ _ _ => some u.slot
  | .vcvtFrom u _ _ _ _ _ => some u.slot
  | .vcvtSc u _ _ _ _ _ _ => some u.slot
  | .vredAdd u _ _ _ _ => some u.slot
  | .vredMax u _ _ _ _ => some u.slot
  | .vredMin u _ _ _ _ => some u.slot
  | .vscanAdd u _ _ _ _ => some u.slot
  | .vbcast u _ _ _ _ => some u.slot
  | .vext u _ _ _ => some u.slot
  | .vperm u _ _ _ _ => some u.slot
  | .vrot u _ _ _ _ => some u.slot
  | .vpart u _ _ _ _ _ _ _ => some u.slot
  | .vld u _ _ _ _ _ => some u.slot
  | .vst u _ _ _ _ => some u.slot
  | .vgath u _ _ _ _ _ => some u.slot
  | .vscat u _ _ _ _ => some u.slot
  | .vlut u _ _ _ _ => some u.slot
  | .vmulhi _ _ _ _ => some .va
  | .vdot4 _ _ _ _ => some .va
  | .vamax _ _ _ _ => some .va
  | .vexp2 _ _ _ => some .vb
  | .vlog2 _ _ _ => some .vb
  | .vrcp _ _ _ => some .vb
  | .vrsqrt _ _ _ => some .vb
  | .vsqrt _ _ _ => some .vb
  | .vtanh _ _ _ => some .vb
  | .verf _ _ _ => some .vb
  | .vsigm _ _ _ => some .vb
  | .vdiv _ _ _ _ => some .vb
  | .vfloor _ _ _ => some .vb
  | .mma _ _ _ _ _ _ => some .mx
  | .maccClr _ _ _ => some .mx
  | .maccLd _ _ _ => some .mx
  | .maccSt _ _ _ => some .mx
  | .mcancel _ => some .mx
  | .cpFill _ _ _ _ _ => some .xc
  | .cpDrain _ _ _ _ _ => some .xc
  | .cpGath _ _ _ _ => some .xc
  | .cpScat _ _ _ _ => some .xc
  | .cpBcst _ _ _ _ => some .xc
  | .cpRedFadd _ _ _ _ => some .xc
  | .cpRedBf2Add _ _ _ _ => some .xc
  | .cpRedIntAdd _ _ _ _ => some .xc
  | .cpRedSmax _ _ _ _ => some .xc
  | .cpRedUmax _ _ _ _ => some .xc
  | .cpSelr _ _ _ _ => some .xc
  | .cpSelc _ _ _ _ => some .xc
  | .cpRmaPut _ _ _ _ => some .xc
  | .cpRmaGet _ _ _ _ => some .xc
  | .cpRamo _ _ _ _ => some .xc
  | .cpGdrain _ _ _ _ => some .xc
  | .cpPmtGrant _ _ _ => some .xc
  | .cpPmtTake _ _ _ => some .xc
  | .cpCancel _ => some .xc
  | .cpCancelAll => some .xc
  | .whFetchPred _ => some .xc
  | .whFetchDem _ => some .xc
  | .whDrop _ => some .xc
  | .whPin _ => some .xc
  | .whUnpin _ => some .xc
  | .whQry _ => some .xc
  | .stg _ _ => some .cf
  | .stgLo _ _ => some .cf
  | .stgHi _ _ => some .cf
  | .ttDef _ _ _ => some .cf
  | .ttFree _ => some .cf
  | .ttBind _ _ => some .cf
  | .ttUnbind _ => some .cf
  | .ttMark _ _ => some .cf
  | .ttMarkWait _ _ => some .cf
  | .ttMarkNofold _ => some .cf
  | .ttRd _ _ _ => some .cf
  | .fmtSet _ _ _ _ _ => some .cf
  | .vtSet _ => some .cf
  | .vwinSet _ _ => some .cf
  | .vactSet _ => some .cf
  | .fpcSet _ _ _ _ _ _ _ => some .cf
  | .fpcSetC _ _ _ _ => some .cf
  | .fpcSetF _ => some .cf
  | .lendMx _ => some .cf
  | .lendVec _ => some .cf
  | .phase _ _ => some .cf
  | .amaxClr => some .cf
  | .vlutLd _ _ _ => some .cf
  | .kmov _ _ => some .cf
  | .kderive _ _ _ => some .cf
  | .krestrict _ _ _ => some .cf
  | .kgetObj _ _ => some .cf
  | .kgetBase _ _ => some .cf
  | .kgetLen _ _ => some .cf
  | .kgetRgt _ _ => some .cf
  | .kcheck _ _ _ _ => some .cf
  | .kclr _ => some .cf
  | .kst _ _ _ => some .cf
  | .kld _ _ _ => some .cf
  | .kmint _ _ => some .cf
  | .xlatSync => some .cf
  | .pgReform _ _ _ => some .cf
  | .hresetWrite => none
  | .foldloWrite => none
  | .foldhiWrite => none
  | .spaceDescriptorWrite => none
  | .localSpaceClearEnd => none
  | .schcfgWrite => none
  | .bundleCheck => none
  | .budgetTrap => none
  | .trapDelivery => none
  | .mxCommandStart => none
  | .mmaRowFinal => none
  | .mxCommandComplete => none
  | .copySourceRead => none
  | .byteLanding => none
  | .copyCommandComplete => none
  | .atomicTile => none
  | .groupDrainPerform => none
  | .groupDrainTimeout => none
  | .spawnSlotReserve => none
  | .porchSpill => none
  | .put => none
  | .get => none
  | .getResponse => none
  | .fadd => none
  | .tail => none
  | .permit => none
  | .ack => none
  | .nak => none
  | .messageResend => none
  | .connectionFail => none
  | .frameReceive => none
  | .portLinkDown => none
  | .flitCrcReplay => none
  | .linkRetrain => none
  | .permitLeaseExpiry => none
  | .droverRequestSend => none
  | .handleFetchComplete => none
  | .handleFetchFail => none
  | .handleEvictComplete => none
  | .pastureNonempty => none
  | .penMap => none
  | .penRemap => none
  | .penClaim => none
  | .pickup => none
  | .recordReturn => none
  | .wakeWithoutCause => none
  | .pinfoldWake => none
  | .sectorFill => none
  | .l2Writeback => none
  | .writeQueueDrain => none
  | .phaseShrinkComplete => none
  | .phaseGrowComplete => none
  | .uncorrectableError => none
  | .sramScrub => none
  | .hbmScrub => none
  | .coreSelfTest => none
  | .cellarMaintenance => none
  | .arbiterInterval => none
  | .junctionOvertemp => none
  | .recorderAppend => none
  | .hubWatchdog => none
  | .coldReset => none
  | .warmReset => none
  | .attestationRequest => none
  | .recorderFreezeRelease => none
  | .variableLatencyResult => none
  | .portLinkUp => none
  | .connectionReestablished => none
  | .programmingSliceEnd => none
  | .recoveryExchange => none
  | .hardwarePrefetch => none

/-- A word of an operation code and the value of its 18 lower bits. -/
def word (op6 body : Nat) : BitVec 24 := BitVec.ofNat 24 (op6 * 262144 + body)

/-- The slot word of an operation, from the encoding tables of its entry (Tables 3.7 to 3.18); 0 for a step without a word. -/
def Instr.encode : Instr → BitVec 24
  | .nop _ => word 0x0 (0)
  | .br disp => word 0x1 (disp.toNat)
  | .jmp s => word 0x2 (s.toNat)
  | .call disp => word 0x3 (disp.toNat)
  | .callr s => word 0x4 (s.toNat)
  | .ret => word 0x5 (0)
  | .loop l c e => word 0x6 (b2n l * 131072 + c.toNat * 2048 + e.toNat)
  | .bktJmp c xs _ _ => word 0x7 (c.toNat * 4096 + xs.toNat * 512)
  | .park xs _ => word 0x8 (xs.toNat * 32768)
  | .exit => word 0x9 (0)
  | .spawn k o p => word 0xa (k.toNat * 32768 + o.toNat * 64 + p.toNat)
  | .waitw k xs o _ _ _ _ => word 0xb (k.toNat * 32768 + xs.toNat * 4096 + o.toNat * 64)
  | .wakew k xs o _ _ => word 0xc (k.toNat * 32768 + xs.toNat * 4096 + o.toNat * 64)
  | .foldArrive fid => word 0xd (fid.toNat)
  | .foldWait fid => word 0xe (fid.toNat)
  | .foldSync fid => word 0xf (fid.toNat)
  | .foldBytes c fid => word 0x10 (c.toNat * 4096 + fid.toNat)
  | .whWait s => word 0x11 (s.toNat)
  | .probe k w o l => word 0x12 (k.toNat * 32768 + b2n w * 16384 + o.toNat * 64 + l.toNat)
  | .segMark => word 0x13 (0)
  | .fence scope xs _ => word 0x14 (scope.toNat * 32768 + xs.toNat * 4096)
  | .fenceX scope paths => word 0x15 (scope.toNat * 32768 + paths.toNat)
  | .trap a code => word 0x16 (a.toNat * 4096 + code.toNat)
  | .brk code => word 0x17 (code.toNat)
  | .rfe => word 0x18 (0)
  | .ctxResumeRun a b => word 0x19 (a.toNat * 64 + b.toNat)
  | .ctxResumePark a b => word 0x19 (4096 + a.toNat * 64 + b.toNat)
  | .ctxResumePre a b => word 0x19 (8192 + a.toNat * 64 + b.toNat)
  | .ctxKill a => word 0x1a (a.toNat * 64)
  | .ctxKillRun a => word 0x1a (4096 + a.toNat * 64)
  | .halt => word 0x1b (0)
  | .add _ x d a b => word 0x1 (b2n x * 131072 + d.toNat * 4096 + a.toNat * 64 + b.toNat)
  | .sub _ x d a b => word 0x2 (b2n x * 131072 + d.toNat * 4096 + a.toNat * 64 + b.toNat)
  | .mul _ x d a b => word 0x3 (b2n x * 131072 + d.toNat * 4096 + a.toNat * 64 + b.toNat)
  | .mulh _ x d a b => word 0x4 (b2n x * 131072 + d.toNat * 4096 + a.toNat * 64 + b.toNat)
  | .mulhu _ x d a b => word 0x5 (b2n x * 131072 + d.toNat * 4096 + a.toNat * 64 + b.toNat)
  | .div _ x d a b => word 0x6 (b2n x * 131072 + d.toNat * 4096 + a.toNat * 64 + b.toNat)
  | .divu _ x d a b => word 0x7 (b2n x * 131072 + d.toNat * 4096 + a.toNat * 64 + b.toNat)
  | .rem _ x d a b => word 0x8 (b2n x * 131072 + d.toNat * 4096 + a.toNat * 64 + b.toNat)
  | .remu _ x d a b => word 0x9 (b2n x * 131072 + d.toNat * 4096 + a.toNat * 64 + b.toNat)
  | .and _ x d a b => word 0xa (b2n x * 131072 + d.toNat * 4096 + a.toNat * 64 + b.toNat)
  | .or _ x d a b => word 0xb (b2n x * 131072 + d.toNat * 4096 + a.toNat * 64 + b.toNat)
  | .xor _ x d a b => word 0xc (b2n x * 131072 + d.toNat * 4096 + a.toNat * 64 + b.toNat)
  | .andn _ x d a b => word 0xd (b2n x * 131072 + d.toNat * 4096 + a.toNat * 64 + b.toNat)
  | .orn _ x d a b => word 0xe (b2n x * 131072 + d.toNat * 4096 + a.toNat * 64 + b.toNat)
  | .xnor _ x d a b => word 0xf (b2n x * 131072 + d.toNat * 4096 + a.toNat * 64 + b.toNat)
  | .shl _ x d a b => word 0x10 (b2n x * 131072 + d.toNat * 4096 + a.toNat * 64 + b.toNat)
  | .shr _ x d a b => word 0x11 (b2n x * 131072 + d.toNat * 4096 + a.toNat * 64 + b.toNat)
  | .sar _ x d a b => word 0x12 (b2n x * 131072 + d.toNat * 4096 + a.toNat * 64 + b.toNat)
  | .rotr _ x d a b => word 0x13 (b2n x * 131072 + d.toNat * 4096 + a.toNat * 64 + b.toNat)
  | .min _ x d a b => word 0x14 (b2n x * 131072 + d.toNat * 4096 + a.toNat * 64 + b.toNat)
  | .max _ x d a b => word 0x15 (b2n x * 131072 + d.toNat * 4096 + a.toNat * 64 + b.toNat)
  | .minu _ x d a b => word 0x16 (b2n x * 131072 + d.toNat * 4096 + a.toNat * 64 + b.toNat)
  | .maxu _ x d a b => word 0x17 (b2n x * 131072 + d.toNat * 4096 + a.toNat * 64 + b.toNat)
  | .clz _ x d a => word 0x18 (b2n x * 131072 + d.toNat * 4096 + a.toNat * 64)
  | .ctz _ x d a => word 0x19 (b2n x * 131072 + d.toNat * 4096 + a.toNat * 64)
  | .popc _ x d a => word 0x1a (b2n x * 131072 + d.toNat * 4096 + a.toNat * 64)
  | .bswap _ x d a => word 0x1b (b2n x * 131072 + d.toNat * 4096 + a.toNat * 64)
  | .bext _ x d a b => word 0x1c (b2n x * 131072 + d.toNat * 4096 + a.toNat * 64 + b.toNat)
  | .bins _ d a b => word 0x1d (d.toNat * 4096 + a.toNat * 64 + b.toNat)
  | .addS2 _ x d a b => word 0x1e (b2n x * 131072 + d.toNat * 4096 + a.toNat * 64 + b.toNat)
  | .addS3 _ x d a b => word 0x1f (b2n x * 131072 + d.toNat * 4096 + a.toNat * 64 + b.toNat)
  | .sext _ x d a b => word 0x20 (b2n x * 131072 + d.toNat * 4096 + a.toNat * 64 + b.toNat)
  | .zext _ x d a b => word 0x21 (b2n x * 131072 + d.toNat * 4096 + a.toNat * 64 + b.toNat)
  | .mov _ x d a => word 0x22 (b2n x * 131072 + d.toNat * 4096 + a.toNat * 64)
  | .litHi _ x d a b => word 0x23 (b2n x * 131072 + d.toNat * 4096 + a.toNat * 64 + b.toNat)
  | .cmpEq _ p a b => word 0x24 (p.toNat * 4096 + a.toNat * 64 + b.toNat)
  | .cmpNe _ p a b => word 0x25 (p.toNat * 4096 + a.toNat * 64 + b.toNat)
  | .cmpLt _ p a b => word 0x26 (p.toNat * 4096 + a.toNat * 64 + b.toNat)
  | .cmpLtu _ p a b => word 0x27 (p.toNat * 4096 + a.toNat * 64 + b.toNat)
  | .cmpLe _ p a b => word 0x28 (p.toNat * 4096 + a.toNat * 64 + b.toNat)
  | .cmpLeu _ p a b => word 0x29 (p.toNat * 4096 + a.toNat * 64 + b.toNat)
  | .pand _ p a b => word 0x2a (p.toNat * 4096 + a.toNat * 64 + b.toNat)
  | .por _ p a b => word 0x2b (p.toNat * 4096 + a.toNat * 64 + b.toNat)
  | .pxor _ p a b => word 0x2c (p.toNat * 4096 + a.toNat * 64 + b.toNat)
  | .pnot _ p a => word 0x2d (p.toNat * 4096 + a.toNat * 64)
  | .tstBit _ p a b => word 0x2e (p.toNat * 4096 + a.toNat * 64 + b.toNat)
  | .faddS x d a b => word 0x30 (b2n x * 131072 + d.toNat * 4096 + a.toNat * 64 + b.toNat)
  | .fsubS x d a b => word 0x31 (b2n x * 131072 + d.toNat * 4096 + a.toNat * 64 + b.toNat)
  | .fmulS x d a b => word 0x32 (b2n x * 131072 + d.toNat * 4096 + a.toNat * 64 + b.toNat)
  | .ffmaS x d a b => word 0x33 (b2n x * 131072 + d.toNat * 4096 + a.toNat * 64 + b.toNat)
  | .fminS x d a b => word 0x34 (b2n x * 131072 + d.toNat * 4096 + a.toNat * 64 + b.toNat)
  | .fmaxS x d a b => word 0x35 (b2n x * 131072 + d.toNat * 4096 + a.toNat * 64 + b.toNat)
  | .fcmpLtS p a b => word 0x36 (p.toNat * 4096 + a.toNat * 64 + b.toNat)
  | .fcmpEqS p a b => word 0x37 (p.toNat * 4096 + a.toNat * 64 + b.toNat)
  | .fcvtSI x d a => word 0x38 (b2n x * 131072 + d.toNat * 4096 + a.toNat * 64)
  | .fcvtSIU x d a => word 0x38 (b2n x * 131072 + d.toNat * 4096 + a.toNat * 64 + 1)
  | .fcvtIS x d a => word 0x39 (b2n x * 131072 + d.toNat * 4096 + a.toNat * 64)
  | .fcvtISU x d a => word 0x39 (b2n x * 131072 + d.toNat * 4096 + a.toNat * 64 + 1)
  | .fcvtISW x d a => word 0x39 (b2n x * 131072 + d.toNat * 4096 + a.toNat * 64 + 2)
  | .sysRd x d a => word 0x3a (b2n x * 131072 + d.toNat * 4096 + a.toNat * 64)
  | .sysWr a b => word 0x3b (a.toNat * 64 + b.toNat)
  | .budRd x d => word 0x3c (b2n x * 131072 + d.toNat * 4096)
  | .timeRd x d => word 0x3d (b2n x * 131072 + d.toNat * 4096)
  | .ldU8 r k o c => word 0x30 (r.toNat * 8192 + k.toNat * 1024 + o.toNat * 16 + c.toNat)
  | .ldS8 r k o c => word 0x31 (r.toNat * 8192 + k.toNat * 1024 + o.toNat * 16 + c.toNat)
  | .ldU16 r k o c => word 0x32 (r.toNat * 8192 + k.toNat * 1024 + o.toNat * 16 + c.toNat)
  | .ldS16 r k o c => word 0x33 (r.toNat * 8192 + k.toNat * 1024 + o.toNat * 16 + c.toNat)
  | .ldU32 r k o c => word 0x34 (r.toNat * 8192 + k.toNat * 1024 + o.toNat * 16 + c.toNat)
  | .ldS32 r k o c => word 0x35 (r.toNat * 8192 + k.toNat * 1024 + o.toNat * 16 + c.toNat)
  | .ld64 r k o c => word 0x36 (r.toNat * 8192 + k.toNat * 1024 + o.toNat * 16 + c.toNat)
  | .ldAcq r k o scope => word 0x37 (r.toNat * 8192 + k.toNat * 1024 + o.toNat * 16 + scope.toNat * 2)
  | .st8 r k o c => word 0x38 (r.toNat * 8192 + k.toNat * 1024 + o.toNat * 16 + c.toNat)
  | .st16 r k o c => word 0x39 (r.toNat * 8192 + k.toNat * 1024 + o.toNat * 16 + c.toNat)
  | .st32 r k o c => word 0x3a (r.toNat * 8192 + k.toNat * 1024 + o.toNat * 16 + c.toNat)
  | .st64 r k o c => word 0x3b (r.toNat * 8192 + k.toNat * 1024 + o.toNat * 16 + c.toNat)
  | .stRel r k o scope => word 0x3c (r.toNat * 8192 + k.toNat * 1024 + o.toNat * 16 + scope.toNat * 2)
  | .ldk kd o c => word 0x3d (kd.toNat * 8192 + o.toNat * 16 + c.toNat)
  | .amoAdd r k xs _ _ _ _ => word 0x3e (r.toNat * 8192 + k.toNat * 1024 + 768 + xs.toNat * 16)
  | .amoInc r k xs _ _ _ => word 0x3e (r.toNat * 8192 + k.toNat * 1024 + 768 + xs.toNat * 16)
  | .amoAnd r k xs _ _ _ _ => word 0x3e (r.toNat * 8192 + k.toNat * 1024 + 768 + xs.toNat * 16)
  | .amoOr r k xs _ _ _ _ => word 0x3e (r.toNat * 8192 + k.toNat * 1024 + 768 + xs.toNat * 16)
  | .amoXor r k xs _ _ _ _ => word 0x3e (r.toNat * 8192 + k.toNat * 1024 + 768 + xs.toNat * 16)
  | .amoSmin r k xs _ _ _ _ => word 0x3e (r.toNat * 8192 + k.toNat * 1024 + 768 + xs.toNat * 16)
  | .amoSmax r k xs _ _ _ _ => word 0x3e (r.toNat * 8192 + k.toNat * 1024 + 768 + xs.toNat * 16)
  | .amoUmin r k xs _ _ _ _ => word 0x3e (r.toNat * 8192 + k.toNat * 1024 + 768 + xs.toNat * 16)
  | .amoUmax r k xs _ _ _ _ => word 0x3e (r.toNat * 8192 + k.toNat * 1024 + 768 + xs.toNat * 16)
  | .amoSwap r k xs _ _ _ _ => word 0x3e (r.toNat * 8192 + k.toNat * 1024 + 768 + xs.toNat * 16)
  | .amoCas r k xs _ _ _ _ _ => word 0x3e (r.toNat * 8192 + k.toNat * 1024 + 768 + xs.toNat * 16)
  | .amoFadd r k xs _ _ _ _ => word 0x3e (r.toNat * 8192 + k.toNat * 1024 + 768 + xs.toNat * 16)
  | .redAdd k xs _ _ _ _ => word 0x3f (k.toNat * 1024 + 768 + xs.toNat * 16)
  | .redInc k xs _ _ _ => word 0x3f (k.toNat * 1024 + 768 + xs.toNat * 16)
  | .redAnd k xs _ _ _ _ => word 0x3f (k.toNat * 1024 + 768 + xs.toNat * 16)
  | .redOr k xs _ _ _ _ => word 0x3f (k.toNat * 1024 + 768 + xs.toNat * 16)
  | .redXor k xs _ _ _ _ => word 0x3f (k.toNat * 1024 + 768 + xs.toNat * 16)
  | .redSmin k xs _ _ _ _ => word 0x3f (k.toNat * 1024 + 768 + xs.toNat * 16)
  | .redSmax k xs _ _ _ _ => word 0x3f (k.toNat * 1024 + 768 + xs.toNat * 16)
  | .redUmin k xs _ _ _ _ => word 0x3f (k.toNat * 1024 + 768 + xs.toNat * 16)
  | .redUmax k xs _ _ _ _ => word 0x3f (k.toNat * 1024 + 768 + xs.toNat * 16)
  | .redFadd k xs _ _ _ _ => word 0x3f (k.toNat * 1024 + 768 + xs.toNat * 16)
  | .vadd _ x d a b => word 0x1 (b2n x * 131072 + d.toNat * 4096 + a.toNat * 64 + b.toNat)
  | .vsub _ x d a b => word 0x2 (b2n x * 131072 + d.toNat * 4096 + a.toNat * 64 + b.toNat)
  | .vmul _ x d a b => word 0x3 (b2n x * 131072 + d.toNat * 4096 + a.toNat * 64 + b.toNat)
  | .vfma _ x d a b => word 0x4 (b2n x * 131072 + d.toNat * 4096 + a.toNat * 64 + b.toNat)
  | .vfms _ x d a b => word 0x5 (b2n x * 131072 + d.toNat * 4096 + a.toNat * 64 + b.toNat)
  | .vfnma _ x d a b => word 0x6 (b2n x * 131072 + d.toNat * 4096 + a.toNat * 64 + b.toNat)
  | .vmin _ x d a b => word 0x7 (b2n x * 131072 + d.toNat * 4096 + a.toNat * 64 + b.toNat)
  | .vmax _ x d a b => word 0x8 (b2n x * 131072 + d.toNat * 4096 + a.toNat * 64 + b.toNat)
  | .vabs _ x d a => word 0x9 (b2n x * 131072 + d.toNat * 4096 + a.toNat * 64)
  | .vneg _ x d a => word 0xa (b2n x * 131072 + d.toNat * 4096 + a.toNat * 64)
  | .vmov _ x d a => word 0xb (b2n x * 131072 + d.toNat * 4096 + a.toNat * 64)
  | .vand _ x d a b => word 0xc (b2n x * 131072 + d.toNat * 4096 + a.toNat * 64 + b.toNat)
  | .vor _ x d a b => word 0xd (b2n x * 131072 + d.toNat * 4096 + a.toNat * 64 + b.toNat)
  | .vxor _ x d a b => word 0xe (b2n x * 131072 + d.toNat * 4096 + a.toNat * 64 + b.toNat)
  | .vnot _ x d a => word 0xf (b2n x * 131072 + d.toNat * 4096 + a.toNat * 64)
  | .vshl _ x d a b => word 0x10 (b2n x * 131072 + d.toNat * 4096 + a.toNat * 64 + b.toNat)
  | .vshr _ x d a b => word 0x11 (b2n x * 131072 + d.toNat * 4096 + a.toNat * 64 + b.toNat)
  | .vsar _ x d a b => word 0x12 (b2n x * 131072 + d.toNat * 4096 + a.toNat * 64 + b.toNat)
  | .vcmpEq _ m a b => word 0x13 (m.toNat * 4096 + a.toNat * 64 + b.toNat)
  | .vcmpNe _ m a b => word 0x14 (m.toNat * 4096 + a.toNat * 64 + b.toNat)
  | .vcmpLt _ m a b => word 0x15 (m.toNat * 4096 + a.toNat * 64 + b.toNat)
  | .vcmpLe _ m a b => word 0x16 (m.toNat * 4096 + a.toNat * 64 + b.toNat)
  | .vsel _ x d a b => word 0x17 (b2n x * 131072 + d.toNat * 4096 + a.toNat * 64 + b.toNat)
  | .vcvtTo _ x d a t q => word 0x18 (b2n x * 131072 + d.toNat * 4096 + a.toNat * 64 + t.toNat * 8 + q.toNat)
  | .vcvtFrom _ x d a t q => word 0x18 (b2n x * 131072 + d.toNat * 4096 + a.toNat * 64 + t.toNat * 8 + 4 + q.toNat)
  | .vcvtSc _ x d a s g q => word 0x19 (b2n x * 131072 + d.toNat * 4096 + a.toNat * 64 + s.toNat * 8 + b2n g * 4 + q.toNat)
  | .vredAdd _ x d a b => word 0x1a (b2n x * 131072 + d.toNat * 4096 + a.toNat * 64 + b.toNat)
  | .vredMax _ x d a b => word 0x1b (b2n x * 131072 + d.toNat * 4096 + a.toNat * 64 + b.toNat)
  | .vredMin _ x d a b => word 0x1c (b2n x * 131072 + d.toNat * 4096 + a.toNat * 64 + b.toNat)
  | .vscanAdd _ x d a b => word 0x1d (b2n x * 131072 + d.toNat * 4096 + a.toNat * 64 + b.toNat)
  | .vbcast _ x d a b => word 0x1e (b2n x * 131072 + d.toNat * 4096 + a.toNat * 64 + b.toNat)
  | .vext _ d a b => word 0x1f (d.toNat * 4096 + a.toNat * 64 + b.toNat)
  | .vperm _ x d a b => word 0x20 (b2n x * 131072 + d.toNat * 4096 + a.toNat * 64 + b.toNat)
  | .vrot _ x d a b => word 0x21 (b2n x * 131072 + d.toNat * 4096 + a.toNat * 64 + b.toNat)
  | .vpart _ x d a xs _ _ _ => word 0x22 (b2n x * 131072 + d.toNat * 4096 + a.toNat * 64 + 48 + xs.toNat)
  | .vld _ x v o k c => word 0x23 (b2n x * 131072 + v.toNat * 4096 + o.toNat * 64 + k.toNat * 8 + c.toNat)
  | .vst _ v o k c => word 0x24 (v.toNat * 4096 + o.toNat * 64 + k.toNat * 8 + c.toNat)
  | .vgath _ x v i k c => word 0x25 (b2n x * 131072 + v.toNat * 4096 + i.toNat * 64 + k.toNat * 8 + c.toNat)
  | .vscat _ v i k c => word 0x26 (v.toNat * 4096 + i.toNat * 64 + k.toNat * 8 + c.toNat)
  | .vlut _ x d a q => word 0x27 (b2n x * 131072 + d.toNat * 4096 + a.toNat * 64 + q.toNat)
  | .vmulhi x d a b => word 0x30 (b2n x * 131072 + d.toNat * 4096 + a.toNat * 64 + b.toNat)
  | .vdot4 x d a b => word 0x31 (b2n x * 131072 + d.toNat * 4096 + a.toNat * 64 + b.toNat)
  | .vamax x d a b => word 0x32 (b2n x * 131072 + d.toNat * 4096 + a.toNat * 64 + b.toNat)
  | .vexp2 x d a => word 0x30 (b2n x * 131072 + d.toNat * 4096 + a.toNat * 64)
  | .vlog2 x d a => word 0x31 (b2n x * 131072 + d.toNat * 4096 + a.toNat * 64)
  | .vrcp x d a => word 0x32 (b2n x * 131072 + d.toNat * 4096 + a.toNat * 64)
  | .vrsqrt x d a => word 0x33 (b2n x * 131072 + d.toNat * 4096 + a.toNat * 64)
  | .vsqrt x d a => word 0x34 (b2n x * 131072 + d.toNat * 4096 + a.toNat * 64)
  | .vtanh x d a => word 0x35 (b2n x * 131072 + d.toNat * 4096 + a.toNat * 64)
  | .verf x d a => word 0x36 (b2n x * 131072 + d.toNat * 4096 + a.toNat * 64)
  | .vsigm x d a => word 0x37 (b2n x * 131072 + d.toNat * 4096 + a.toNat * 64)
  | .vdiv x d a b => word 0x38 (b2n x * 131072 + d.toNat * 4096 + a.toNat * 64 + b.toNat)
  | .vfloor x d a => word 0x39 (b2n x * 131072 + d.toNat * 4096 + a.toNat * 64)
  | .mma a b n z tb s => word 0x1 (a.toNat * 4096 + b.toNat * 64 + b2n n * 32 + b2n z * 16 + b2n tb * 8 + b2n s * 4)
  | .maccClr n r c => word 0x2 (b2n n * 16384 + r.toNat * 128 + c.toNat)
  | .maccLd t n r => word 0x3 (t.toNat * 4096 + b2n n * 2048 + r.toNat * 16)
  | .maccSt t n r => word 0x4 (t.toNat * 4096 + b2n n * 2048 + r.toNat * 16)
  | .mcancel m => word 0x5 (m.toNat)
  | .cpFill t k xb a c => word 0x1 (t.toNat * 4096 + k.toNat * 512 + xb.toNat * 32 + b2n a * 16 + c.toNat)
  | .cpDrain t k xb a c => word 0x2 (t.toNat * 4096 + k.toNat * 512 + xb.toNat * 32 + b2n a * 16 + c.toNat)
  | .cpGath t k xb c => word 0x3 (t.toNat * 4096 + k.toNat * 512 + xb.toNat * 32 + c.toNat)
  | .cpScat t k xb c => word 0x4 (t.toNat * 4096 + k.toNat * 512 + xb.toNat * 32 + c.toNat)
  | .cpBcst t k xb c => word 0x5 (t.toNat * 4096 + k.toNat * 512 + xb.toNat * 32 + c.toNat)
  | .cpRedFadd t k xb c => word 0x6 (t.toNat * 4096 + k.toNat * 512 + xb.toNat * 32 + c.toNat)
  | .cpRedBf2Add t k xb c => word 0x6 (t.toNat * 4096 + k.toNat * 512 + xb.toNat * 32 + c.toNat)
  | .cpRedIntAdd t k xb c => word 0x6 (t.toNat * 4096 + k.toNat * 512 + xb.toNat * 32 + c.toNat)
  | .cpRedSmax t k xb c => word 0x6 (t.toNat * 4096 + k.toNat * 512 + xb.toNat * 32 + c.toNat)
  | .cpRedUmax t k xb c => word 0x6 (t.toNat * 4096 + k.toNat * 512 + xb.toNat * 32 + c.toNat)
  | .cpSelr t k xb c => word 0x7 (t.toNat * 4096 + k.toNat * 512 + xb.toNat * 32 + c.toNat)
  | .cpSelc t k xb c => word 0x8 (t.toNat * 4096 + k.toNat * 512 + xb.toNat * 32 + c.toNat)
  | .cpRmaPut t k xb c => word 0x9 (t.toNat * 4096 + k.toNat * 512 + xb.toNat * 32 + c.toNat)
  | .cpRmaGet t k xb c => word 0x9 (t.toNat * 4096 + k.toNat * 512 + xb.toNat * 32 + c.toNat)
  | .cpRamo t k xb c => word 0xa (t.toNat * 4096 + k.toNat * 512 + xb.toNat * 32 + c.toNat)
  | .cpGdrain t k xb c => word 0xb (t.toNat * 4096 + k.toNat * 512 + xb.toNat * 32 + 16 + c.toNat)
  | .cpPmtGrant k xb c => word 0xc (k.toNat * 512 + xb.toNat * 32 + 16 + c.toNat)
  | .cpPmtTake k xb c => word 0xc (k.toNat * 512 + xb.toNat * 32 + c.toNat)
  | .cpCancel t => word 0xd (t.toNat * 4096)
  | .cpCancelAll => word 0xd (2048)
  | .whFetchPred s => word 0xe (s.toNat)
  | .whFetchDem s => word 0xe (64 + s.toNat)
  | .whDrop s => word 0xf (s.toNat)
  | .whPin s => word 0x10 (s.toNat)
  | .whUnpin s => word 0x11 (s.toNat)
  | .whQry s => word 0x12 (s.toNat)
  | .stg r s => word 0x1 (r.toNat * 8192 + s.toNat)
  | .stgLo r s => word 0x1 (r.toNat * 8192 + 2048 + s.toNat)
  | .stgHi r s => word 0x1 (r.toNat * 8192 + 4096 + s.toNat)
  | .ttDef t ts k => word 0x2 (t.toNat * 4096 + ts.toNat * 1024 + k.toNat * 128)
  | .ttFree t => word 0x3 (t.toNat * 4096)
  | .ttBind t ts => word 0x4 (t.toNat * 4096 + ts.toNat * 1024)
  | .ttUnbind t => word 0x4 (t.toNat * 4096 + 512)
  | .ttMark t fid => word 0x5 (t.toNat * 4096 + 2048 + fid.toNat)
  | .ttMarkWait t fid => word 0x5 (t.toNat * 4096 + 3072 + fid.toNat)
  | .ttMarkNofold t => word 0x5 (t.toNat * 4096)
  | .ttRd t h d => word 0x6 (t.toNat * 4096 + b2n h * 2048 + d.toNat * 64)
  | .fmtSet scm ofmt accf bf af => word 0x7 (scm.toNat * 65536 + ofmt.toNat * 4096 + accf.toNat * 256 + bf.toNat * 16 + af.toNat)
  | .vtSet t => word 0x8 (t.toNat)
  | .vwinSet b q => word 0x9 (b2n b * 4 + q.toNat)
  | .vactSet m => word 0xa (m.toNat)
  | .fpcSet wf wc fl so ws st rm => word 0xb (b2n wf * 131072 + b2n wc * 65536 + fl.toNat * 2048 + b2n so * 512 + b2n ws * 256 + b2n st * 128 + rm.toNat * 32)
  | .fpcSetC so ws st rm => word 0xb (65536 + b2n so * 512 + b2n ws * 256 + b2n st * 128 + rm.toNat * 32)
  | .fpcSetF fl => word 0xb (131072 + fl.toNat * 2048)
  | .lendMx b => word 0xc (b2n b * 2)
  | .lendVec b => word 0xc (b2n b * 2 + 1)
  | .phase k t => word 0xd (k.toNat * 32768 + t.toNat)
  | .amaxClr => word 0xe (0)
  | .vlutLd k c blk => word 0xf (k.toNat * 32768 + c.toNat * 2048 + blk.toNat)
  | .kmov d s => word 0x10 (d.toNat * 16384 + s.toNat * 1024)
  | .kderive d s xb => word 0x11 (d.toNat * 16384 + s.toNat * 1024 + xb.toNat * 64)
  | .krestrict d s keep => word 0x12 (d.toNat * 16384 + s.toNat * 1024 + keep.toNat)
  | .kgetObj d s => word 0x13 (d.toNat * 8192 + s.toNat * 512)
  | .kgetBase d s => word 0x14 (d.toNat * 8192 + s.toNat * 512)
  | .kgetLen d s => word 0x15 (d.toNat * 8192 + s.toNat * 512)
  | .kgetRgt d s => word 0x16 (d.toNat * 8192 + s.toNat * 512)
  | .kcheck p s xb need => word 0x17 (p.toNat * 65536 + s.toNat * 4096 + xb.toNat * 256 + need.toNat)
  | .kclr d => word 0x18 (d.toNat * 16384)
  | .kst k s o => word 0x19 (k.toNat * 32768 + s.toNat * 2048 + o.toNat)
  | .kld d k o => word 0x1a (d.toNat * 16384 + k.toNat * 2048 + o.toNat)
  | .kmint d xb => word 0x1b (d.toNat * 16384 + xb.toNat * 1024)
  | .xlatSync => word 0x1c (0)
  | .pgReform k xb d => word 0x1d (k.toNat * 16384 + xb.toNat * 1024 + d.toNat * 32)
  | .hresetWrite => 0
  | .foldloWrite => 0
  | .foldhiWrite => 0
  | .spaceDescriptorWrite => 0
  | .localSpaceClearEnd => 0
  | .schcfgWrite => 0
  | .bundleCheck => 0
  | .budgetTrap => 0
  | .trapDelivery => 0
  | .mxCommandStart => 0
  | .mmaRowFinal => 0
  | .mxCommandComplete => 0
  | .copySourceRead => 0
  | .byteLanding => 0
  | .copyCommandComplete => 0
  | .atomicTile => 0
  | .groupDrainPerform => 0
  | .groupDrainTimeout => 0
  | .spawnSlotReserve => 0
  | .porchSpill => 0
  | .put => 0
  | .get => 0
  | .getResponse => 0
  | .fadd => 0
  | .tail => 0
  | .permit => 0
  | .ack => 0
  | .nak => 0
  | .messageResend => 0
  | .connectionFail => 0
  | .frameReceive => 0
  | .portLinkDown => 0
  | .flitCrcReplay => 0
  | .linkRetrain => 0
  | .permitLeaseExpiry => 0
  | .droverRequestSend => 0
  | .handleFetchComplete => 0
  | .handleFetchFail => 0
  | .handleEvictComplete => 0
  | .pastureNonempty => 0
  | .penMap => 0
  | .penRemap => 0
  | .penClaim => 0
  | .pickup => 0
  | .recordReturn => 0
  | .wakeWithoutCause => 0
  | .pinfoldWake => 0
  | .sectorFill => 0
  | .l2Writeback => 0
  | .writeQueueDrain => 0
  | .phaseShrinkComplete => 0
  | .phaseGrowComplete => 0
  | .uncorrectableError => 0
  | .sramScrub => 0
  | .hbmScrub => 0
  | .coreSelfTest => 0
  | .cellarMaintenance => 0
  | .arbiterInterval => 0
  | .junctionOvertemp => 0
  | .recorderAppend => 0
  | .hubWatchdog => 0
  | .coldReset => 0
  | .warmReset => 0
  | .attestationRequest => 0
  | .recorderFreezeRelease => 0
  | .variableLatencyResult => 0
  | .portLinkUp => 0
  | .connectionReestablished => 0
  | .programmingSliceEnd => 0
  | .recoveryExchange => 0
  | .hardwarePrefetch => 0

/-- The extension word of an operation (R37, Table 3.9); 0 where it has none. -/
def Instr.ext : Instr → BitVec 24
  | .nop _ => 0
  | .br _ => 0
  | .jmp _ => 0
  | .call _ => 0
  | .callr _ => 0
  | .ret => 0
  | .loop _ _ _ => 0
  | .bktJmp _ _ tdisp np => BitVec.ofNat 24 (tdisp.toNat * 16 + np.toNat)
  | .park _ mask => BitVec.ofNat 24 (mask.toNat)
  | .exit => 0
  | .spawn _ _ _ => 0
  | .waitw _ _ _ cond w64 scope v => BitVec.ofNat 24 (cond.toNat * 4194304 + b2n w64 * 2097152 + scope.toNat * 262144 + v.toNat * 4096)
  | .wakew _ _ _ scope n => BitVec.ofNat 24 (scope.toNat * 2097152 + n.toNat)
  | .foldArrive _ => 0
  | .foldWait _ => 0
  | .foldSync _ => 0
  | .foldBytes _ _ => 0
  | .whWait _ => 0
  | .probe _ _ _ _ => 0
  | .segMark => 0
  | .fence _ _ cmask => BitVec.ofNat 24 (cmask.toNat)
  | .fenceX _ _ => 0
  | .trap _ _ => 0
  | .brk _ => 0
  | .rfe => 0
  | .ctxResumeRun _ _ => 0
  | .ctxResumePark _ _ => 0
  | .ctxResumePre _ _ => 0
  | .ctxKill _ => 0
  | .ctxKillRun _ => 0
  | .halt => 0
  | .add _ _ _ _ _ => 0
  | .sub _ _ _ _ _ => 0
  | .mul _ _ _ _ _ => 0
  | .mulh _ _ _ _ _ => 0
  | .mulhu _ _ _ _ _ => 0
  | .div _ _ _ _ _ => 0
  | .divu _ _ _ _ _ => 0
  | .rem _ _ _ _ _ => 0
  | .remu _ _ _ _ _ => 0
  | .and _ _ _ _ _ => 0
  | .or _ _ _ _ _ => 0
  | .xor _ _ _ _ _ => 0
  | .andn _ _ _ _ _ => 0
  | .orn _ _ _ _ _ => 0
  | .xnor _ _ _ _ _ => 0
  | .shl _ _ _ _ _ => 0
  | .shr _ _ _ _ _ => 0
  | .sar _ _ _ _ _ => 0
  | .rotr _ _ _ _ _ => 0
  | .min _ _ _ _ _ => 0
  | .max _ _ _ _ _ => 0
  | .minu _ _ _ _ _ => 0
  | .maxu _ _ _ _ _ => 0
  | .clz _ _ _ _ => 0
  | .ctz _ _ _ _ => 0
  | .popc _ _ _ _ => 0
  | .bswap _ _ _ _ => 0
  | .bext _ _ _ _ _ => 0
  | .bins _ _ _ _ => 0
  | .addS2 _ _ _ _ _ => 0
  | .addS3 _ _ _ _ _ => 0
  | .sext _ _ _ _ _ => 0
  | .zext _ _ _ _ _ => 0
  | .mov _ _ _ _ => 0
  | .litHi _ _ _ _ _ => 0
  | .cmpEq _ _ _ _ => 0
  | .cmpNe _ _ _ _ => 0
  | .cmpLt _ _ _ _ => 0
  | .cmpLtu _ _ _ _ => 0
  | .cmpLe _ _ _ _ => 0
  | .cmpLeu _ _ _ _ => 0
  | .pand _ _ _ _ => 0
  | .por _ _ _ _ => 0
  | .pxor _ _ _ _ => 0
  | .pnot _ _ _ => 0
  | .tstBit _ _ _ _ => 0
  | .faddS _ _ _ _ => 0
  | .fsubS _ _ _ _ => 0
  | .fmulS _ _ _ _ => 0
  | .ffmaS _ _ _ _ => 0
  | .fminS _ _ _ _ => 0
  | .fmaxS _ _ _ _ => 0
  | .fcmpLtS _ _ _ => 0
  | .fcmpEqS _ _ _ => 0
  | .fcvtSI _ _ _ => 0
  | .fcvtSIU _ _ _ => 0
  | .fcvtIS _ _ _ => 0
  | .fcvtISU _ _ _ => 0
  | .fcvtISW _ _ _ => 0
  | .sysRd _ _ _ => 0
  | .sysWr _ _ => 0
  | .budRd _ _ => 0
  | .timeRd _ _ => 0
  | .ldU8 _ _ _ _ => 0
  | .ldS8 _ _ _ _ => 0
  | .ldU16 _ _ _ _ => 0
  | .ldS16 _ _ _ _ => 0
  | .ldU32 _ _ _ _ => 0
  | .ldS32 _ _ _ _ => 0
  | .ld64 _ _ _ _ => 0
  | .ldAcq _ _ _ _ => 0
  | .st8 _ _ _ _ => 0
  | .st16 _ _ _ _ => 0
  | .st32 _ _ _ _ => 0
  | .st64 _ _ _ _ => 0
  | .stRel _ _ _ _ => 0
  | .ldk _ _ _ => 0
  | .amoAdd _ _ _ w scope c v => BitVec.ofNat 24 (w.toNat * 262144 + scope.toNat * 32768 + c.toNat * 2048 + v.toNat * 32)
  | .amoInc _ _ _ w scope c => BitVec.ofNat 24 (1048576 + w.toNat * 262144 + scope.toNat * 32768 + c.toNat * 2048)
  | .amoAnd _ _ _ w scope c v => BitVec.ofNat 24 (2097152 + w.toNat * 262144 + scope.toNat * 32768 + c.toNat * 2048 + v.toNat * 32)
  | .amoOr _ _ _ w scope c v => BitVec.ofNat 24 (3145728 + w.toNat * 262144 + scope.toNat * 32768 + c.toNat * 2048 + v.toNat * 32)
  | .amoXor _ _ _ w scope c v => BitVec.ofNat 24 (4194304 + w.toNat * 262144 + scope.toNat * 32768 + c.toNat * 2048 + v.toNat * 32)
  | .amoSmin _ _ _ w scope c v => BitVec.ofNat 24 (5242880 + w.toNat * 262144 + scope.toNat * 32768 + c.toNat * 2048 + v.toNat * 32)
  | .amoSmax _ _ _ w scope c v => BitVec.ofNat 24 (6291456 + w.toNat * 262144 + scope.toNat * 32768 + c.toNat * 2048 + v.toNat * 32)
  | .amoUmin _ _ _ w scope c v => BitVec.ofNat 24 (7340032 + w.toNat * 262144 + scope.toNat * 32768 + c.toNat * 2048 + v.toNat * 32)
  | .amoUmax _ _ _ w scope c v => BitVec.ofNat 24 (8388608 + w.toNat * 262144 + scope.toNat * 32768 + c.toNat * 2048 + v.toNat * 32)
  | .amoSwap _ _ _ w scope c v => BitVec.ofNat 24 (9437184 + w.toNat * 262144 + scope.toNat * 32768 + c.toNat * 2048 + v.toNat * 32)
  | .amoCas _ _ _ w scope c v cmp => BitVec.ofNat 24 (10485760 + w.toNat * 262144 + scope.toNat * 32768 + c.toNat * 2048 + v.toNat * 32 + cmp.toNat)
  | .amoFadd _ _ _ w scope c v => BitVec.ofNat 24 (11534336 + w.toNat * 262144 + scope.toNat * 32768 + c.toNat * 2048 + v.toNat * 32)
  | .redAdd _ _ w scope c v => BitVec.ofNat 24 (w.toNat * 262144 + scope.toNat * 32768 + c.toNat * 2048 + v.toNat * 32)
  | .redInc _ _ w scope c => BitVec.ofNat 24 (1048576 + w.toNat * 262144 + scope.toNat * 32768 + c.toNat * 2048)
  | .redAnd _ _ w scope c v => BitVec.ofNat 24 (2097152 + w.toNat * 262144 + scope.toNat * 32768 + c.toNat * 2048 + v.toNat * 32)
  | .redOr _ _ w scope c v => BitVec.ofNat 24 (3145728 + w.toNat * 262144 + scope.toNat * 32768 + c.toNat * 2048 + v.toNat * 32)
  | .redXor _ _ w scope c v => BitVec.ofNat 24 (4194304 + w.toNat * 262144 + scope.toNat * 32768 + c.toNat * 2048 + v.toNat * 32)
  | .redSmin _ _ w scope c v => BitVec.ofNat 24 (5242880 + w.toNat * 262144 + scope.toNat * 32768 + c.toNat * 2048 + v.toNat * 32)
  | .redSmax _ _ w scope c v => BitVec.ofNat 24 (6291456 + w.toNat * 262144 + scope.toNat * 32768 + c.toNat * 2048 + v.toNat * 32)
  | .redUmin _ _ w scope c v => BitVec.ofNat 24 (7340032 + w.toNat * 262144 + scope.toNat * 32768 + c.toNat * 2048 + v.toNat * 32)
  | .redUmax _ _ w scope c v => BitVec.ofNat 24 (8388608 + w.toNat * 262144 + scope.toNat * 32768 + c.toNat * 2048 + v.toNat * 32)
  | .redFadd _ _ w scope c v => BitVec.ofNat 24 (11534336 + w.toNat * 262144 + scope.toNat * 32768 + c.toNat * 2048 + v.toNat * 32)
  | .vadd _ _ _ _ _ => 0
  | .vsub _ _ _ _ _ => 0
  | .vmul _ _ _ _ _ => 0
  | .vfma _ _ _ _ _ => 0
  | .vfms _ _ _ _ _ => 0
  | .vfnma _ _ _ _ _ => 0
  | .vmin _ _ _ _ _ => 0
  | .vmax _ _ _ _ _ => 0
  | .vabs _ _ _ _ => 0
  | .vneg _ _ _ _ => 0
  | .vmov _ _ _ _ => 0
  | .vand _ _ _ _ _ => 0
  | .vor _ _ _ _ _ => 0
  | .vxor _ _ _ _ _ => 0
  | .vnot _ _ _ _ => 0
  | .vshl _ _ _ _ _ => 0
  | .vshr _ _ _ _ _ => 0
  | .vsar _ _ _ _ _ => 0
  | .vcmpEq _ _ _ _ => 0
  | .vcmpNe _ _ _ _ => 0
  | .vcmpLt _ _ _ _ => 0
  | .vcmpLe _ _ _ _ => 0
  | .vsel _ _ _ _ _ => 0
  | .vcvtTo _ _ _ _ _ _ => 0
  | .vcvtFrom _ _ _ _ _ _ => 0
  | .vcvtSc _ _ _ _ _ _ _ => 0
  | .vredAdd _ _ _ _ _ => 0
  | .vredMax _ _ _ _ _ => 0
  | .vredMin _ _ _ _ _ => 0
  | .vscanAdd _ _ _ _ _ => 0
  | .vbcast _ _ _ _ _ => 0
  | .vext _ _ _ _ => 0
  | .vperm _ _ _ _ _ => 0
  | .vrot _ _ _ _ _ => 0
  | .vpart _ _ _ _ _ cv msk cnt => BitVec.ofNat 24 (b2n cv * 128 + msk.toNat * 32 + cnt.toNat)
  | .vld _ _ _ _ _ _ => 0
  | .vst _ _ _ _ _ => 0
  | .vgath _ _ _ _ _ _ => 0
  | .vscat _ _ _ _ _ => 0
  | .vlut _ _ _ _ _ => 0
  | .vmulhi _ _ _ _ => 0
  | .vdot4 _ _ _ _ => 0
  | .vamax _ _ _ _ => 0
  | .vexp2 _ _ _ => 0
  | .vlog2 _ _ _ => 0
  | .vrcp _ _ _ => 0
  | .vrsqrt _ _ _ => 0
  | .vsqrt _ _ _ => 0
  | .vtanh _ _ _ => 0
  | .verf _ _ _ => 0
  | .vsigm _ _ _ => 0
  | .vdiv _ _ _ _ => 0
  | .vfloor _ _ _ => 0
  | .mma _ _ _ _ _ _ => 0
  | .maccClr _ _ _ => 0
  | .maccLd _ _ _ => 0
  | .maccSt _ _ _ => 0
  | .mcancel _ => 0
  | .cpFill _ _ _ _ _ => 0
  | .cpDrain _ _ _ _ _ => 0
  | .cpGath _ _ _ _ => 0
  | .cpScat _ _ _ _ => 0
  | .cpBcst _ _ _ _ => 0
  | .cpRedFadd _ _ _ _ => 0
  | .cpRedBf2Add _ _ _ _ => 0
  | .cpRedIntAdd _ _ _ _ => 0
  | .cpRedSmax _ _ _ _ => 0
  | .cpRedUmax _ _ _ _ => 0
  | .cpSelr _ _ _ _ => 0
  | .cpSelc _ _ _ _ => 0
  | .cpRmaPut _ _ _ _ => 0
  | .cpRmaGet _ _ _ _ => 0
  | .cpRamo _ _ _ _ => 0
  | .cpGdrain _ _ _ _ => 0
  | .cpPmtGrant _ _ _ => 0
  | .cpPmtTake _ _ _ => 0
  | .cpCancel _ => 0
  | .cpCancelAll => 0
  | .whFetchPred _ => 0
  | .whFetchDem _ => 0
  | .whDrop _ => 0
  | .whPin _ => 0
  | .whUnpin _ => 0
  | .whQry _ => 0
  | .stg _ _ => 0
  | .stgLo _ _ => 0
  | .stgHi _ _ => 0
  | .ttDef _ _ _ => 0
  | .ttFree _ => 0
  | .ttBind _ _ => 0
  | .ttUnbind _ => 0
  | .ttMark _ _ => 0
  | .ttMarkWait _ _ => 0
  | .ttMarkNofold _ => 0
  | .ttRd _ _ _ => 0
  | .fmtSet _ _ _ _ _ => 0
  | .vtSet _ => 0
  | .vwinSet _ _ => 0
  | .vactSet _ => 0
  | .fpcSet _ _ _ _ _ _ _ => 0
  | .fpcSetC _ _ _ _ => 0
  | .fpcSetF _ => 0
  | .lendMx _ => 0
  | .lendVec _ => 0
  | .phase _ _ => 0
  | .amaxClr => 0
  | .vlutLd _ _ _ => 0
  | .kmov _ _ => 0
  | .kderive _ _ _ => 0
  | .krestrict _ _ _ => 0
  | .kgetObj _ _ => 0
  | .kgetBase _ _ => 0
  | .kgetLen _ _ => 0
  | .kgetRgt _ _ => 0
  | .kcheck _ _ _ _ => 0
  | .kclr _ => 0
  | .kst _ _ _ => 0
  | .kld _ _ _ => 0
  | .kmint _ _ => 0
  | .xlatSync => 0
  | .pgReform _ _ _ => 0
  | .hresetWrite => 0
  | .foldloWrite => 0
  | .foldhiWrite => 0
  | .spaceDescriptorWrite => 0
  | .localSpaceClearEnd => 0
  | .schcfgWrite => 0
  | .bundleCheck => 0
  | .budgetTrap => 0
  | .trapDelivery => 0
  | .mxCommandStart => 0
  | .mmaRowFinal => 0
  | .mxCommandComplete => 0
  | .copySourceRead => 0
  | .byteLanding => 0
  | .copyCommandComplete => 0
  | .atomicTile => 0
  | .groupDrainPerform => 0
  | .groupDrainTimeout => 0
  | .spawnSlotReserve => 0
  | .porchSpill => 0
  | .put => 0
  | .get => 0
  | .getResponse => 0
  | .fadd => 0
  | .tail => 0
  | .permit => 0
  | .ack => 0
  | .nak => 0
  | .messageResend => 0
  | .connectionFail => 0
  | .frameReceive => 0
  | .portLinkDown => 0
  | .flitCrcReplay => 0
  | .linkRetrain => 0
  | .permitLeaseExpiry => 0
  | .droverRequestSend => 0
  | .handleFetchComplete => 0
  | .handleFetchFail => 0
  | .handleEvictComplete => 0
  | .pastureNonempty => 0
  | .penMap => 0
  | .penRemap => 0
  | .penClaim => 0
  | .pickup => 0
  | .recordReturn => 0
  | .wakeWithoutCause => 0
  | .pinfoldWake => 0
  | .sectorFill => 0
  | .l2Writeback => 0
  | .writeQueueDrain => 0
  | .phaseShrinkComplete => 0
  | .phaseGrowComplete => 0
  | .uncorrectableError => 0
  | .sramScrub => 0
  | .hbmScrub => 0
  | .coreSelfTest => 0
  | .cellarMaintenance => 0
  | .arbiterInterval => 0
  | .junctionOvertemp => 0
  | .recorderAppend => 0
  | .hubWatchdog => 0
  | .coldReset => 0
  | .warmReset => 0
  | .attestationRequest => 0
  | .recorderFreezeRelease => 0
  | .variableLatencyResult => 0
  | .portLinkUp => 0
  | .connectionReestablished => 0
  | .programmingSliceEnd => 0
  | .recoveryExchange => 0
  | .hardwarePrefetch => 0

/-- The literal slot that an operation names for its extension word (R37). -/
def Instr.extSlot : Instr → Option (BitVec 3)
  | .nop _ => none
  | .br _ => none
  | .jmp _ => none
  | .call _ => none
  | .callr _ => none
  | .ret => none
  | .loop _ _ _ => none
  | .bktJmp _ xs _ _ => some xs
  | .park xs _ => some xs
  | .exit => none
  | .spawn _ _ _ => none
  | .waitw _ xs _ _ _ _ _ => some xs
  | .wakew _ xs _ _ _ => some xs
  | .foldArrive _ => none
  | .foldWait _ => none
  | .foldSync _ => none
  | .foldBytes _ _ => none
  | .whWait _ => none
  | .probe _ _ _ _ => none
  | .segMark => none
  | .fence _ xs _ => some xs
  | .fenceX _ _ => none
  | .trap _ _ => none
  | .brk _ => none
  | .rfe => none
  | .ctxResumeRun _ _ => none
  | .ctxResumePark _ _ => none
  | .ctxResumePre _ _ => none
  | .ctxKill _ => none
  | .ctxKillRun _ => none
  | .halt => none
  | .add _ _ _ _ _ => none
  | .sub _ _ _ _ _ => none
  | .mul _ _ _ _ _ => none
  | .mulh _ _ _ _ _ => none
  | .mulhu _ _ _ _ _ => none
  | .div _ _ _ _ _ => none
  | .divu _ _ _ _ _ => none
  | .rem _ _ _ _ _ => none
  | .remu _ _ _ _ _ => none
  | .and _ _ _ _ _ => none
  | .or _ _ _ _ _ => none
  | .xor _ _ _ _ _ => none
  | .andn _ _ _ _ _ => none
  | .orn _ _ _ _ _ => none
  | .xnor _ _ _ _ _ => none
  | .shl _ _ _ _ _ => none
  | .shr _ _ _ _ _ => none
  | .sar _ _ _ _ _ => none
  | .rotr _ _ _ _ _ => none
  | .min _ _ _ _ _ => none
  | .max _ _ _ _ _ => none
  | .minu _ _ _ _ _ => none
  | .maxu _ _ _ _ _ => none
  | .clz _ _ _ _ => none
  | .ctz _ _ _ _ => none
  | .popc _ _ _ _ => none
  | .bswap _ _ _ _ => none
  | .bext _ _ _ _ _ => none
  | .bins _ _ _ _ => none
  | .addS2 _ _ _ _ _ => none
  | .addS3 _ _ _ _ _ => none
  | .sext _ _ _ _ _ => none
  | .zext _ _ _ _ _ => none
  | .mov _ _ _ _ => none
  | .litHi _ _ _ _ _ => none
  | .cmpEq _ _ _ _ => none
  | .cmpNe _ _ _ _ => none
  | .cmpLt _ _ _ _ => none
  | .cmpLtu _ _ _ _ => none
  | .cmpLe _ _ _ _ => none
  | .cmpLeu _ _ _ _ => none
  | .pand _ _ _ _ => none
  | .por _ _ _ _ => none
  | .pxor _ _ _ _ => none
  | .pnot _ _ _ => none
  | .tstBit _ _ _ _ => none
  | .faddS _ _ _ _ => none
  | .fsubS _ _ _ _ => none
  | .fmulS _ _ _ _ => none
  | .ffmaS _ _ _ _ => none
  | .fminS _ _ _ _ => none
  | .fmaxS _ _ _ _ => none
  | .fcmpLtS _ _ _ => none
  | .fcmpEqS _ _ _ => none
  | .fcvtSI _ _ _ => none
  | .fcvtSIU _ _ _ => none
  | .fcvtIS _ _ _ => none
  | .fcvtISU _ _ _ => none
  | .fcvtISW _ _ _ => none
  | .sysRd _ _ _ => none
  | .sysWr _ _ => none
  | .budRd _ _ => none
  | .timeRd _ _ => none
  | .ldU8 _ _ _ _ => none
  | .ldS8 _ _ _ _ => none
  | .ldU16 _ _ _ _ => none
  | .ldS16 _ _ _ _ => none
  | .ldU32 _ _ _ _ => none
  | .ldS32 _ _ _ _ => none
  | .ld64 _ _ _ _ => none
  | .ldAcq _ _ _ _ => none
  | .st8 _ _ _ _ => none
  | .st16 _ _ _ _ => none
  | .st32 _ _ _ _ => none
  | .st64 _ _ _ _ => none
  | .stRel _ _ _ _ => none
  | .ldk _ _ _ => none
  | .amoAdd _ _ xs _ _ _ _ => some xs
  | .amoInc _ _ xs _ _ _ => some xs
  | .amoAnd _ _ xs _ _ _ _ => some xs
  | .amoOr _ _ xs _ _ _ _ => some xs
  | .amoXor _ _ xs _ _ _ _ => some xs
  | .amoSmin _ _ xs _ _ _ _ => some xs
  | .amoSmax _ _ xs _ _ _ _ => some xs
  | .amoUmin _ _ xs _ _ _ _ => some xs
  | .amoUmax _ _ xs _ _ _ _ => some xs
  | .amoSwap _ _ xs _ _ _ _ => some xs
  | .amoCas _ _ xs _ _ _ _ _ => some xs
  | .amoFadd _ _ xs _ _ _ _ => some xs
  | .redAdd _ xs _ _ _ _ => some xs
  | .redInc _ xs _ _ _ => some xs
  | .redAnd _ xs _ _ _ _ => some xs
  | .redOr _ xs _ _ _ _ => some xs
  | .redXor _ xs _ _ _ _ => some xs
  | .redSmin _ xs _ _ _ _ => some xs
  | .redSmax _ xs _ _ _ _ => some xs
  | .redUmin _ xs _ _ _ _ => some xs
  | .redUmax _ xs _ _ _ _ => some xs
  | .redFadd _ xs _ _ _ _ => some xs
  | .vadd _ _ _ _ _ => none
  | .vsub _ _ _ _ _ => none
  | .vmul _ _ _ _ _ => none
  | .vfma _ _ _ _ _ => none
  | .vfms _ _ _ _ _ => none
  | .vfnma _ _ _ _ _ => none
  | .vmin _ _ _ _ _ => none
  | .vmax _ _ _ _ _ => none
  | .vabs _ _ _ _ => none
  | .vneg _ _ _ _ => none
  | .vmov _ _ _ _ => none
  | .vand _ _ _ _ _ => none
  | .vor _ _ _ _ _ => none
  | .vxor _ _ _ _ _ => none
  | .vnot _ _ _ _ => none
  | .vshl _ _ _ _ _ => none
  | .vshr _ _ _ _ _ => none
  | .vsar _ _ _ _ _ => none
  | .vcmpEq _ _ _ _ => none
  | .vcmpNe _ _ _ _ => none
  | .vcmpLt _ _ _ _ => none
  | .vcmpLe _ _ _ _ => none
  | .vsel _ _ _ _ _ => none
  | .vcvtTo _ _ _ _ _ _ => none
  | .vcvtFrom _ _ _ _ _ _ => none
  | .vcvtSc _ _ _ _ _ _ _ => none
  | .vredAdd _ _ _ _ _ => none
  | .vredMax _ _ _ _ _ => none
  | .vredMin _ _ _ _ _ => none
  | .vscanAdd _ _ _ _ _ => none
  | .vbcast _ _ _ _ _ => none
  | .vext _ _ _ _ => none
  | .vperm _ _ _ _ _ => none
  | .vrot _ _ _ _ _ => none
  | .vpart _ _ _ _ xs _ _ _ => some xs
  | .vld _ _ _ _ _ _ => none
  | .vst _ _ _ _ _ => none
  | .vgath _ _ _ _ _ _ => none
  | .vscat _ _ _ _ _ => none
  | .vlut _ _ _ _ _ => none
  | .vmulhi _ _ _ _ => none
  | .vdot4 _ _ _ _ => none
  | .vamax _ _ _ _ => none
  | .vexp2 _ _ _ => none
  | .vlog2 _ _ _ => none
  | .vrcp _ _ _ => none
  | .vrsqrt _ _ _ => none
  | .vsqrt _ _ _ => none
  | .vtanh _ _ _ => none
  | .verf _ _ _ => none
  | .vsigm _ _ _ => none
  | .vdiv _ _ _ _ => none
  | .vfloor _ _ _ => none
  | .mma _ _ _ _ _ _ => none
  | .maccClr _ _ _ => none
  | .maccLd _ _ _ => none
  | .maccSt _ _ _ => none
  | .mcancel _ => none
  | .cpFill _ _ _ _ _ => none
  | .cpDrain _ _ _ _ _ => none
  | .cpGath _ _ _ _ => none
  | .cpScat _ _ _ _ => none
  | .cpBcst _ _ _ _ => none
  | .cpRedFadd _ _ _ _ => none
  | .cpRedBf2Add _ _ _ _ => none
  | .cpRedIntAdd _ _ _ _ => none
  | .cpRedSmax _ _ _ _ => none
  | .cpRedUmax _ _ _ _ => none
  | .cpSelr _ _ _ _ => none
  | .cpSelc _ _ _ _ => none
  | .cpRmaPut _ _ _ _ => none
  | .cpRmaGet _ _ _ _ => none
  | .cpRamo _ _ _ _ => none
  | .cpGdrain _ _ _ _ => none
  | .cpPmtGrant _ _ _ => none
  | .cpPmtTake _ _ _ => none
  | .cpCancel _ => none
  | .cpCancelAll => none
  | .whFetchPred _ => none
  | .whFetchDem _ => none
  | .whDrop _ => none
  | .whPin _ => none
  | .whUnpin _ => none
  | .whQry _ => none
  | .stg _ _ => none
  | .stgLo _ _ => none
  | .stgHi _ _ => none
  | .ttDef _ _ _ => none
  | .ttFree _ => none
  | .ttBind _ _ => none
  | .ttUnbind _ => none
  | .ttMark _ _ => none
  | .ttMarkWait _ _ => none
  | .ttMarkNofold _ => none
  | .ttRd _ _ _ => none
  | .fmtSet _ _ _ _ _ => none
  | .vtSet _ => none
  | .vwinSet _ _ => none
  | .vactSet _ => none
  | .fpcSet _ _ _ _ _ _ _ => none
  | .fpcSetC _ _ _ _ => none
  | .fpcSetF _ => none
  | .lendMx _ => none
  | .lendVec _ => none
  | .phase _ _ => none
  | .amaxClr => none
  | .vlutLd _ _ _ => none
  | .kmov _ _ => none
  | .kderive _ _ _ => none
  | .krestrict _ _ _ => none
  | .kgetObj _ _ => none
  | .kgetBase _ _ => none
  | .kgetLen _ _ => none
  | .kgetRgt _ _ => none
  | .kcheck _ _ _ _ => none
  | .kclr _ => none
  | .kst _ _ _ => none
  | .kld _ _ _ => none
  | .kmint _ _ => none
  | .xlatSync => none
  | .pgReform _ _ _ => none
  | .hresetWrite => none
  | .foldloWrite => none
  | .foldhiWrite => none
  | .spaceDescriptorWrite => none
  | .localSpaceClearEnd => none
  | .schcfgWrite => none
  | .bundleCheck => none
  | .budgetTrap => none
  | .trapDelivery => none
  | .mxCommandStart => none
  | .mmaRowFinal => none
  | .mxCommandComplete => none
  | .copySourceRead => none
  | .byteLanding => none
  | .copyCommandComplete => none
  | .atomicTile => none
  | .groupDrainPerform => none
  | .groupDrainTimeout => none
  | .spawnSlotReserve => none
  | .porchSpill => none
  | .put => none
  | .get => none
  | .getResponse => none
  | .fadd => none
  | .tail => none
  | .permit => none
  | .ack => none
  | .nak => none
  | .messageResend => none
  | .connectionFail => none
  | .frameReceive => none
  | .portLinkDown => none
  | .flitCrcReplay => none
  | .linkRetrain => none
  | .permitLeaseExpiry => none
  | .droverRequestSend => none
  | .handleFetchComplete => none
  | .handleFetchFail => none
  | .handleEvictComplete => none
  | .pastureNonempty => none
  | .penMap => none
  | .penRemap => none
  | .penClaim => none
  | .pickup => none
  | .recordReturn => none
  | .wakeWithoutCause => none
  | .pinfoldWake => none
  | .sectorFill => none
  | .l2Writeback => none
  | .writeQueueDrain => none
  | .phaseShrinkComplete => none
  | .phaseGrowComplete => none
  | .uncorrectableError => none
  | .sramScrub => none
  | .hbmScrub => none
  | .coreSelfTest => none
  | .cellarMaintenance => none
  | .arbiterInterval => none
  | .junctionOvertemp => none
  | .recorderAppend => none
  | .hubWatchdog => none
  | .coldReset => none
  | .warmReset => none
  | .attestationRequest => none
  | .recorderFreezeRelease => none
  | .variableLatencyResult => none
  | .portLinkUp => none
  | .connectionReestablished => none
  | .programmingSliceEnd => none
  | .recoveryExchange => none
  | .hardwarePrefetch => none

/-- The first of the rows that share an operation's words: the rows of `cp.red` and of `cp.rma` differ in a staging register only
(R246, R250), and the decoder names the first. -/
def Instr.canon : Instr → Instr
  | .nop sl => .nop sl
  | .br disp => .br disp
  | .jmp s => .jmp s
  | .call disp => .call disp
  | .callr s => .callr s
  | .ret => .ret
  | .loop l c e => .loop l c e
  | .bktJmp c xs tdisp np => .bktJmp c xs tdisp np
  | .park xs mask => .park xs mask
  | .exit => .exit
  | .spawn k o p => .spawn k o p
  | .waitw k xs o cond w64 scope v => .waitw k xs o cond w64 scope v
  | .wakew k xs o scope n => .wakew k xs o scope n
  | .foldArrive fid => .foldArrive fid
  | .foldWait fid => .foldWait fid
  | .foldSync fid => .foldSync fid
  | .foldBytes c fid => .foldBytes c fid
  | .whWait s => .whWait s
  | .probe k w o l => .probe k w o l
  | .segMark => .segMark
  | .fence scope xs cmask => .fence scope xs cmask
  | .fenceX scope paths => .fenceX scope paths
  | .trap a code => .trap a code
  | .brk code => .brk code
  | .rfe => .rfe
  | .ctxResumeRun a b => .ctxResumeRun a b
  | .ctxResumePark a b => .ctxResumePark a b
  | .ctxResumePre a b => .ctxResumePre a b
  | .ctxKill a => .ctxKill a
  | .ctxKillRun a => .ctxKillRun a
  | .halt => .halt
  | .add u x d a b => .add u x d a b
  | .sub u x d a b => .sub u x d a b
  | .mul u x d a b => .mul u x d a b
  | .mulh u x d a b => .mulh u x d a b
  | .mulhu u x d a b => .mulhu u x d a b
  | .div u x d a b => .div u x d a b
  | .divu u x d a b => .divu u x d a b
  | .rem u x d a b => .rem u x d a b
  | .remu u x d a b => .remu u x d a b
  | .and u x d a b => .and u x d a b
  | .or u x d a b => .or u x d a b
  | .xor u x d a b => .xor u x d a b
  | .andn u x d a b => .andn u x d a b
  | .orn u x d a b => .orn u x d a b
  | .xnor u x d a b => .xnor u x d a b
  | .shl u x d a b => .shl u x d a b
  | .shr u x d a b => .shr u x d a b
  | .sar u x d a b => .sar u x d a b
  | .rotr u x d a b => .rotr u x d a b
  | .min u x d a b => .min u x d a b
  | .max u x d a b => .max u x d a b
  | .minu u x d a b => .minu u x d a b
  | .maxu u x d a b => .maxu u x d a b
  | .clz u x d a => .clz u x d a
  | .ctz u x d a => .ctz u x d a
  | .popc u x d a => .popc u x d a
  | .bswap u x d a => .bswap u x d a
  | .bext u x d a b => .bext u x d a b
  | .bins u d a b => .bins u d a b
  | .addS2 u x d a b => .addS2 u x d a b
  | .addS3 u x d a b => .addS3 u x d a b
  | .sext u x d a b => .sext u x d a b
  | .zext u x d a b => .zext u x d a b
  | .mov u x d a => .mov u x d a
  | .litHi u x d a b => .litHi u x d a b
  | .cmpEq u p a b => .cmpEq u p a b
  | .cmpNe u p a b => .cmpNe u p a b
  | .cmpLt u p a b => .cmpLt u p a b
  | .cmpLtu u p a b => .cmpLtu u p a b
  | .cmpLe u p a b => .cmpLe u p a b
  | .cmpLeu u p a b => .cmpLeu u p a b
  | .pand u p a b => .pand u p a b
  | .por u p a b => .por u p a b
  | .pxor u p a b => .pxor u p a b
  | .pnot u p a => .pnot u p a
  | .tstBit u p a b => .tstBit u p a b
  | .faddS x d a b => .faddS x d a b
  | .fsubS x d a b => .fsubS x d a b
  | .fmulS x d a b => .fmulS x d a b
  | .ffmaS x d a b => .ffmaS x d a b
  | .fminS x d a b => .fminS x d a b
  | .fmaxS x d a b => .fmaxS x d a b
  | .fcmpLtS p a b => .fcmpLtS p a b
  | .fcmpEqS p a b => .fcmpEqS p a b
  | .fcvtSI x d a => .fcvtSI x d a
  | .fcvtSIU x d a => .fcvtSIU x d a
  | .fcvtIS x d a => .fcvtIS x d a
  | .fcvtISU x d a => .fcvtISU x d a
  | .fcvtISW x d a => .fcvtISW x d a
  | .sysRd x d a => .sysRd x d a
  | .sysWr a b => .sysWr a b
  | .budRd x d => .budRd x d
  | .timeRd x d => .timeRd x d
  | .ldU8 r k o c => .ldU8 r k o c
  | .ldS8 r k o c => .ldS8 r k o c
  | .ldU16 r k o c => .ldU16 r k o c
  | .ldS16 r k o c => .ldS16 r k o c
  | .ldU32 r k o c => .ldU32 r k o c
  | .ldS32 r k o c => .ldS32 r k o c
  | .ld64 r k o c => .ld64 r k o c
  | .ldAcq r k o scope => .ldAcq r k o scope
  | .st8 r k o c => .st8 r k o c
  | .st16 r k o c => .st16 r k o c
  | .st32 r k o c => .st32 r k o c
  | .st64 r k o c => .st64 r k o c
  | .stRel r k o scope => .stRel r k o scope
  | .ldk kd o c => .ldk kd o c
  | .amoAdd r k xs w scope c v => .amoAdd r k xs w scope c v
  | .amoInc r k xs w scope c => .amoInc r k xs w scope c
  | .amoAnd r k xs w scope c v => .amoAnd r k xs w scope c v
  | .amoOr r k xs w scope c v => .amoOr r k xs w scope c v
  | .amoXor r k xs w scope c v => .amoXor r k xs w scope c v
  | .amoSmin r k xs w scope c v => .amoSmin r k xs w scope c v
  | .amoSmax r k xs w scope c v => .amoSmax r k xs w scope c v
  | .amoUmin r k xs w scope c v => .amoUmin r k xs w scope c v
  | .amoUmax r k xs w scope c v => .amoUmax r k xs w scope c v
  | .amoSwap r k xs w scope c v => .amoSwap r k xs w scope c v
  | .amoCas r k xs w scope c v cmp => .amoCas r k xs w scope c v cmp
  | .amoFadd r k xs w scope c v => .amoFadd r k xs w scope c v
  | .redAdd k xs w scope c v => .redAdd k xs w scope c v
  | .redInc k xs w scope c => .redInc k xs w scope c
  | .redAnd k xs w scope c v => .redAnd k xs w scope c v
  | .redOr k xs w scope c v => .redOr k xs w scope c v
  | .redXor k xs w scope c v => .redXor k xs w scope c v
  | .redSmin k xs w scope c v => .redSmin k xs w scope c v
  | .redSmax k xs w scope c v => .redSmax k xs w scope c v
  | .redUmin k xs w scope c v => .redUmin k xs w scope c v
  | .redUmax k xs w scope c v => .redUmax k xs w scope c v
  | .redFadd k xs w scope c v => .redFadd k xs w scope c v
  | .vadd u x d a b => .vadd u x d a b
  | .vsub u x d a b => .vsub u x d a b
  | .vmul u x d a b => .vmul u x d a b
  | .vfma u x d a b => .vfma u x d a b
  | .vfms u x d a b => .vfms u x d a b
  | .vfnma u x d a b => .vfnma u x d a b
  | .vmin u x d a b => .vmin u x d a b
  | .vmax u x d a b => .vmax u x d a b
  | .vabs u x d a => .vabs u x d a
  | .vneg u x d a => .vneg u x d a
  | .vmov u x d a => .vmov u x d a
  | .vand u x d a b => .vand u x d a b
  | .vor u x d a b => .vor u x d a b
  | .vxor u x d a b => .vxor u x d a b
  | .vnot u x d a => .vnot u x d a
  | .vshl u x d a b => .vshl u x d a b
  | .vshr u x d a b => .vshr u x d a b
  | .vsar u x d a b => .vsar u x d a b
  | .vcmpEq u m a b => .vcmpEq u m a b
  | .vcmpNe u m a b => .vcmpNe u m a b
  | .vcmpLt u m a b => .vcmpLt u m a b
  | .vcmpLe u m a b => .vcmpLe u m a b
  | .vsel u x d a b => .vsel u x d a b
  | .vcvtTo u x d a t q => .vcvtTo u x d a t q
  | .vcvtFrom u x d a t q => .vcvtFrom u x d a t q
  | .vcvtSc u x d a s g q => .vcvtSc u x d a s g q
  | .vredAdd u x d a b => .vredAdd u x d a b
  | .vredMax u x d a b => .vredMax u x d a b
  | .vredMin u x d a b => .vredMin u x d a b
  | .vscanAdd u x d a b => .vscanAdd u x d a b
  | .vbcast u x d a b => .vbcast u x d a b
  | .vext u d a b => .vext u d a b
  | .vperm u x d a b => .vperm u x d a b
  | .vrot u x d a b => .vrot u x d a b
  | .vpart u x d a xs cv msk cnt => .vpart u x d a xs cv msk cnt
  | .vld u x v o k c => .vld u x v o k c
  | .vst u v o k c => .vst u v o k c
  | .vgath u x v i k c => .vgath u x v i k c
  | .vscat u v i k c => .vscat u v i k c
  | .vlut u x d a q => .vlut u x d a q
  | .vmulhi x d a b => .vmulhi x d a b
  | .vdot4 x d a b => .vdot4 x d a b
  | .vamax x d a b => .vamax x d a b
  | .vexp2 x d a => .vexp2 x d a
  | .vlog2 x d a => .vlog2 x d a
  | .vrcp x d a => .vrcp x d a
  | .vrsqrt x d a => .vrsqrt x d a
  | .vsqrt x d a => .vsqrt x d a
  | .vtanh x d a => .vtanh x d a
  | .verf x d a => .verf x d a
  | .vsigm x d a => .vsigm x d a
  | .vdiv x d a b => .vdiv x d a b
  | .vfloor x d a => .vfloor x d a
  | .mma a b n z tb s => .mma a b n z tb s
  | .maccClr n r c => .maccClr n r c
  | .maccLd t n r => .maccLd t n r
  | .maccSt t n r => .maccSt t n r
  | .mcancel m => .mcancel m
  | .cpFill t k xb a c => .cpFill t k xb a c
  | .cpDrain t k xb a c => .cpDrain t k xb a c
  | .cpGath t k xb c => .cpGath t k xb c
  | .cpScat t k xb c => .cpScat t k xb c
  | .cpBcst t k xb c => .cpBcst t k xb c
  | .cpRedFadd t k xb c => .cpRedFadd t k xb c
  | .cpRedBf2Add t k xb c => .cpRedFadd t k xb c
  | .cpRedIntAdd t k xb c => .cpRedFadd t k xb c
  | .cpRedSmax t k xb c => .cpRedFadd t k xb c
  | .cpRedUmax t k xb c => .cpRedFadd t k xb c
  | .cpSelr t k xb c => .cpSelr t k xb c
  | .cpSelc t k xb c => .cpSelc t k xb c
  | .cpRmaPut t k xb c => .cpRmaPut t k xb c
  | .cpRmaGet t k xb c => .cpRmaPut t k xb c
  | .cpRamo t k xb c => .cpRamo t k xb c
  | .cpGdrain t k xb c => .cpGdrain t k xb c
  | .cpPmtGrant k xb c => .cpPmtGrant k xb c
  | .cpPmtTake k xb c => .cpPmtTake k xb c
  | .cpCancel t => .cpCancel t
  | .cpCancelAll => .cpCancelAll
  | .whFetchPred s => .whFetchPred s
  | .whFetchDem s => .whFetchDem s
  | .whDrop s => .whDrop s
  | .whPin s => .whPin s
  | .whUnpin s => .whUnpin s
  | .whQry s => .whQry s
  | .stg r s => .stg r s
  | .stgLo r s => .stgLo r s
  | .stgHi r s => .stgHi r s
  | .ttDef t ts k => .ttDef t ts k
  | .ttFree t => .ttFree t
  | .ttBind t ts => .ttBind t ts
  | .ttUnbind t => .ttUnbind t
  | .ttMark t fid => .ttMark t fid
  | .ttMarkWait t fid => .ttMarkWait t fid
  | .ttMarkNofold t => .ttMarkNofold t
  | .ttRd t h d => .ttRd t h d
  | .fmtSet scm ofmt accf bf af => .fmtSet scm ofmt accf bf af
  | .vtSet t => .vtSet t
  | .vwinSet b q => .vwinSet b q
  | .vactSet m => .vactSet m
  | .fpcSet wf wc fl so ws st rm => .fpcSet wf wc fl so ws st rm
  | .fpcSetC so ws st rm => .fpcSetC so ws st rm
  | .fpcSetF fl => .fpcSetF fl
  | .lendMx b => .lendMx b
  | .lendVec b => .lendVec b
  | .phase k t => .phase k t
  | .amaxClr => .amaxClr
  | .vlutLd k c blk => .vlutLd k c blk
  | .kmov d s => .kmov d s
  | .kderive d s xb => .kderive d s xb
  | .krestrict d s keep => .krestrict d s keep
  | .kgetObj d s => .kgetObj d s
  | .kgetBase d s => .kgetBase d s
  | .kgetLen d s => .kgetLen d s
  | .kgetRgt d s => .kgetRgt d s
  | .kcheck p s xb need => .kcheck p s xb need
  | .kclr d => .kclr d
  | .kst k s o => .kst k s o
  | .kld d k o => .kld d k o
  | .kmint d xb => .kmint d xb
  | .xlatSync => .xlatSync
  | .pgReform k xb d => .pgReform k xb d
  | .hresetWrite => .hresetWrite
  | .foldloWrite => .foldloWrite
  | .foldhiWrite => .foldhiWrite
  | .spaceDescriptorWrite => .spaceDescriptorWrite
  | .localSpaceClearEnd => .localSpaceClearEnd
  | .schcfgWrite => .schcfgWrite
  | .bundleCheck => .bundleCheck
  | .budgetTrap => .budgetTrap
  | .trapDelivery => .trapDelivery
  | .mxCommandStart => .mxCommandStart
  | .mmaRowFinal => .mmaRowFinal
  | .mxCommandComplete => .mxCommandComplete
  | .copySourceRead => .copySourceRead
  | .byteLanding => .byteLanding
  | .copyCommandComplete => .copyCommandComplete
  | .atomicTile => .atomicTile
  | .groupDrainPerform => .groupDrainPerform
  | .groupDrainTimeout => .groupDrainTimeout
  | .spawnSlotReserve => .spawnSlotReserve
  | .porchSpill => .porchSpill
  | .put => .put
  | .get => .get
  | .getResponse => .getResponse
  | .fadd => .fadd
  | .tail => .tail
  | .permit => .permit
  | .ack => .ack
  | .nak => .nak
  | .messageResend => .messageResend
  | .connectionFail => .connectionFail
  | .frameReceive => .frameReceive
  | .portLinkDown => .portLinkDown
  | .flitCrcReplay => .flitCrcReplay
  | .linkRetrain => .linkRetrain
  | .permitLeaseExpiry => .permitLeaseExpiry
  | .droverRequestSend => .droverRequestSend
  | .handleFetchComplete => .handleFetchComplete
  | .handleFetchFail => .handleFetchFail
  | .handleEvictComplete => .handleEvictComplete
  | .pastureNonempty => .pastureNonempty
  | .penMap => .penMap
  | .penRemap => .penRemap
  | .penClaim => .penClaim
  | .pickup => .pickup
  | .recordReturn => .recordReturn
  | .wakeWithoutCause => .wakeWithoutCause
  | .pinfoldWake => .pinfoldWake
  | .sectorFill => .sectorFill
  | .l2Writeback => .l2Writeback
  | .writeQueueDrain => .writeQueueDrain
  | .phaseShrinkComplete => .phaseShrinkComplete
  | .phaseGrowComplete => .phaseGrowComplete
  | .uncorrectableError => .uncorrectableError
  | .sramScrub => .sramScrub
  | .hbmScrub => .hbmScrub
  | .coreSelfTest => .coreSelfTest
  | .cellarMaintenance => .cellarMaintenance
  | .arbiterInterval => .arbiterInterval
  | .junctionOvertemp => .junctionOvertemp
  | .recorderAppend => .recorderAppend
  | .hubWatchdog => .hubWatchdog
  | .coldReset => .coldReset
  | .warmReset => .warmReset
  | .attestationRequest => .attestationRequest
  | .recorderFreezeRelease => .recorderFreezeRelease
  | .variableLatencyResult => .variableLatencyResult
  | .portLinkUp => .portLinkUp
  | .connectionReestablished => .connectionReestablished
  | .programmingSliceEnd => .programmingSliceEnd
  | .recoveryExchange => .recoveryExchange
  | .hardwarePrefetch => .hardwarePrefetch

/-- The slots in the order in which a bare word is tried: one 24-bit word means another operation in another slot (R53). -/
def tableOrder : List Slot := [.ia, .ib, .c, .va, .vb, .mx, .xc, .cf]

/-- The operation a bare slot word of the opcode table stands for: the reading of the first slot that accepts it, with an
extension word of zeros. -/
def decodeTableWord (_nbits w : Nat) : Option Instr :=
  tableOrder.findSome? fun sl => decode sl (fun _ => 0) (BitVec.ofNat 24 w)

end Sys2Proof
end

