-- ==== Sys2Proof/Machine/Num.lean ====
section
/-! DEFINITION. Numbers: exact values, the formats of 05_formats, and the rounding function of 06_arith_rules (R80 to R112). -/

namespace Sys2Proof.Machine
open Sys2Proof

/-- A floating-point value, exact: a NaN (quiet or signalling, R82), an infinity, or `(-1)^neg × m × 2^e`. -/
inductive FV
  | nan (sig : Bool)
  | inf (neg : Bool)
  | fin (neg : Bool) (m : Nat) (e : Int)
  deriving DecidableEq, Repr

/-- The five sticky flags of `FPCTL[11:7]`: NV 16, DZ 8, OF 4, UF 2, NX 1 (Table 2.10). -/
abbrev Flags := BitVec 5
/-- NV (R99). -/
def fNV : Flags := 16
/-- DZ (R99). -/
def fDZ : Flags := 8
/-- OF (R99). -/
def fOF : Flags := 4
/-- UF (R99). -/
def fUF : Flags := 2
/-- NX (R99). -/
def fNX : Flags := 1
/-- A flag where a condition holds. -/
def flagIf (c : Bool) (f : Flags) : Flags := if c then f else 0

/-- The floating-point formats of Table 5.1 and the chain format (R101). -/
inductive Fmt | fp32 | bf16 | fp16 | e4m3 | e5m2 | e3m2 | e2m3 | e2m1 | chain
  deriving DecidableEq, Repr

/-- Mantissa bits (Table 5.1; the chain format has 48 bits of precision, R101). -/
def Fmt.mant : Fmt → Nat
  | .fp32 => 23 | .bf16 => 7 | .fp16 => 10 | .e4m3 => 3 | .e5m2 => 2 | .e3m2 => 2 | .e2m3 => 3 | .e2m1 => 1 | .chain => 47
/-- Exponent bits (Table 5.1). -/
def Fmt.ebits : Fmt → Nat
  | .fp32 => 8 | .bf16 => 8 | .fp16 => 5 | .e4m3 => 4 | .e5m2 => 5 | .e3m2 => 3 | .e2m3 => 2 | .e2m1 => 2 | .chain => 11
/-- Exponent bias (Table 5.1). -/
def Fmt.bias : Fmt → Nat
  | .fp32 => 127 | .bf16 => 127 | .fp16 => 15 | .e4m3 => 7 | .e5m2 => 15 | .e3m2 => 3 | .e2m3 => 1 | .e2m1 => 1 | .chain => 1023
/-- Element width in bits. -/
def Fmt.width (f : Fmt) : Nat := f.mant + f.ebits + 1
/-- Whether the format has infinities (R81). -/
def Fmt.hasInf : Fmt → Bool
  | .fp32 | .bf16 | .fp16 | .e5m2 | .chain => true
  | .e4m3 | .e3m2 | .e2m3 | .e2m1 => false
/-- Whether the format has a NaN (R81). -/
def Fmt.hasNan : Fmt → Bool
  | .e3m2 | .e2m3 | .e2m1 => false
  | _ => true
/-- The exponent field of the largest finite value. -/
def Fmt.maxE (f : Fmt) : Nat := if f.hasInf then 2 ^ f.ebits - 2 else 2 ^ f.ebits - 1
/-- The mantissa field of the largest finite value (Table 5.2). -/
def Fmt.maxM (f : Fmt) : Nat := match f with
  | .e4m3 => 6
  | _ => 2 ^ f.mant - 1
/-- The exponent of the last place of the subnormal grid. -/
def Fmt.qmin (f : Fmt) : Int := 1 - f.bias - f.mant
/-- The pattern of the largest finite magnitude. -/
def Fmt.maxFin (f : Fmt) : Nat := f.maxE * 2 ^ f.mant + f.maxM
/-- The pattern of the positive infinity. -/
def Fmt.infPat (f : Fmt) : Nat := (2 ^ f.ebits - 1) * 2 ^ f.mant
/-- The canonical quiet NaN (R82); a format without one gives +0. -/
def Fmt.nanPat (f : Fmt) : Nat := match f with
  | .e4m3 => 0x7F
  | .e3m2 | .e2m3 | .e2m1 => 0
  | _ => f.infPat + 2 ^ (f.mant - 1)

/-- The number of bits of a number. -/
def bitLen (n : Nat) : Nat := if n = 0 then 0 else Nat.log2 n + 1

/-- The value of a pattern (R80, R81). -/
def unpack (f : Fmt) (p : Nat) : FV :=
  let m := p % 2 ^ f.mant
  let e := p / 2 ^ f.mant % 2 ^ f.ebits
  let neg := decide (p / 2 ^ (f.mant + f.ebits) % 2 = 1)
  if f.hasInf && e == 2 ^ f.ebits - 1 then
    if m = 0 then .inf neg else .nan (decide (m < 2 ^ (f.mant - 1)))
  else if f == .e4m3 && e == 15 && m == 7 then .nan false
  else if e = 0 then .fin neg m f.qmin
  else .fin neg (m + 2 ^ f.mant) (f.qmin + e - 1)

/-- `m × 2^e` scaled to units of `2^q`; exact where `q ≤ e`. -/
def scaleTo (m : Nat) (e q : Int) : Nat := if q ≤ e then m * 2 ^ (e - q).toNat else m / 2 ^ (q - e).toNat

/-- The sign bit of a pattern. -/
def signPat (f : Fmt) (neg : Bool) : Nat := if neg then 2 ^ (f.mant + f.ebits) else 0

/-- The pattern of a value that the format holds. -/
def pack (f : Fmt) : FV → Nat
  | .nan _ => f.nanPat
  | .inf neg => if f.hasInf then signPat f neg + f.infPat else if f == .e4m3 then f.nanPat else signPat f neg + f.maxFin
  | .fin neg m e =>
    if m = 0 then signPat f neg else
      let q := max (e + bitLen m - (f.mant + 1)) f.qmin
      let n := scaleTo m e q
      signPat f neg + (if n < 2 ^ f.mant then n else (q - f.qmin + 1).toNat * 2 ^ f.mant + (n - 2 ^ f.mant))

/-- The rounding modes of `FPCTL.RM` (Table 2.10). -/
abbrev RM := BitVec 2

/-- Rounds the magnitude `m × 2^e` of a value of the given sign to a multiple of `2^q` (step 1 of R96): the multiple, and whether it
differs from the value. -/
def roundAt (rm : RM) (neg : Bool) (m : Nat) (e q : Int) : Nat × Bool :=
  if q ≤ e then (m * 2 ^ (e - q).toNat, false) else
    let k := 2 ^ (q - e).toNat
    let n := m / k
    let r := m % k
    let up : Bool :=
      if rm = 0 then decide (k < 2 * r) || (decide (2 * r = k) && decide (n % 2 = 1))
      else if rm = 1 then false
      else if rm = 2 then r != 0 && !neg
      else r != 0 && neg
    (if up then n + 1 else n, r != 0)

/-- Whether an overflow that does not saturate becomes the infinity rather than the largest finite value (Table 6.1). -/
def overflowsToInf (rm : RM) (neg : Bool) : Bool :=
  if rm = 0 then true else if rm = 1 then false else if rm = 2 then !neg else neg

/-- The largest finite value of a format. -/
def maxFinite (f : Fmt) (neg : Bool) : FV := .fin neg (f.maxM + 2 ^ f.mant) (f.qmin + f.maxE - 1)

/-- Whether the format saturates under this setting (Table 6.1). -/
def saturates (f : Fmt) (sat : Bool) : Bool := match f with
  | .e4m3 | .e5m2 => sat
  | .e3m2 | .e2m3 | .e2m1 => true
  | _ => false

/-- `RoundTo(F, m)` (R96) with the special values of Table 6.3 and the flags of R99; `sat` is the saturating setting. -/
def roundTo (f : Fmt) (rm : RM) (sat : Bool) : FV → FV × Flags
  | .nan sig =>
    if f.hasNan then (.nan false, flagIf sig fNV) else (.fin false 0 0, fNV)
  | .inf neg =>
    if f.hasInf then (.inf neg, 0)
    else if f == .e4m3 && !sat then (.nan false, fNV)
    else (maxFinite f neg, fOF ||| fNX)
  | .fin neg m e =>
    if m = 0 then (.fin neg 0 0, 0) else
      let q := e + bitLen m - (f.mant + 1)
      let r := roundAt rm neg m e q
      let top := maxFinite f neg
      let tooBig : Bool := match top with
        | .fin _ tm te => if q ≤ te then decide (tm * 2 ^ (te - q).toNat < r.1) else decide (tm < r.1 * 2 ^ (q - te).toNat)
        | _ => false
      if tooBig then
        (if saturates f sat then top
         else if overflowsToInf rm neg then (if f == .e4m3 then .nan false else .inf neg)
         else top, fOF ||| fNX)
      else
        -- below the smallest normal magnitude: round again, directly, to the subnormal grid (step 2)
        let small : Bool := decide (q < f.qmin) && decide (r.1 < 2 ^ (f.qmin + f.mant - q).toNat)
        let q' := if small then f.qmin else q
        let r' := if small then roundAt rm neg m e f.qmin else r
        let tiny : Bool := r'.1 != 0 && small && decide (r'.1 < 2 ^ f.mant)
        (.fin neg r'.1 q', flagIf (tiny && r'.2) fUF ||| flagIf r'.2 fNX)

/-- The sign of a value. -/
def FV.neg : FV → Bool
  | .nan _ => false
  | .inf n => n
  | .fin n _ _ => n
/-- A signalling NaN. -/
def FV.isSig : FV → Bool
  | .nan s => s
  | _ => false
/-- A NaN. -/
def FV.isNan : FV → Bool
  | .nan _ => true
  | _ => false
/-- A zero of either sign. -/
def FV.isZero : FV → Bool
  | .fin _ m _ => m == 0
  | _ => false
/-- The value with the opposite sign. -/
def FV.negate : FV → FV
  | .nan s => .nan s
  | .inf n => .inf !n
  | .fin n m e => .fin (!n) m e
/-- The magnitude. -/
def FV.abs : FV → FV
  | .nan s => .nan s
  | .inf _ => .inf false
  | .fin _ m e => .fin false m e

/-- A signed integer as an exact value times `2^e`; zero takes the given sign. -/
def ofInt (z : Int) (e : Int) (negZero : Bool) : FV :=
  if z = 0 then .fin negZero 0 0 else .fin (decide (z < 0)) z.natAbs e
/-- The signed mantissa of a finite value. -/
def signedM (neg : Bool) (m : Nat) : Int := if neg then - (m : Int) else m

/-- The exact sum (R98, Table 6.3); an exact zero takes the sign that IEEE 754 gives for the mode (R96). -/
def fvAdd (rm : RM) : FV → FV → FV × Flags
  | .nan s, b => (.nan false, flagIf (s || b.isSig) fNV)
  | a, .nan s => (.nan false, flagIf (s || a.isSig) fNV)
  | .inf x, .inf y => if x = y then (.inf x, 0) else (.nan false, fNV)
  | .inf x, .fin _ _ _ => (.inf x, 0)
  | .fin _ _ _, .inf y => (.inf y, 0)
  | .fin x m e, .fin y n g =>
    if m = 0 ∧ n = 0 then (.fin (if x = y then x else rm == 3) 0 0, 0)
    else if m = 0 then (.fin y n g, 0)
    else if n = 0 then (.fin x m e, 0)
    else
      let q := min e g
      (ofInt (signedM x m * 2 ^ (e - q).toNat + signedM y n * 2 ^ (g - q).toNat) q (rm == 3), 0)

/-- The exact product (R98, Table 6.3). -/
def fvMul : FV → FV → FV × Flags
  | .nan s, b => (.nan false, flagIf (s || b.isSig) fNV)
  | a, .nan s => (.nan false, flagIf (s || a.isSig) fNV)
  | .inf x, .inf y => (.inf (x != y), 0)
  | .inf x, .fin y n _ => if n = 0 then (.nan false, fNV) else (.inf (x != y), 0)
  | .fin x m _, .inf y => if m = 0 then (.nan false, fNV) else (.inf (x != y), 0)
  | .fin x m e, .fin y n g => (.fin (x != y) (m * n) (e + g), 0)

/-- `a × b + c`, exact. DESIGN CHOICE: 0 × ∞ with a quiet NaN as the addend raises no flag; Table 6.3 marks 0 × ∞ with NV, and whether the product
of this case counts is what IEEE 754-2019 leaves open and the spec does not say (log 87). -/
def fvFma (rm : RM) (a b c : FV) : FV × Flags :=
  if a.isNan || b.isNan || c.isNan then (.nan false, flagIf (a.isSig || b.isSig || c.isSig) fNV)
  else
    let p := fvMul a b
    let r := fvAdd rm p.1 c
    (r.1, p.2 ||| r.2)

/-- How many bits a quotient or root carries before its sticky bit: more than every format's precision needs. -/
def guardBits : Nat := 64

/-- The quotient, as enough bits and a sticky last bit that every rounding of R96 takes as it would take the exact one. -/
def fvDiv : FV → FV → FV × Flags
  | .nan s, b => (.nan false, flagIf (s || b.isSig) fNV)
  | a, .nan s => (.nan false, flagIf (s || a.isSig) fNV)
  | .inf _, .inf _ => (.nan false, fNV)
  | .inf x, .fin y _ _ => (.inf (x != y), 0)
  | .fin x _ _, .inf y => (.fin (x != y) 0 0, 0)
  | .fin x m e, .fin y n g =>
    if n = 0 then (if m = 0 then (.nan false, fNV) else (.inf (x != y), fDZ))
    else if m = 0 then (.fin (x != y) 0 0, 0)
    else
      let k := guardBits + bitLen n
      let t := m * 2 ^ k
      (.fin (x != y) (2 * (t / n) + (if t % n = 0 then 0 else 1)) (e - g - k - 1), 0)

/-- The integer square root, from the `k` highest pairs of bits down. -/
def isqrt : Nat → Nat → Nat
  | 0, _ => 0
  | k + 1, n =>
    let r := 2 * isqrt k (n / 4)
    if (r + 1) * (r + 1) ≤ n then r + 1 else r

/-- The square root, with a sticky last bit (Table 6.3 for its special cases). -/
def fvSqrt : FV → FV × Flags
  | .nan s => (.nan false, flagIf s fNV)
  | .inf n => if n then (.nan false, fNV) else (.inf false, 0)
  | .fin neg m e =>
    if m = 0 then (.fin neg 0 0, 0)
    else if neg then (.nan false, fNV)
    else
      -- an even exponent, and at least `guardBits` bits of root
      let k := 2 * guardBits + (if (e - 2 * guardBits) % 2 = 0 then 0 else 1)
      let t := m * 2 ^ k
      let r := isqrt (bitLen t / 2 + 1) t
      (.fin false (2 * r + (if r * r = t then 0 else 1)) ((e - k) / 2 - 1), 0)

/-- One over the square root, with a sticky last bit. -/
def fvRsqrt : FV → FV × Flags
  | .nan s => (.nan false, flagIf s fNV)
  | .inf n => if n then (.nan false, fNV) else (.fin false 0 0, 0)
  | .fin neg m e =>
    if m = 0 then (.inf neg, fDZ)
    else if neg then (.nan false, fNV)
    else
      -- 1 / sqrt (m 2^e) with e made even: floor (2^k / sqrt m) by way of floor (2^2k / m)
      let m' := if e % 2 = 0 then m else 2 * m
      let e' := if e % 2 = 0 then e else e - 1
      let k := guardBits + bitLen m'
      let t := 2 ^ (2 * k)
      let r := isqrt (bitLen t / 2 + 1) (t / m')
      (.fin false (2 * r + (if r * r * m' = t then 0 else 1)) (- e' / 2 - k - 1), 0)

/-- Compares two finite values or infinities: negative, zero or positive as the first is less, equal or greater; −0 equals +0. -/
def fvCmp : FV → FV → Int
  | .inf x, .inf y => (if x = y then 0 else if x then -1 else 1)
  | .inf x, _ => if x then -1 else 1
  | _, .inf y => if y then 1 else -1
  | .fin x m e, .fin y n g =>
    let q := min e g
    let a := signedM x m * 2 ^ (e - q).toNat
    let b := signedM y n * 2 ^ (g - q).toNat
    if a < b then -1 else if a = b then 0 else 1
  | _, _ => 0

/-- `lt`: false with NV where an input is a NaN (Table 6.3). -/
def fvLt (a b : FV) : Bool × Flags :=
  if a.isNan || b.isNan then (false, fNV) else (decide (fvCmp a b < 0), 0)
/-- `le`: false with NV where an input is a NaN (Table 6.3). -/
def fvLe (a b : FV) : Bool × Flags :=
  if a.isNan || b.isNan then (false, fNV) else (decide (fvCmp a b ≤ 0), 0)
/-- `eq`: false where an input is a NaN, NV where one is signalling (Table 6.3). -/
def fvEq (a b : FV) : Bool × Flags :=
  if a.isNan || b.isNan then (false, flagIf (a.isSig || b.isSig) fNV) else (decide (fvCmp a b = 0), 0)

/-- The smaller of two values; −0 is smaller than +0; a NaN input gives the canonical NaN (Table 6.3). -/
def fvMin (a b : FV) : FV × Flags :=
  if a.isNan || b.isNan then (.nan false, flagIf (a.isSig || b.isSig) fNV)
  else if fvCmp a b < 0 then (a, 0)
  else if fvCmp a b = 0 then (if a.neg then a else b, 0)
  else (b, 0)
/-- The larger of two values. -/
def fvMax (a b : FV) : FV × Flags :=
  if a.isNan || b.isNan then (.nan false, flagIf (a.isSig || b.isSig) fNV)
  else if fvCmp a b < 0 then (b, 0)
  else if fvCmp a b = 0 then (if a.neg then b else a, 0)
  else (a, 0)

/-- Rounds a finite value to an integer under a mode: the integer, and whether it differs (R112). -/
def roundInt (rm : RM) (neg : Bool) (m : Nat) (e : Int) : Int × Bool :=
  let r := roundAt rm neg m e 0
  (signedM neg r.1, r.2)

/-- FP to an integer range (R112, Table 6.3): rounded under the mode, then a NaN gives 0 and a value out of range the nearest bound,
each with NV; NX where the value is not an integer. -/
def fvToInt (rm : RM) (lo hi : Int) : FV → Int × Flags
  | .nan _ => (0, fNV)
  | .inf n => (if n then lo else hi, fNV)
  | .fin neg m e =>
    let r := roundInt rm neg m e
    if r.1 < lo then (lo, fNV) else if hi < r.1 then (hi, fNV) else (r.1, flagIf r.2 fNX)

/-- What governs one rounding: the mode, whether FP8 saturates (R97), whether it is a chain step into the chain format. -/
structure RoundCtl where
  rm : RM
  sat : Bool
  chain : Bool
  deriving DecidableEq, Repr

/-- Rounds the exact result of an operation under Table 6.2: into the destination format with all flags, or into the chain format
with NV only. -/
def finish (rc : RoundCtl) (f : Fmt) (x : FV × Flags) : FV × Flags :=
  if rc.chain then
    let r := roundTo .chain 0 false x.1
    (r.1, (x.2 ||| r.2) &&& fNV)
  else
    let r := roundTo f rc.rm rc.sat x.1
    (r.1, x.2 ||| r.2)

/-- `AmaxUpdate` on one value (R107): the new magnitude pattern and NaN bit. -/
def amaxUpdate (x : FV) (a : Nat × Bool) : Nat × Bool :=
  if x.isNan then (a.1, true) else (max a.1 (pack .fp32 (roundTo .fp32 2 false x.abs).1), a.2)

/-- `amo.fadd` on one element (R109): nearest even, no flag. -/
def fadd (f : Fmt) (a b : Nat) : Nat :=
  pack f (roundTo f 0 false (fvAdd 0 (unpack f a) (unpack f b)).1).1

end Sys2Proof.Machine
end

