-- ==== Sys2Proof/Machine/State.lean ====
section
/-! DEFINITION. The machine's state, as plain data: every piece of state that the spec gives the machine (02_state and the tables the
field comments name), and its value after reset. -/

namespace Sys2Proof.Machine
open Sys2Proof

/-- A table by number: strictly rising keys, and no entry equal to what an unlisted key reads as. -/
abbrev Sparse (α : Type) := List (Nat × α)

/-- Why the machine stops where the spec gives no next state. -/
inductive Fault
  /-- A slot operation is run on a core that holds no running context with a bundle in issue: no rule says what it would do.
  Raised by every slot operation. Safe. -/
  | noContext
  deriving DecidableEq, Repr

/-- Why an instruction has no meaning here. -/
inductive Refusal
  /-- The instruction has not been given its meaning. Safe. -/
  | notModelled (mnemonic : String)
  deriving DecidableEq, Repr

/-- A capability and its out-of-band tag (R21, R341). -/
structure Cap where
  val : BitVec 128
  tag : Bool
  deriving DecidableEq, Repr

/-- A record of 64 bytes, byte 0 least significant (Table 17.1). -/
abbrev Rec := BitVec 512

/-- What a result is written to. Rows are of a bank (R22); staging registers are numbered as in Table 7.8. -/
inductive Dst
  | s (n : Nat) | p (n : Nat) | m (n : Nat) | lc (n : Nat) | k (n : Nat)
  | row (bank row : Nat) | stage (n : Nat) | hstat
  deriving DecidableEq, Repr

/-- A value of a result: a row carries the mask of the bytes it changes (R25), a staging word the mask of its bits (R132). -/
inductive RVal
  | word (v : Word) (mask : Word)
  | bit (v : Bool)
  | mask (v : Mask)
  | row (v : Row) (bytes : Mask)
  | cap (v : Cap)
  deriving DecidableEq, Repr

/-- An entry of a scalar ring: 64 bits or one chain value (R50). -/
inductive RingB
  | bits (w : Word)
  | chain (v : FV)
  deriving DecidableEq, Repr

/-- An entry of a vector ring: a row, or lanes in the chain format with their producer's element type (R50, R52). -/
inductive RingW
  | bits (r : Row)
  | chain (ty : BitVec 3) (lanes : List FV)
  deriving DecidableEq, Repr

/-- What a result brings to its slot's ring. -/
inductive RingVal
  | none
  | b (v : RingB)
  | w (v : RingW)
  deriving DecidableEq, Repr

/-- A result that has issued (R44 to R46, R28): its slot and position, the position of the slot's issue at which it is written, whether
its latency is variable and whether it has then completed, whether its slot's divider makes it (R122), what it writes, what it pushes, and the flags and AMAX it raises. -/
structure Fly where
  slot : Slot
  pos : Nat
  due : Nat
  var : Bool
  done : Bool
  divider : Bool
  dst : Option (Dst × RVal)
  ring : RingVal
  pushed : Bool
  flags : Flags
  amax : Nat
  amaxNan : Bool
  /-- the system register that it reads, which hardware changes, and `FOLDSEL`: the value is of some moment until it completes (R130) -/
  live : Option (Nat × Nat) := none
  deriving DecidableEq, Repr

/-- A hardware loop: the counter, the offsets of the body's first bundle and of the bundle after it, and whether it is active (R76 to R78). -/
structure Loop where
  count : BitVec 32
  start : Nat
  stop : Nat
  active : Bool
  deriving DecidableEq, Repr

/-- The paths of accesses (Table 15.1). -/
inductive Path | p | v | m | x | h | n
  deriving DecidableEq, Repr

/-- What a held write does when it performs (R220, R232, R246, R278, R318, R324, R326). Offsets are object offsets. -/
inductive HeldOp
  /-- bytes at given offsets -/
  | bytes (data : List (Nat × Byte))
  /-- a capability's 16 bytes with its tag -/
  | cap (c : Cap)
  /-- a reduction without a result: operation, width in bytes, operand -/
  | red (aop : BitVec 4) (bf2 : Bool) (n : Nat) (v : Word)
  /-- bytes in another scratchpad than the capability's (R245) -/
  | other (obj : Nat) (data : List (Nat × Byte))
  /-- elements of a reducing copy: operation, the operand of each element with its offset -/
  | elems (rop : Nat) (data : List (Nat × Nat))
  /-- `spawn` into a pasture -/
  | spawn (pid : Nat)
  /-- `fold.arrive` for a `FOLDM` entry -/
  | arrive (entry : Nat) (fid : Nat)
  /-- `wakew` of so many records -/
  | wake (count : Nat) (scope : Nat)
  /-- remote bytes of a row of a command: kind 0 PUT, 1 FADD, 2 FADD of BF16, 3 PERMIT (R250, R251, R253) -/
  | remote (kind cmd row : Nat) (pv : Bool) (pmt : Word) (count dur : Nat) (data : List Byte)
  /-- an atomic tile: every byte in one event -/
  | tile (data : List (Nat × Byte))
  /-- a part of a group drain -/
  | part (data : List (Nat × Byte)) (gid cmd cls pitch : Nat)
  deriving DecidableEq, Repr

/-- A party of the perform order (R266): a context, by its record's frame or, for firmware, by its core; or a fabric peer, by its
connection. -/
inductive Party
  | frame (obj off : Nat)
  | core (n : Nat)
  | peer (conn : Nat)
  deriving DecidableEq, Repr

/-- What an act of the perform order is (R267): a read, whether it acquires, with the numbers of the writes that it read; a write, whether it
releases; an `amo`, or another atomic, that reads and writes; or a fence with its classes, its paths, and whether it is a `fence.x`. -/
inductive ActKind
  | read (acq : Bool) (src : List Nat)
  | write (rel : Bool)
  | atomic (amo : Bool) (src : List Nat)
  | fence (cmask : BitVec 16) (paths : BitVec 6) (x : Bool)
  deriving DecidableEq, Repr

/-- An act of the perform order: its number, its party and the core where it issued (none for a peer), its place in the party's program order
(segment, position, slot), path, class (16: every class), scope, the bytes of an object that it touches, whether it was held, the tile that
an engine's access is of or that gates it, and what it is. -/
structure Act where
  id : Nat
  party : Party
  core : Option Nat
  prog : Nat × Nat × Nat
  path : Path
  cls : Nat
  scope : Nat
  obj : Nat
  off : Nat
  len : Nat
  held : Bool
  tile : Option Nat
  kind : ActKind
  /-- a write's: the bytes as they stood before it (R277) -/
  old : List Byte := []
  deriving DecidableEq, Repr

/-- A write held in the porch (R232, R233): its path and class (16: every class), whether it is a release, the number of fences and
spill barriers before it, the capability it was made under and its first offset and length, and what it does. -/
structure Held where
  path : Path
  cls : Nat
  rel : Bool
  scope : Nat
  group : Nat
  slot : Slot
  pos : Nat
  cap : Cap
  off : Nat
  len : Nat
  /-- the fold whose PENDING its bytes decrement as they land (R242) -/
  fold : Option Nat
  /-- the copy command that made it: its number, and the tiles that it names, none once a cancellation finds it complete (R255) -/
  cmd : Option (Nat × List Nat)
  /-- the tile that an engine writes by it (Table 15.3 clause 8) -/
  tile : Option Nat
  op : HeldOp
  /-- the bytes of its single-copy atomic units (Table 15.2): 0 where it performs in one event, 16 for aligned blocks -/
  unit : Nat := 0
  /-- whether the commit or spill in progress performs it (R232, R408) -/
  due : Bool := false
  /-- whether its units perform in order (R248) -/
  ordered : Bool := false
  /-- the spans of memory that its whole command writes, where it is a part of one (R194) -/
  cover : List (Nat × Nat) := []
  deriving DecidableEq, Repr

/-- The saved registers of a context: what a save area holds beside the record's own copy (Table 18.3). -/
structure Saved where
  next : Nat
  status : Word
  waitv : Word
  fmt : BitVec 32
  vtype : BitVec 32
  vwin : BitVec 32
  vact : BitVec 32
  fpctl : BitVec 32
  amax : BitVec 32
  budget : BitVec 32
  smask : BitVec 24
  foldm : Word
  pmt : Word
  pred : BitVec 4
  farm : BitVec 8
  lc0 : Loop
  lc1 : Loop
  sregs : Sparse Word
  keys : Sparse Cap
  masks : Sparse Mask
  deriving DecidableEq, Repr

/-- An event for a shepherd (R389, R391): the fields of its trap record. -/
structure TrapEv where
  /-- the unit that it comes from, as Table 25.9 numbers them -/
  unit : Nat
  kind : Nat
  reason : Nat
  slot : Nat
  hdr : Bool
  paddock : Nat
  codeObj : Nat
  base : Nat
  deltas : List Int
  frameObj : Nat
  frameOff : Nat
  addrObj : Nat
  addrOff : Nat
  arg : Word
  seq : Nat
  core : Nat
  time : Nat
  deriving DecidableEq, Repr

/-- What a core does with its context. -/
inductive Mode
  /-- it issues bundles -/
  | run
  /-- frozen by a resumable event; its record's TRAPID once delivered (R389, R392) -/
  | frozen (ev : TrapEv) (trapId : Option Nat)
  /-- a shepherd or the housekeeper after `halt` (R374) -/
  | halted
  /-- a context whose journal's messages are not all acknowledged yet, so many of them sent (R410) -/
  | resending (sent : Nat)
  /-- a context whose segment is aborted and whose save area waits to be written (R290, R350) -/
  | aborting
  deriving DecidableEq, Repr

/-- A bundle that some slot has still to issue (R33 to R43): its bits, and `LEFT` just after it was counted (R29); the slots with an operation
still to issue, and those with a literal or a `nop`; the slots that its join covers, and those that have come to it, with the guards that
they read there (R38); the next bundle that a transfer has chosen; whether a slot waits; whether an input has chosen the slot that issues
(log 31); the operands that an operation has read at its issue and keeps while it waits, by slot. -/
structure Issue where
  bits : BitVec 256
  left : BitVec 32
  pending : List Slot
  idle : List Slot
  join : List Slot
  here : List Slot
  guards : BitVec 8
  target : Option Nat
  jumped : Bool
  waiting : Bool
  alone : Bool
  caught : List (Nat × List Nat)
  suspended : Option (List Nat)
  deriving DecidableEq, Repr

/-- A bundle of the path with its position and offset, while slots stand at different ones (R40). -/
structure Slipped where
  pos : Nat
  pc : Nat
  issue : Issue
  deriving DecidableEq, Repr

/-- Flags and `AMAX` that results of a position have raised, while a write of them at or before that position may still come (R28). -/
structure Raised where
  pos : Nat
  flags : Flags
  amax : Nat
  amaxNan : Bool
  deriving DecidableEq, Repr

/-- A context (Table 2.1) with what is in flight in it. -/
structure Ctx where
  /-- the record as the pickup found it (Table 17.1), with SEQ counted (R290) -/
  record : Rec
  /-- whether the context came from a record; firmware contexts do not -/
  hasRecord : Bool
  /-- the generation of the frame capability that the pickup built (R312) -/
  frameGen : Nat
  paddock : Nat
  codeObj : Nat
  /-- offset of the bundle in issue, or of the next one -/
  pc : Nat
  /-- position of that bundle in the segment (R39) -/
  pos : Nat
  mode : Mode
  /-- the bundle whose slot issues next: the oldest that a slot has still to issue, but while an input has chosen another slot -/
  issue : Option Issue
  /-- the other bundles of the path that some slot has issued and some has not, by position (R40) -/
  slip : List Slipped
  /-- resumable events that wait behind another (R393) -/
  pend : List TrapEv
  s : Sparse Word
  p : BitVec 4
  lc0 : Loop
  lc1 : Loop
  k : Sparse Cap
  m : Sparse Mask
  bA : List RingB
  bB : List RingB
  wA : List RingW
  wB : List RingW
  /-- staging registers, numbered as in Table 7.8 -/
  stage : Sparse Word
  fmt : BitVec 32
  fmtQ : List (Nat × BitVec 32)
  vtype : BitVec 32
  vtypeQ : List (Nat × BitVec 32)
  vwin : BitVec 32
  vwinQ : List (Nat × BitVec 32)
  vact : BitVec 32
  vactQ : List (Nat × BitVec 32)
  /-- the control fields of `FPCTL` [4:0] -/
  fpc : BitVec 5
  fpcQ : List (Nat × BitVec 5)
  /-- the sticky flags that have completed, and the position before which flags still to come are discarded (R28) -/
  flags : Flags
  flagsFrom : Nat
  amax : BitVec 32
  amaxNan : Bool
  amaxFrom : Nat
  /-- what results of the positions that the CF slot has still to issue have raised -/
  raised : List Raised
  budget : BitVec 32
  foldm : Word
  /-- ARM of the four entries in [3:0], AP in [7:4] (R326) -/
  farm : BitVec 8
  replay : Bool
  spilled : Bool
  pmt : Word
  hstat : Word
  foldSel : BitVec 10
  foldLo : Option Word
  tvec : Word
  trapRet : Word
  /-- writes of `TRAPRET` by `sys.wr`, newest first, with their positions (R115, R130) -/
  trapRetQ : List (Nat × Word)
  /-- delivery held until `rfe` (R373) -/
  held : Bool
  /-- results that have issued (R44 to R46) -/
  fly : List Fly
  /-- the position of the last join of each pair of slots: key 8 x + y, value position + 1 (R41, R46) -/
  joins : Sparse Nat
  porch : List Held
  /-- fences so far: writes held on different sides of one are in different groups (R232, R233) -/
  group : Nat
  /-- the fences that have issued and are not complete, in order (R229 to R231) -/
  fencing : List Act
  /-- the `seg.mark`s and stays since the pickup: the segments of one pickup (R39) -/
  segNo : Nat
  /-- a commit or spill has performed some of its writes and not yet all (R232, R234, R408) -/
  committing : Bool
  /-- the held writes marked `due` are a spill's (R233) -/
  spilling : Bool
  /-- the event that ends the context once that commit is complete (R232, R408) -/
  doomed : Option TrapEv
  /-- ring slots that the commit in progress has reserved, by pasture (R319) -/
  reserved : List Nat
  /-- the slot whose commit waits for room in a ring: the core runs nothing else (R319) -/
  ringWait : Option Slot
  /-- a forced park takes effect at the next bundle (R48, R372) -/
  parkAsked : Bool
  /-- the segment-start state that an abort returns to (R20, R290) -/
  start : Saved
  /-- whether the segment began at a first pickup, so that its record is written back as launched (R290) -/
  firstSeg : Bool
  deriving DecidableEq, Repr

/-- A matrix command with the values it captured (R161 to R178): kind 1 `mma`, 2 `macc.clr`, 3 `macc.ld`, 4 `macc.st`. -/
structure MxCmd where
  kind : Nat
  pos : Nat
  /-- the fences before it (R233) -/
  group : Nat
  bank : Nat
  /-- the tile entries captured, and the numbers of the tiles -/
  tiles : List (BitVec 128)
  names : List Nat
  /-- the generations of the tiles' spaces at issue (R354) -/
  gens : List Nat := []
  ms0 : Word
  fmt : BitVec 32
  fpctl : BitVec 5
  z : Bool
  tb : Bool
  sp : Bool
  row0 : Nat
  rows : Nat
  started : Bool
  /-- rows done, and the next element of the row in progress -/
  done : Nat
  col : Nat
  /-- the assist area holds its entries; it is paused (R396) -/
  assisted : Bool
  paused : Bool
  /-- rows that a store has read -/
  acc : Sparse Row
  deriving DecidableEq, Repr

/-- Bytes of a command's row that it has still to read: the tile's row, the first byte in the row, the count, and the object offset of that byte
in memory. -/
structure CpPart where
  row : Nat
  col : Nat
  len : Nat
  mem : Nat
  deriving DecidableEq, Repr

/-- A copy command with the values it captured (R238 to R255). -/
structure CpCmd where
  id : Nat
  /-- the command: its op6 of Table 14.3; a `cp.rma` that is a GET is 12 -/
  kind : Nat
  pos : Nat
  /-- the fences before it (R229) -/
  group : Nat
  tileNo : Nat
  tile : BitVec 128
  cap : Cap
  /-- the tiles that it names (R255) -/
  names : List Nat
  /-- what it has still to read -/
  rows : List CpPart
  /-- the bytes that it addresses: object, first offset, length -/
  spans : List (Nat × Nat × Nat)
  /-- the handle that a bound tile's fill waits for (R259) -/
  handle : Option Nat
  mask : BitVec 48
  rop : Nat
  /-- K, columns, the offset of the counts where they are written -/
  topk : Nat
  cols : Nat
  counts : Option Nat
  gid : Nat
  pitch : Nat
  pv : Bool
  pmt : Word
  atomic : Bool
  cls : Nat
  /-- whether its writes are held (R241) -/
  held : Bool
  /-- the generation of the tile's space at issue (R354) -/
  tileGen : Nat := 0
  /-- whether a row has been read -/
  begun : Bool
  /-- units read and still to land in the core's own scratchpad: row, bytes with their offsets (Table 15.2) -/
  moves : List (Nat × List (Nat × Byte))
  deriving DecidableEq, Repr

/-- An element that needs the subnormal assist (R105, Table 24.4). -/
structure AssistEnt where
  acc : Nat
  row : Nat
  col : Nat
  chunk : Nat
  deriving DecidableEq, Repr

/-- A core with the state that belongs to it and not to a context. -/
structure Core where
  ctx : Option Ctx
  /-- accumulator rows: key 128 × bank + row (R22) -/
  acc : Sparse Row
  wm0 : BitVec 8
  wm1 : BitVec 8
  accOwn : BitVec 2
  /-- changes of owner that govern only the positions after the one they stand with, newest first (R175) -/
  accOwnQ : List (Nat × BitVec 2)
  tiles : Sparse (BitVec 128)
  /-- tiles that wait for a fold's completion: tile, fold (R260) -/
  marks : List (Nat × Nat)
  lut : BitVec 16384
  mx : List MxCmd
  cp : List CpCmd
  cpNext : Nat
  /-- the command whose elements the assist area holds, and whether its trap is raised (R396) -/
  assist : List AssistEnt
  assistPaused : Bool
  assistTrap : Bool
  pfDrop : Word
  retired : Bool
  /-- times of the last uncorrectable errors in the core's own state, newest first (R405) -/
  errTimes : List Nat
  /-- a self-test must run before the core takes a record (R405) -/
  selfTest : Bool
  deriving DecidableEq, Repr

/-- A buffered record of a pen (R297): the record, when it entered, the object and offset it was read from, and whether that was its frame,
through the return lane. -/
structure Buffered where
  record : Rec
  since : Nat
  source : Nat × Nat
  fromLane : Bool
  deriving DecidableEq, Repr

/-- An entry of a return lane: a frame, with the record itself where a pen gave back one that no core has picked up (log 28). -/
structure LaneEnt where
  frameObj : Nat
  frameOff : Nat
  record : Option (Rec × (Nat × Nat))
  deriving DecidableEq, Repr

/-- A pen (R297, R299). -/
structure Pen where
  pasture : Option Nat
  since : Nat
  lastGave : Nat
  credit : Int
  buf : List Buffered
  deriving DecidableEq, Repr

/-- Why a record is PARKED (R321, R327, R330) or in the PINFOLD (R400). -/
inductive WakeOn
  /-- a watch: the word's width, the condition, the value, the scope, the object and offset of the word, the generation and the
  paddock it was reached under -/
  | word (n : Nat) (cond : Nat) (v : Word) (scope : Nat) (obj off gen pad : Nat)
  | fold (fid : Nat) (phase : Bool) (entry : Nat)
  | handle (h : Nat)
  /-- an entry of a pinfold ring with the PRIO of its record; the STATE by which the pager has resolved it, 0 while it is pending (R401) -/
  | pinfold (cluster seq prio answer : Nat)
  deriving DecidableEq, Repr

/-- A record that waits: its frame and pasture, on what and since when. -/
structure Waiting where
  frameObj : Nat
  frameOff : Nat
  pasture : Nat
  on : WakeOn
  since : Nat
  /-- the act of the operation by which it waits, as its wake acquires (R306, R321) -/
  act : Act
  deriving DecidableEq, Repr

/-- A record in state RETURNING that no return lane holds yet (R293), in the order of the events that moved them. -/
structure Returning where
  frameObj : Nat
  frameOff : Nat
  pasture : Nat
  /-- STATUS, and the `FOLDM` entry whose ARM is cleared, where they are still to be written: the frame's space is being cleared (R350) -/
  status : Option (Nat × Option Nat) := none
  /-- the cluster and PRIO of the pinfold ring that it left, whose order it keeps (R401) -/
  pin : Option (Nat × Nat) := none
  deriving DecidableEq, Repr

/-- A weight handle's state (R263): STATE, ERR, pins and the request's progress. -/
structure Handle where
  state : Nat
  err : Nat
  pins : Nat
  landed : Nat
  deriving DecidableEq, Repr

/-- A request in a Drover (R263). -/
structure DroverReq where
  handle : Nat
  demand : Bool
  sent : Bool
  core : Nat
  paddock : Nat
  deriving DecidableEq, Repr

/-- A message that a connection has sent and that is not acknowledged (R283, R214). -/
structure Message where
  seq : Nat
  kind : Nat
  obj : Nat
  off : Nat
  gen : Nat
  /-- the right that it carries (R361) -/
  right : Nat
  len : Nat
  data : List Byte
  core : Nat
  cmd : Nat
  row : Nat
  /-- the byte of the row at which it begins -/
  col : Nat
  /-- when it was first sent (R409) -/
  sent : Nat
  /-- its place among the messages that the package has sent: the number of acts before it (R409) -/
  order : Nat := 0
  deriving DecidableEq, Repr

/-- A remote or group command whose outcome is still open (R252): where its status word goes, the messages still to be answered for each
row, the rows that failed, the successes, and the status so far. -/
structure Tracked where
  core : Nat
  cmd : Nat
  kind : Nat
  /-- the class of the command (R218) -/
  cls : Nat
  sv : Bool
  soff : Nat
  /-- rows not performed and not sent yet -/
  unsent : Nat
  /-- messages still to be answered, by row -/
  rows : Sparse Nat
  bad : List Nat
  good : Nat
  code : Nat
  reason : Nat
  stopped : Bool
  /-- the fold of its tile (R242), the tiles that it names, and the frame of its context -/
  fold : Option Nat
  names : List Nat
  owner : Nat × Nat
  deriving DecidableEq, Repr

/-- An entry of the peer table (Table 23.1): address, VLAN, paddock, connection limit, whether its connections are for management (R387), the
egress ceiling in Gbit/s, and the ports toward it, bit n for `ethn` (R413). -/
structure Peer where
  addr : Nat
  vlan : Nat
  paddock : Nat
  limit : Nat
  management : Bool
  ceiling : Nat
  ports : Nat
  deriving DecidableEq, Repr

/-- A fabric connection (R213, R214, R283, R307): its port and its peer's place in the peer table, whether its peer has received a report and
whether it has completed attestation (R387), the
next number and the unacknowledged messages as a sender, the next expected number and the statuses of the last 4,096, newest first, as a
responder, the landing count with the lease's end in units of 1,024 ns, the last answer sent: number, status, data, and the units of the expected
message that have performed (R269). -/
structure Conn where
  up : Bool
  port : Nat
  peer : Nat
  reported : Bool
  attested : Bool
  nextSeq : Nat
  unacked : List Message
  expected : Nat
  window : List Nat
  landed : Nat
  lease : Nat
  failed : Bool
  answer : Option (Nat × Nat × List Byte)
  begun : List Nat
  deriving DecidableEq, Repr

/-- A fabric port (R212, R413): its link, its counts, and the addresses, VLAN tag and DSCP value of its configuration. -/
structure Port where
  up : Bool
  dropped : Nat
  discarded : Nat
  ipv4 : Nat
  ipv6 : Nat
  vlan : Nat
  dscp : Nat
  deriving DecidableEq, Repr

/-- An on-package link (R412). -/
structure Link where
  replays : Nat
  consecutive : Nat
  training : Bool
  deriving DecidableEq, Repr

/-- Where a line of a slice stands (R206, R208 to R210): in a way; in the buffer of the agent of a slice that has no way in use; or on its
way out, dirty and readable until its write-back may proceed. -/
inductive Place
  | way (n : Nat)
  | buffer
  | leaving
  deriving DecidableEq, Repr

/-- A line of an L2 slice (R208, R192): object, line number, home slice, place, the valid bytes, the dirty sectors, and the delivered data of
a page that converts or lies in the Cellar. An atomic tile's lock on a line holds within its one event alone (R246), so no field holds it. -/
structure Line where
  obj : Nat
  line : Nat
  home : Nat
  place : Place
  valid : BitVec 256
  dirty : BitVec 2
  data : BitVec 2048
  deriving DecidableEq, Repr

/-- An entry of a write queue (R280): stack, pseudo-channel, physical address, and one 64-byte burst with its byte mask. -/
structure Burst where
  stack : Nat
  chan : Nat
  addr : Nat
  data : BitVec 512
  mask : BitVec 64
  deriving DecidableEq, Repr

/-- A cached translation (R353): an object entry (`page` none) or a page entry. -/
structure Xlat where
  obj : Nat
  page : Option Nat
  val : Nat
  deriving DecidableEq, Repr

/-- The change of split of a vault (Table 12.3). -/
structure Phase where
  tgt : Nat
  cur : Nat
  busy : Bool
  deriving DecidableEq, Repr

/-- A part of a group drain that is staged at its quad (R254). -/
structure GroupPart where
  core : Nat
  gid : Nat
  cmd : Nat
  data : List (Nat × Byte)
  since : Nat
  cap : Cap
  off : Nat
  cls : Nat
  pitch : Nat
  fold : Option Nat
  closed : Bool
  deriving DecidableEq, Repr

/-- A programmed block of 64 KiB of a Cellar stack (R417): its number, the hash it is indexed by while it is, its count of references, and its
bytes while it is indexed. -/
structure Block where
  id : Nat
  hash : Option Nat
  count : Nat
  data : List Byte
  deriving DecidableEq, Repr

/-- A Cellar stack (Table 25.8, R381, R416, R417): the counts of its health entry, the bytes programmed in the present 1 h slice and when it began, the
flash pages whose reads fail, the bytes of such a page programmed since it failed, its programmed blocks, and the block that each 64 KiB of its stored bytes refers to, its number plus 1. -/
structure Cellar where
  uncorr : Nat
  reloc : Nat
  /-- bytes programmed since manufacture -/
  prog : Nat
  badblk : Nat
  spare : Nat
  wear : Nat
  wearmax : Nat
  state : Nat
  slice : Nat
  sliceStart : Nat
  failed : List Nat
  mended : Sparse (BitVec 16384)
  blocks : List Block
  refs : Sparse Nat
  nextBlock : Nat
  deriving DecidableEq, Repr

/-- A request that a controller holds because it has spent its count (R15, R309): the stack, the object, the offset of a sector that it reads or of
a line that it writes back, and which. -/
structure HeldReq where
  dev : Nat
  obj : Nat
  off : Nat
  write : Bool
  deriving DecidableEq, Repr

/-- The power arbiter (R15, R309, R382): `tsteps`, `ceil` and `die`, the tenths of a watt of each consumer (dies 0 and 1, then stacks 0 to 15),
the bytes that each stack's controller may still serve in this interval, those that each Cellar stack may still program, and the requests
that controllers hold, oldest first. -/
structure Arbiter where
  tsteps : Nat
  ceil : Nat
  die : Nat
  alloc : List Nat
  bytes : List Nat
  writes : List Nat
  held : List HeldReq
  deriving DecidableEq, Repr

/-- The event recorder (R418 to R420). -/
structure Recorder where
  entries : Sparse (BitVec 256)
  next : Nat
  frozen : Bool
  fseq : Nat
  deriving DecidableEq, Repr

/-- How far boot has come (R384): the ROM is still to run, or the housekeeper's image runs alone; both copies have failed; level S runs. -/
inductive Boot | rom | recovery | running
  deriving DecidableEq, Repr

/-- An attestation report (R387) with its signature. -/
structure Report where
  nonce : List Byte
  bootCount : Nat
  digests : List Nat
  minima : List Nat
  fused : List Nat
  time : Nat
  signature : Nat
  deriving DecidableEq, Repr

/-- The identity key and its reports (R386, R387): the top tree's index in the fuse counter, the next leaf of the lower tree, the
last report, the digests of the images that boot accepted. -/
structure Attest where
  top : Nat
  leaf : Nat
  report : Option Report
  images : List Nat
  deriving DecidableEq, Repr

/-- What a step of the hardware or of the outside acts on: the table's rows without an encoding say what they act on in words. Each
meaning's docstring says which fields it reads (log 3). -/
structure EventArgs where
  core : Nat
  id : Nat
  seq : Nat
  obj : Nat
  off : Nat
  gen : Nat
  len : Nat
  val : Word
  flag : Bool
  code : Nat
  /-- the rights that a message carries, bit n for right n (R214) -/
  rights : Nat
  data : List Byte
  nats : List Nat
  frame : Frame
  loc : ErrLoc
  act : CellarAct
  slot : Slot
  deriving DecidableEq, Repr

/-- What comes next from the world around the cores: time passes, another core moves, a slot of the core that moves issues its next bundle before
the others (R40), an operation of several single-copy atomic units pauses after so many of them (R269), a scope race whose later operation is still to come
touches some bytes (R277), or a step of the hardware or of the outside happens. Log 3, log 31, log 11, log 84. -/
inductive Input
  | elapse (ns : Nat)
  | foresee (obj off len : Nat)
  | turn (core : Nat)
  | slot (sl : Slot)
  | pause (units : Nat)
  | event (i : Instr) (args : EventArgs)
  deriving DecidableEq, Repr

/-- The machine. -/
structure State where
  /-- the core that moves: 0 to 287 workers, 288 + c the shepherd of cluster c, 294 the housekeeper. The model's own field (log 2). -/
  turn : Nat
  /-- the steps of the world around the cores that come before the core's next one. The model's own field (log 3). -/
  inputs : List Input
  /-- the counter of free values. The model's own field (log 4). -/
  free : Nat
  /-- the units after which the operation of several events that goes on next pauses, 0: none. The model's own field (log 11). -/
  pause : Nat
  /-- what the event in progress acts on (log 3) -/
  args : EventArgs
  cores : Sparse Core
  time : Nat
  /-- bytes: physical addresses below 2^60; scratchpad n from 2^60 + n 2^21; room n from 2^61 + n 2^22 -/
  mem : List Host.Cell
  /-- the acts of the perform order so far, newest first (R267): the races of R277 are read from them -/
  acts : List Act
  /-- spans of objects that a race still to come touches, with the number of acts there were when its earlier operation had performed (R277) -/
  foreseen : List (Nat × Nat × Nat × Nat)
  /-- blocks of 16 bytes whose tag is set, rising (R343) -/
  tags : List Nat
  lines : List Line
  /-- write-queue entries, oldest first (R280) -/
  writeQ : List Burst
  /-- compression states of 2 KiB blocks: physical block number, state (R196) -/
  compr : Sparse (BitVec 2)
  xlat : List Xlat
  otab : Word
  ptab : Word
  htab : Word
  padtab : Word
  /-- earlier values of `OTAB`, `PTAB`, `HTAB` and `PADTAB`, by their places in Table 22.5 from 0 (R376) -/
  oldTabs : Sparse (List Word)
  /-- descriptors: scratchpads 0-287, rooms 288-575 (R350) -/
  descs : Sparse (BitVec 32)
  /-- clears in progress: space, the descriptor that takes effect (R350) -/
  clearing : Sparse (BitVec 32)
  /-- lost 64 KiB regions of the spaces: bit r of space n (R407) -/
  lost : Sparse (BitVec 56)
  phases : Sparse Phase
  waiting : List Waiting
  returning : List Returning
  /-- return lanes: pasture, entries oldest first -/
  lanes : Sparse (List LaneEnt)
  /-- eligible pastures that wait for a pen: cluster, pasture, in order (R297) -/
  order : List (Nat × Nat)
  /-- pens: key 32 × cluster + pen -/
  pens : Sparse Pen
  schcfg : Sparse Word
  folds : Sparse (BitVec 128)
  handles : Sparse Handle
  drover0 : List DroverReq
  drover1 : List DroverReq
  parts : Sparse (List GroupPart)
  tracked : List Tracked
  /-- delivery queues: 0-5 the shepherds, 6 the housekeeper (R390) -/
  queues : Sparse (List TrapEv)
  delivered : Sparse Nat
  /-- management and arbiter events that have arrived for the housekeeper and are not delivered (R374) -/
  hubEvents : Nat
  recorder : Recorder
  conns : Sparse Conn
  ports : Sparse Port
  links : Sparse Link
  cellars : Sparse Cellar
  arbiter : Arbiter
  /-- pasture tail writes seen and not yet counted (R296) -/
  tailsSeen : List Nat
  /-- pinfold WAKE writes seen and not yet acted on: their clusters (R399, R401) -/
  wakesSeen : List Nat
  /-- pastures whose rings count as non-empty (R296) -/
  counted : List Nat
  boot : Boot
  bootCount : Nat
  attest : Attest
  /-- the fused SVN minimum of each KIND (R385) -/
  svn : Sparse Nat
  peers : List Peer
  /-- egress ceilings of the ports in Gbit/s -/
  egress : Sparse Nat
  policy : Nat
  /-- health counters of the blocks (R414) -/
  health : Sparse Word
  /-- when the hub's watchdog takes a warm reset (R388) -/
  watchdog : Option Nat
  deriving DecidableEq, Repr

/-- The event's operands before any event. -/
def EventArgs.none : EventArgs :=
  { core := 0, id := 0, seq := 0, obj := 0, off := 0, gen := 0, len := 0, val := 0, flag := false, code := 0, rights := 0, data := [], nats := [],
    frame := ⟨0, .pause, 0, 0⟩, loc := .hub, act := .wearLevel, slot := .c }

/-- The machine right after a cold reset (R388, Table 23.5): memory, spaces and tags cleared, no core with a context, the boot ROM of the
housekeeper to run (R384). How a program comes to run from here is log 1. -/
def State.reset : State :=
  { turn := 0, inputs := [], free := 0, pause := 0, args := EventArgs.none, cores := [], time := 0, mem := [], acts := [], foreseen := [], tags := [], lines := [], writeQ := [],
    compr := [], xlat := [], otab := 0, ptab := 0, htab := 0, padtab := 0, oldTabs := [], descs := [], clearing := [], lost := [], phases := [],
    waiting := [], returning := [], lanes := [], order := [], pens := [], schcfg := [], folds := [], handles := [], drover0 := [],
    drover1 := [], parts := [], tracked := [], queues := [], delivered := [], hubEvents := 0, recorder := ⟨[], 0, false, 0⟩, conns := [], ports := [],
    links := [], cellars := [], arbiter := ⟨0, 2800, 1150, [], [], [], []⟩, tailsSeen := [], wakesSeen := [], counted := [], boot := .rom, bootCount := 0,
    attest := ⟨0, 0, none, []⟩, svn := [], peers := [], egress := [],
    policy := 0, health := [], watchdog := none }

end Sys2Proof.Machine
end

