-- ==== Sys2Proof/Machine/Ops.lean ====
section
/-! DEFINITION. The named operations over the machine's tables, cores and contexts: tables by number, capability fields, results in
flight (R44 to R47), rings (R50), joins (R41, R42), and taking a fatal or resumable event (R3, R389 to R394). -/

namespace Sys2Proof.Machine
open Sys2Proof

/-! ### Tables by number -/

/-- The entry of a table, `d` where none is listed. -/
def sget {α : Type} (d : α) : Sparse α → Nat → α
  | [], _ => d
  | (k, v) :: t, n => if k = n then v else sget d t n

/-- Lists an entry before the first with a larger number. -/
def sins {α : Type} (n : Nat) (v : α) : Sparse α → Sparse α
  | [] => [(n, v)]
  | (k, w) :: t => if n < k then (n, v) :: (k, w) :: t else (k, w) :: sins n v t

/-- Sets an entry; the default is not listed. -/
def sput {α : Type} [DecidableEq α] (d : α) (t : Sparse α) (n : Nat) (v : α) : Sparse α :=
  let t' := t.filter fun e => e.1 != n
  if v = d then t' else sins n v t'

/-- Rising keys and no default entry. -/
def swf {α : Type} [DecidableEq α] (d : α) : Sparse α → Bool
  | [] => true
  | [(_, v)] => decide (v ≠ d)
  | (k, v) :: (k', v') :: t => decide (v ≠ d) && decide (k < k') && swf d ((k', v') :: t)

/-! ### Bit fields -/

/-- The bits `lo` to `lo + n - 1` of a word, as a number. -/
def bits {m : Nat} (w : BitVec m) (lo n : Nat) : Nat := w.toNat / 2 ^ lo % 2 ^ n

/-- A word with the bits `lo` to `lo + n - 1` replaced. -/
def setBits {m : Nat} (w : BitVec m) (lo n v : Nat) : BitVec m :=
  BitVec.ofNat m (w.toNat / 2 ^ (lo + n) * 2 ^ (lo + n) + v % 2 ^ n * 2 ^ lo + w.toNat % 2 ^ lo)

/-- A number's low bits as a signed number. -/
def signed (n v : Nat) : Int := if v % 2 ^ n < 2 ^ (n - 1) then (v % 2 ^ n : Nat) else (v % 2 ^ n : Nat) - (2 ^ n : Nat)

/-- The bytes of a number, lowest first (R4). -/
def toBytes : Nat → Nat → List Byte
  | 0, _ => []
  | n + 1, v => BitVec.ofNat 8 v :: toBytes n (v / 256)

/-- The number of some bytes, lowest first (R4). -/
def ofBytes : List Byte → Nat
  | [] => 0
  | b :: t => b.toNat + 256 * ofBytes t

/-- Splits a list into pieces of `n`, at most `k` of them. -/
def chunks {α : Type} : Nat → Nat → List α → List (List α)
  | 0, _, _ => []
  | k + 1, n, l => l.take n :: chunks k n (l.drop n)

/-! ### Capabilities (Table 21.1) -/

/-- The untagged capability of zeros. -/
def Cap.null : Cap := ⟨0, false⟩
/-- OBJ. -/
def Cap.obj (c : Cap) : Nat := bits c.val 104 24
/-- The rights [103:96], R at bit 0. -/
def Cap.rights (c : Cap) : Nat := bits c.val 96 8
/-- BASE. -/
def Cap.base (c : Cap) : Nat := bits c.val 56 40
/-- LEN. -/
def Cap.len (c : Cap) : Nat := bits c.val 16 40
/-- GEN. -/
def Cap.gen (c : Cap) : Nat := bits c.val 0 16
/-- Whether a capability has a right, numbered from R at 0. -/
def Cap.has (c : Cap) (r : Nat) : Bool := c.val.getLsbD (96 + r)
/-- The rights' numbers (Table 21.1). -/
def rightR : Nat := 0
/-- W. -/
def rightW : Nat := 1
/-- A. -/
def rightA : Nat := 2
/-- T. -/
def rightT : Nat := 3
/-- D. -/
def rightD : Nat := 4
/-- X. -/
def rightX : Nat := 5
/-- G. -/
def rightG : Nat := 6
/-- L. -/
def rightL : Nat := 7

/-- Whether an object id is a local space's (R344). -/
def isLocal (obj : Nat) : Bool :=
  (decide (0xFF8000 ≤ obj) && decide (obj < 0xFF8120)) || (decide (0xFF9000 ≤ obj) && decide (obj < 0xFF9120))

/-- R342. -/
def Cap.sound (c : Cap) : Bool :=
  decide (c.base + c.len ≤ 2 ^ 40) && (c.has rightL == isLocal c.obj)

/-- A capability of the given fields. -/
def mkCap (obj rights base len gen : Nat) (tag : Bool) : Cap :=
  ⟨BitVec.ofNat 128 (obj % 2 ^ 24 * 2 ^ 104 + rights % 256 * 2 ^ 96 + base % 2 ^ 40 * 2 ^ 56 + len % 2 ^ 40 * 2 ^ 16 + gen % 2 ^ 16), tag⟩

/-! ### Cores and contexts -/

/-- The levels (R14). -/
inductive Level | u | s | h
  deriving DecidableEq, Repr

/-- The level of the contexts of a core (R14). -/
def levelOf (c : Nat) : Level := if c < 288 then .u else if c < 294 then .s else .h
/-- The cluster of a worker or shepherd (Table 1.2). -/
def clusterOf (c : Nat) : Nat := if c < 288 then c / 48 else if c < 294 then c - 288 else 0
/-- The die of a core (Table 1.2); the housekeeper is on the hub. -/
def dieOf (c : Nat) : Nat := if c < 288 then c / 144 else clusterOf c / 3
/-- The quad of a worker (Table 1.2). -/
def quadOf (c : Nat) : Nat := c / 4

/-- A core after reset and after every switch (R23, R32, Tables 2.4, 2.5). -/
def Core.idle (c : Nat) : Core :=
  { ctx := none, acc := [], wm0 := 128, wm1 := 128, accOwn := if c < 288 then 2 else 3, accOwnQ := [], tiles := [], marks := [], lut := 0, mx := [], cp := [],
    cpNext := 0, assist := [], assistPaused := false, assistTrap := false, pfDrop := 0, retired := false, errTimes := [],
    selfTest := false }

/-- A core. -/
def State.core (s : State) (c : Nat) : Core := sget (Core.idle c) s.cores c
/-- Replaces a core. -/
def State.setCore (s : State) (c : Nat) (x : Core) : State := { s with cores := sput (Core.idle c) s.cores c x }
/-- The context of a core. -/
def State.ctxOf (s : State) (c : Nat) : Option Ctx := (s.core c).ctx
/-- The context of the core that moves. -/
def State.cur (s : State) : Option Ctx := s.ctxOf s.turn
/-- Replaces the context of a core. -/
def State.setCtx (s : State) (c : Nat) (x : Ctx) : State := s.setCore c { s.core c with ctx := some x }
/-- Changes the context of a core, where it holds one. -/
def State.modCtx (s : State) (c : Nat) (f : Ctx → Ctx) : State :=
  match s.ctxOf c with
  | none => s
  | some x => s.setCtx c (f x)
/-- Changes the context of the core that moves. -/
def State.modCur (s : State) (f : Ctx → Ctx) : State := s.modCtx s.turn f
/-- Changes a core. -/
def State.modCore (s : State) (c : Nat) (f : Core → Core) : State := s.setCore c (f (s.core c))

/-- A free value of this step (log 4): a salt tells the choices of one step apart. -/
def State.pick (s : State) (salt : Nat) : Nat := Config.free s.free (4 * salt + 3)
/-- A free value of this step for a choice that numbers tell apart: a tag, and two numbers, the first below 2^64 (log 4). -/
def State.pickAt (s : State) (tag a b : Nat) : Nat := s.pick (tag + 2 ^ 16 * (a + 2 ^ 64 * b))

/-! ### The bundle's words -/

/-- The word of a slot (R33). -/
def slotWord (b : BitVec 256) (k : Nat) : BitVec 24 := BitVec.ofNat 24 (b.toNat / 2 ^ (64 + 24 * k))
/-- JOIN (Table 3.2). -/
def joinBit (b : BitVec 256) (k : Nat) : Bool := b.getLsbD (56 + k)
/-- LIT (Table 3.2). -/
def litBit (b : BitVec 256) (k : Nat) : Bool := b.getLsbD (48 + k)
/-- A slot's guard (Table 3.2). -/
def guardOf (b : BitVec 256) (k : Nat) : BitVec 3 := BitVec.ofNat 3 (b.toNat / 2 ^ (24 + 3 * k))
/-- BKIND (Table 3.2). -/
def bkind (b : BitVec 256) : BitVec 4 := BitVec.ofNat 4 (b.toNat / 2 ^ 20)

/-- The bundle in issue of a context; zeros when none is. -/
def Ctx.bundle (c : Ctx) : BitVec 256 := match c.issue with
  | some i => i.bits
  | none => 0

/-! ### Where the slots stand (R39 to R41) -/

/-- Whether a slot has still to issue a bundle. -/
def Issue.awaits (i : Issue) (sl : Slot) : Bool := i.pending.contains sl || i.idle.contains sl

/-- The bundle of the path after this one, for a slot that has issued it. -/
def Slipped.after (b : Slipped) : Nat × Nat := (b.pos + 1, b.issue.target.getD (b.pc + 32))

/-- Puts a bundle into a list of bundles by position. -/
def slipIn (b : Slipped) : List Slipped → List Slipped
  | [] => [b]
  | a :: t => if b.pos < a.pos then b :: a :: t else a :: slipIn b t

/-- The bundles that some slot has still to issue, by position. -/
def Ctx.bundles (c : Ctx) : List Slipped := match c.issue with
  | some i => slipIn ⟨c.pos, c.pc, i⟩ c.slip
  | none => c.slip

/-- The position and offset of the next bundle of a slot (R39, R391). -/
def Ctx.nextOf (c : Ctx) (sl : Slot) : Nat × Nat :=
  match c.bundles.find? fun b => b.issue.awaits sl with
  | some b => (b.pos, b.pc)
  | none => match c.bundles.getLast? with
    | some b => b.after
    | none => (c.pos, c.pc)

/-- The context with the bundle of a position as the one whose slot issues next. -/
def Ctx.focus (c : Ctx) (pos : Nat) : Ctx :=
  match c.bundles.find? fun b => b.pos == pos with
  | some b => { c with pos := b.pos, pc := b.pc, issue := some b.issue, slip := c.bundles.filter fun x => x.pos != pos }
  | none => c

/-- The context after a step of one of its slots: the oldest bundle that a slot has still to issue comes next (log 31). -/
def Ctx.settle (c : Ctx) : Ctx :=
  let c : Ctx := { c with issue := c.issue.map fun i : Issue => { i with alone := false } }
  match c.slip with
  | [] => c
  | b :: _ => c.focus (if c.issue.isSome then min b.pos c.pos else b.pos)

/-! ### Joins -/

/-- One more than the position of the last join of two slots, 0 before the first (R41, R46). -/
def Ctx.lastJoin (c : Ctx) (x y : Slot) : Nat := sget 0 c.joins (8 * x.idx + y.idx)

/-- Records the join of a bundle at position `pos`. -/
def joinSlots (pos : Nat) (js : List Slot) (t : Sparse Nat) : Sparse Nat :=
  js.foldl (fun t x => js.foldl (fun t y => sput 0 t (8 * x.idx + y.idx) (pos + 1)) t) t

/-! ### Results in flight -/

/-- Whether a value written by a result is certain to be seen by a slot that reads at the context's position (R44 to R46). -/
def Ctx.sure (c : Ctx) (y : Slot) (w : Fly) : Bool :=
  if w.slot = y then w.var || decide (w.due ≤ c.pos)
  else decide (w.pos + 2 ≤ c.lastJoin w.slot y) && (w.var || decide (w.due + 1 ≤ c.lastJoin w.slot y))

/-- Whether a slot may see the value although no rule makes it certain (R46): another slot's result from an earlier position. -/
def Ctx.maybe (c : Ctx) (y : Slot) (w : Fly) : Bool := w.slot != y && decide (w.pos < c.pos)

/-- A salt of a result. -/
def Fly.salt (w : Fly) : Nat := 8 * w.pos + w.slot.idx

/-- Whether a result's value enters a read, the choice being free where R46 leaves it open. -/
def Ctx.enters (c : Ctx) (free : Nat) (y : Slot) (w : Fly) : Bool :=
  c.sure y w || (c.maybe y w && decide (Config.free free (4 * w.salt) % 2 = 1))

/-- Whether it is certain that of two results of different slots for one destination the second stays (R46, R47): it is later in program
order, and a join covers both slots at or after the completion of the first. -/
def Ctx.before (c : Ctx) (a b : Fly) : Bool :=
  decide (a.pos < b.pos) && (!a.var || a.done) && decide (a.due + 1 ≤ c.lastJoin a.slot b.slot)

/-- Sorts a later result of one slot into those before it, by which one stays (R44). -/
def sortIn (b : Fly) : List Fly → List Fly
  | [] => [b]
  | a :: t => if a.due ≤ b.due then a :: sortIn b t else b :: a :: t

/-- Merges the results of two groups of slots for one destination into an order in which they stay: an order that is certain is kept, and
the choice is free elsewhere (R47). -/
def Ctx.mergeFly (c : Ctx) (free : Nat) : Nat → List Fly → List Fly → List Fly
  | 0, x, y => x ++ y
  | _ + 1, [], y => y
  | _ + 1, x, [] => x
  | n + 1, a :: x, b :: y =>
    if (a :: x).any (fun u => c.before u b)
        || (!(b :: y).any (fun u => c.before u a) && decide (Config.free free (4 * (a.salt + 1048576 * b.salt) + 1) % 2 = 1))
    then a :: c.mergeFly free n x (b :: y) else b :: c.mergeFly free n (a :: x) y

/-- The results of a list for one destination in an order in which they stay (R44, R47). -/
def Ctx.inOrder (c : Ctx) (free : Nat) (l : List Fly) : List Fly :=
  if l.length ≤ 1 then l else
  [Slot.c, .ia, .ib, .va, .vb, .mx, .xc, .cf].foldl (fun acc sl =>
    let g := (l.filter fun w => w.slot == sl).foldl (fun t w => sortIn w t) []
    c.mergeFly free (acc.length + g.length) acc g) []

/-- A byte mask as a bit mask over a row. -/
def rowMask (m : Mask) : Row :=
  (List.range 512).foldl (fun r i => if m.getLsbD i then r ||| ((0xFF : Row) <<< (8 * i)) else r) 0

/-- A value with another written over it. -/
def RVal.over (old new : RVal) : RVal :=
  match old, new with
  | .word o mo, .word v m => .word ((o &&& ~~~m) ||| (v &&& m)) (mo ||| m)
  | .row o bo, .row v b => .row (if b = BitVec.allOnes 512 then v else (o &&& ~~~(rowMask b)) ||| (v &&& rowMask b)) (bo ||| b)
  | _, n => n

/-- Whether a result writes a destination. -/
def Fly.writes (d : Dst) (w : Fly) : Bool := match w.dst with
  | some (d', _) => decide (d' = d)
  | none => false

/-- The results of a list that a slot's read of a destination takes: one that a later result of its own slot builds on enters with it. -/
def Ctx.seen (c : Ctx) (free : Nat) (y : Slot) (d : Dst) : List Fly → List Fly
  | [] => []
  | w :: t =>
    let r := c.seen free y d t
    if w.writes d && (c.enters free y w || r.any fun v => v.slot == w.slot && decide (w.due ≤ v.due)) then w :: r else r

/-- The value of a destination as a slot reads it at the context's position (R44 to R47, R115). -/
def Ctx.view (c : Ctx) (free : Nat) (y : Slot) (d : Dst) (base : RVal) : RVal :=
  (c.inOrder free (c.seen free y d c.fly)).foldl
    (fun o w => match w.dst with | some (_, v) => o.over v | none => o) base

/-- The word of a value. -/
def RVal.toWord : RVal → Word
  | .word v _ => v
  | _ => 0
/-- The bit of a value. -/
def RVal.toBit : RVal → Bool
  | .bit v => v
  | _ => false
/-- The mask of a value. -/
def RVal.toMask : RVal → Mask
  | .mask v => v
  | _ => 0
/-- The row of a value. -/
def RVal.toRow : RVal → Row
  | .row v _ => v
  | _ => 0
/-- The capability of a value. -/
def RVal.toCap : RVal → Cap
  | .cap v => v
  | _ => Cap.null

/-- A register as slot `y` of a context reads it. -/
def readS (s : State) (c : Ctx) (y : Slot) (n : Nat) : Word := (c.view s.free y (.s n) (.word (sget 0 c.s n) 0)).toWord
/-- A predicate; `p0` is 1. -/
def readP (s : State) (c : Ctx) (y : Slot) (n : Nat) : Bool := n == 0 || (c.view s.free y (.p n) (.bit (c.p.getLsbD n))).toBit
/-- A mask; `m0` is all ones. -/
def readM (s : State) (c : Ctx) (y : Slot) (n : Nat) : Mask :=
  if n = 0 then BitVec.allOnes 512 else (c.view s.free y (.m n) (.mask (sget 0 c.m n))).toMask
/-- A loop counter. -/
def readLc (s : State) (c : Ctx) (y : Slot) (n : Nat) : BitVec 32 :=
  (c.view s.free y (.lc n) (.word ((if n = 0 then c.lc0 else c.lc1).count.setWidth 64) 0)).toWord.setWidth 32
/-- A capability register. -/
def readK (s : State) (c : Ctx) (y : Slot) (n : Nat) : Cap := (c.view s.free y (.k n) (.cap (sget Cap.null c.k n))).toCap
/-- A staging register, numbered as in Table 7.8. -/
def readStage (s : State) (c : Ctx) (y : Slot) (n : Nat) : Word := (c.view s.free y (.stage n) (.word (sget 0 c.stage n) 0)).toWord
/-- `HSTAT`. -/
def readHstat (s : State) (c : Ctx) (y : Slot) : Word := (c.view s.free y .hstat (.word c.hstat 0)).toWord
/-- An accumulator row of the moving core. -/
def readRow (s : State) (c : Ctx) (y : Slot) (bank row : Nat) : Row :=
  (c.view s.free y (.row bank row) (.row (sget 0 (s.core s.turn).acc (128 * bank + row)) 0)).toRow

/-! ### Sticky registers (R27) -/

/-- The value that a bundle `lag` positions after a write sees: the last write far enough back, newest first in the list. -/
def stickyAt {α : Type} (base : α) (lag pos : Nat) : List (Nat × α) → α
  | [] => base
  | (n, v) :: t => if n + lag ≤ pos then v else stickyAt base lag pos t

/-- `FMT` as the context's bundle sees it. -/
def Ctx.fmtNow (c : Ctx) : BitVec 32 := stickyAt c.fmt 4 c.pos c.fmtQ
/-- `VTYPE.TYPE`. -/
def Ctx.vtypeNow (c : Ctx) : BitVec 32 := stickyAt c.vtype 4 c.pos c.vtypeQ
/-- `VWIN`. -/
def Ctx.vwinNow (c : Ctx) : BitVec 32 := stickyAt c.vwin 1 c.pos c.vwinQ
/-- `VACT`. -/
def Ctx.vactNow (c : Ctx) : BitVec 32 := stickyAt c.vact 1 c.pos c.vactQ
/-- The control fields of `FPCTL`: SATOFF, WSUB, STEP, RM. -/
def Ctx.fpcNow (c : Ctx) : BitVec 5 := stickyAt c.fpc 1 c.pos c.fpcQ
/-- RM. -/
def Ctx.rm (c : Ctx) : RM := BitVec.ofNat 2 c.fpcNow.toNat
/-- Whether conversions into FP8 saturate: SATOFF is 0. -/
def Ctx.sat (c : Ctx) : Bool := !c.fpcNow.getLsbD 4
/-- STEP. -/
def Ctx.step (c : Ctx) : Bool := c.fpcNow.getLsbD 2
/-- WSUB. -/
def Ctx.wsub (c : Ctx) : Bool := c.fpcNow.getLsbD 3

/-! ### Issuing a result -/

/-- A result without any effect, to be filled in. -/
def Fly.nil (sl : Slot) (pos lat : Nat) : Fly :=
  { slot := sl, pos := pos, due := pos + lat, var := false, done := false, divider := false, dst := none, ring := .none, pushed := false, flags := 0,
    amax := 0, amaxNan := false }

/-- A context with one more result in flight. -/
def Ctx.launch (c : Ctx) (w : Fly) : Ctx := { c with fly := c.fly ++ [w] }

/-- Pushes a ring value into the ring of a slot; the oldest entry leaves (R50). -/
def Ctx.push (c : Ctx) (sl : Slot) (v : RingVal) : Ctx :=
  match sl, v with
  | .ia, .b x => { c with bA := (x :: c.bA).take 4 }
  | .ib, .b x => { c with bB := (x :: c.bB).take 4 }
  | .va, .w x => { c with wA := (x :: c.wA).take 4 }
  | .vb, .w x => { c with wB := (x :: c.wB).take 4 }
  | _, _ => c

/-- A result that completes now: one of variable latency is written as its slot stands. -/
def Fly.completed (c : Ctx) (w : Fly) : Fly :=
  if w.done then w else { w with pushed := true, done := true, due := if w.var then max w.due (c.nextOf w.slot).1 else w.due }

/-- Marks the results of a test as complete and pushes their ring values in the order in which they are written (R44, R50). -/
def Ctx.complete (c : Ctx) (p : Fly → Bool) : Ctx :=
  let new := ((c.fly.filter fun w => p w && !w.pushed).map (Fly.completed c)).foldl (fun t w => sortIn w t) []
  { new.foldl (fun c w => c.push w.slot w.ring) c with fly := c.fly.map fun w => if p w then w.completed c else w }

/-- The flags and `AMAX` that a result raises into a context (R28): those of positions before the last write are discarded, and the others
are kept by position until the CF slot has issued it. -/
def Ctx.raise (c : Ctx) (w : Fly) : Ctx :=
  let r : Raised := ⟨w.pos, if c.flagsFrom ≤ w.pos then w.flags else 0, if c.amaxFrom ≤ w.pos then w.amax else 0,
    decide (c.amaxFrom ≤ w.pos) && w.amaxNan⟩
  if r.flags = 0 ∧ r.amax = 0 ∧ r.amaxNan = false then c else { c with raised := c.raised ++ [r] }

/-- The flags that have completed (R28). -/
def Ctx.flagsAll (c : Ctx) : Flags := c.raised.foldl (fun f r => f ||| r.flags) c.flags
/-- `AMAX` of what has completed (R28). -/
def Ctx.amaxAll (c : Ctx) : BitVec 32 := c.raised.foldl (fun a r => BitVec.ofNat 32 (max a.toNat r.amax)) c.amax
/-- `AMAXNAN` of what has completed (R28). -/
def Ctx.amaxNanAll (c : Ctx) : Bool := c.raised.foldl (fun a r => a || r.amaxNan) c.amaxNan
/-- What has completed goes into the registers themselves: the CF slot has issued every position that raised it. -/
def Ctx.foldRaised (c : Ctx) : Ctx := { c with flags := c.flagsAll, amax := c.amaxAll, amaxNan := c.amaxNanAll, raised := [] }

/-- Writes a value into a context's own register. Accumulator rows belong to the core. -/
def Ctx.store (c : Ctx) (d : Dst) (v : RVal) : Ctx :=
  match d with
  | .s n => { c with s := sput 0 c.s n ((RVal.word (sget 0 c.s n) 0).over v).toWord }
  | .p n => { c with p := if v.toBit then c.p ||| ((1 : BitVec 4) <<< n) else c.p &&& ~~~((1 : BitVec 4) <<< n) }
  | .m n => { c with m := sput 0 c.m n v.toMask }
  | .lc n => if n = 0 then { c with lc0 := { c.lc0 with count := v.toWord.setWidth 32 } }
             else { c with lc1 := { c.lc1 with count := v.toWord.setWidth 32 } }
  | .k n => { c with k := sput Cap.null c.k n v.toCap }
  | .stage n => { c with stage := sput 0 c.stage n ((RVal.word (sget 0 c.stage n) 0).over v).toWord }
  | .hstat => { c with hstat := v.toWord }
  | .row _ _ => c

/-- Writes a value into a core's own state. -/
def Core.store (x : Core) (d : Dst) (v : RVal) : Core :=
  match d with
  | .row b r => { x with acc := sput 0 x.acc (128 * b + r) ((RVal.row (sget 0 x.acc (128 * b + r)) 0).over v).toRow }
  | _ => x

/-- Whether a result has been written by the position (a variable latency: once it has completed). -/
def Fly.landed (pos : Nat) (w : Fly) : Bool := if w.var then w.done else decide (w.due ≤ pos)

/-- Moves into the registers the results of a test that are settled for every slot, in the order in which they stay. -/
def State.retire (s : State) (core : Nat) (p : Fly → Bool) : State :=
  match s.ctxOf core with
  | none => s
  | some c =>
    -- a destination with a result still to come keeps all its results in flight
    let open' := c.fly.filter fun w => !p w
    let q := fun w => p w && (match w.dst with
      | some (d, _) => open'.all fun o => !o.writes d
      | none => true)
    let ds := ((c.fly.filter q).filterMap fun w => w.dst.map (·.1)).eraseDups
    let sorted := ds.flatMap fun d => c.inOrder s.free ((c.fly.filter q).filter fun w => w.writes d)
    let c := (c.fly.filter q).foldl Ctx.raise c
    let c := sorted.foldl (fun c w => match w.dst with | some (d, v) => c.store d v | none => c) c
    let x := sorted.foldl (fun x w => match w.dst with | some (d, v) => x.store d v | none => x) (s.core core)
    s.setCore core { x with ctx := some { c with fly := c.fly.filter fun w => !q w } }

/-- Every operation in flight completes and writes its destination (R48). -/
def State.drain (s : State) (core : Nat) : State :=
  let s := s.modCtx core fun c =>
    c.complete fun _ => true
  s.retire core fun _ => true

/-! ### Events for the shepherds -/

/-- The shepherd's queue of a core's cluster; the housekeeper's own queue is 6 (R390). -/
def queueOf (core : Nat) : Nat := if core = 294 then 6 else clusterOf core

/-- A recorder entry's number is counted from cold reset; after a freeze only the 4,096 oldest slots are used (R418, R419). -/
def Recorder.slotOf (r : Recorder) (n : Nat) : Nat :=
  if r.frozen && decide (r.fseq ≤ n) then (r.fseq + (n - r.fseq) % 4096) % 16384 else n % 16384

/-- Appends an entry to the event recorder (Table 25.9). A recorder that a fatal error has frozen takes no entry before that of the reset (R388, R419). -/
def State.log (s : State) (unit index type flags : Nat) (body : Nat) : State :=
  let r := s.recorder
  if r.frozen && r.next == r.fseq && type != 3 then s else
  let e : BitVec 256 := BitVec.ofNat 256 (s.time % 2 ^ 64 + 2 ^ 64 * (r.next % 2 ^ 32) + 2 ^ 96 * (unit % 16 * 4096 + index % 4096)
    + 2 ^ 112 * (type % 256) + 2 ^ 120 * (flags % 256) + 2 ^ 128 * (body % 2 ^ 128))
  { s with recorder := { r with entries := sput 0 r.entries (r.slotOf r.next) e, next := r.next + 1 } }

/-- Appends an entry of a type whose BODY has its fields named and no places given to them: it holds them in a layout that is open (Table 25.10,
log 15). -/
def State.logBody (s : State) (unit index type : Nat) (fields : List Nat) : State := s.log unit index type 0 (Config.recorderBody type fields)

/-- The unit of a core in a recorder entry's SOURCE (Table 25.9). -/
def unitOf (core : Nat) : Nat := if core < 288 then 0 else if core < 294 then 1 else 2
/-- A core's index within its unit (Table 25.9). -/
def unitIndex (core : Nat) : Nat := if core < 288 then core else clusterOf core

/-- Whether an event is a notice (Table 24.1). -/
def TrapEv.notice (t : TrapEv) : Bool := decide (0x30 ≤ t.kind)
/-- Whether an event is fatal (Table 24.1). -/
def TrapEv.fatal (t : TrapEv) : Bool := decide (t.kind < 0x20)
/-- Whether an event is resumable (Table 24.1). -/
def TrapEv.resumable (t : TrapEv) : Bool := !t.notice && !t.fatal

/-- `s0` of the trap record (Table 24.2), with the TRAPID of its delivery. -/
def TrapEv.word0 (t : TrapEv) (trapId : Nat) : Nat :=
  t.paddock % 65536 * 2 ^ 48 + trapId % 65536 * 2 ^ 32 + b2n t.resumable * 2 ^ 21 + b2n t.fatal * 2 ^ 20 + b2n t.hdr * 2 ^ 19
    + t.slot % 8 * 2 ^ 16 + t.reason % 256 * 2 ^ 8 + t.kind % 256
/-- `s1` of the trap record. -/
def TrapEv.word1 (t : TrapEv) : Nat := t.codeObj % 2 ^ 24 * 2 ^ 40 + t.base % 2 ^ 40

/-- The words `s0` to `s7` of a trap record (Table 24.2). -/
def TrapEv.words (t : TrapEv) (trapId : Nat) : List Nat :=
  [t.word0 trapId, t.word1,
   (t.deltas.zipIdx.foldl (fun a d => a + (d.1 % 64).toNat * 2 ^ (6 * d.2)) 0),
   t.frameObj % 2 ^ 24 * 2 ^ 40 + t.frameOff % 2 ^ 40, t.addrObj % 2 ^ 24 * 2 ^ 40 + t.addrOff % 2 ^ 40, t.arg.toNat,
   t.seq % 2 ^ 32 * 2 ^ 32 + t.core % 512, t.time % 2 ^ 64]

/-- The TRAPID of an event that arises (Table 24.2): its core in the cluster; the count of the records delivered by then is still to come, and
free (log 15). -/
def State.trapIdOf (s : State) (t : TrapEv) : Nat := (if t.unit = 0 then t.core % 48 else 0) % 64 + 64 * (s.pickAt 9011 s.recorder.next 1 % 1024)

/-- Writes an event into the recorder (R390, R418, Tables 25.9, 25.10). -/
def State.recordEvent (s : State) (flags : Nat) (t : TrapEv) : State :=
  s.log t.unit t.core 1 flags (t.word0 (s.trapIdOf t) + 2 ^ 64 * t.word1)

/-- Puts an event into a delivery queue in the order in which events arose, ties going to the lower core (R390). -/
def queueIn (t : TrapEv) : List TrapEv → List TrapEv
  | [] => [t]
  | x :: l => if t.time < x.time ∨ (t.time = x.time ∧ t.core < x.core) then t :: x :: l else x :: queueIn t l

/-- Queues an event for a shepherd (R390). A fatal event by `ctx.kill` is told to nobody (Table 24.1), and a notice that finds 64 events
queued is only recorded. -/
def State.enqueue (s : State) (q : Nat) (t : TrapEv) : State :=
  let l := sget [] s.queues q
  if t.kind = 0x13 || (t.notice && decide (64 ≤ l.length)) then s
  else { s with queues := sput [] s.queues q (queueIn t l) }

/-- Tells an event: into the recorder and into the shepherd's queue (R390). -/
def State.tell (s : State) (q : Nat) (flags : Nat) (t : TrapEv) : State := (s.recordEvent flags t).enqueue q t

/-- Discards the resumable events of a core that are queued and not delivered (R393). -/
def State.recall (s : State) (core : Nat) : State :=
  let q := queueOf core
  { s with queues := sput [] s.queues q ((sget [] s.queues q).filter fun t => !(t.resumable && t.unit == unitOf core && t.core == unitIndex core)) }

/-- What an operation that ends its context reports. -/
structure FaultInfo where
  kind : Nat
  reason : Nat
  addr : Option (Nat × Nat)
  arg : Word
  /-- raised by the checks of a commit or spill (R235) -/
  commit : Bool
  deriving DecidableEq, Repr

/-- How an operation's meaning can end other than in a next state of its own effect. -/
inductive Stop
  /-- a fatal event of its context (R3) -/
  | fatal (f : FaultInfo)
  /-- a fatal event of its context after a part of the operation, which the state holds (R312, R320) -/
  | after (s : State) (f : FaultInfo)
  /-- the slot waits, and nothing of the operation has happened (R43) -/
  | wait
  /-- the slot waits, and the state says what of the operation has happened so far -/
  | later (s : State)
  deriving DecidableEq, Repr

/-- The kinds of Table 24.1. -/
def kIllegal : Nat := 0x01
def kRights : Nat := 0x02
def kBounds : Nat := 0x03
def kAlign : Nat := 0x04
def kTier : Nat := 0x05
def kRevoked : Nat := 0x06
def kPaddock : Nat := 0x07
def kNonResident : Nat := 0x08
def kLostPage : Nat := 0x09
def kFormat : Nat := 0x0A
def kBank : Nat := 0x0B
def kTile : Nat := 0x0C
def kMatrix : Nat := 0x0D
def kCopy : Nat := 0x0E
def kLendBusy : Nat := 0x0F
def kRoom : Nat := 0x10
def kFold : Nat := 0x11
def kError : Nat := 0x12
def kKilled : Nat := 0x13
def kBudget : Nat := 0x20
def kAssist : Nat := 0x21
def kTrap : Nat := 0x22
def kBrk : Nat := 0x23
def kRejected : Nat := 0x30
def kFoldNote : Nat := 0x31
def kPinfold : Nat := 0x32
def kStalled : Nat := 0x33

/-- A fatal event without an address. -/
def fatal {α : Type} (kind : Nat) : Except Stop α := .error (.fatal ⟨kind, 0, none, 0, false⟩)
/-- A fatal event with a reason (Table 24.5). -/
def fatalR {α : Type} (kind reason : Nat) : Except Stop α := .error (.fatal ⟨kind, reason, none, 0, false⟩)
/-- A fatal event at an object offset. -/
def fatalAt {α : Type} (kind obj off : Nat) : Except Stop α := .error (.fatal ⟨kind, 0, some (obj, off), 0, false⟩)
/-- A check: the fatal event where it fails. -/
def need (c : Bool) (kind : Nat) : Except Stop Unit := if c then .ok () else fatal kind

/-! ### Records -/

/-- The fields of a record (Table 17.1). -/
def Rec.codeObj (r : Rec) : Nat := bits r 40 24
def Rec.entry (r : Rec) : Nat := bits r 0 40
def Rec.frameObj (r : Rec) : Nat := bits r 104 24
def Rec.frameOff (r : Rec) : Nat := 64 * bits r 78 26
def Rec.frameLen (r : Rec) : Nat := 64 * bits r 64 14
def Rec.grant (r : Rec) : Nat := bits r 128 32
def Rec.fold01 (r : Rec) : Nat := bits r 160 32
def Rec.wait (r : Rec) : Nat := bits r 192 64
def Rec.paddock (r : Rec) : Nat := bits r 272 16
def Rec.prio (r : Rec) : Nat := bits r 264 3
def Rec.pinf (r : Rec) : Bool := r.getLsbD 258
def Rec.srv (r : Rec) : Bool := r.getLsbD 257
def Rec.repl (r : Rec) : Bool := r.getLsbD 256
def Rec.home (r : Rec) : Nat := bits r 304 16
def Rec.pasture (r : Rec) : Nat := bits r 288 12
def Rec.keyObj (r : Rec) : Nat := bits r 360 24
def Rec.keyOff (r : Rec) : Nat := bits r 320 40
def Rec.permits (r : Rec) : Nat := bits r 384 64
def Rec.seq (r : Rec) : Nat := bits r 448 32
def Rec.check (r : Rec) : Nat := bits r 480 32

/-- One step of CRC-32C over a bit (reflected polynomial, R288). -/
def crcBit (c : Nat) : Nat := if c % 2 = 1 then (c / 2) ^^^ 0x82F63B78 else c / 2
/-- CRC-32C over one byte. -/
def crcByte (c : Nat) (b : Byte) : Nat :=
  crcBit (crcBit (crcBit (crcBit (crcBit (crcBit (crcBit (crcBit (c ^^^ b.toNat))))))))
/-- CRC-32C of some bytes (R288). -/
def crc32c (l : List Byte) : Nat := (l.foldl crcByte 0xFFFFFFFF) ^^^ 0xFFFFFFFF
/-- The CHECK that a record should hold (R288). -/
def Rec.crc (r : Rec) : Nat := crc32c (toBytes 60 r.toNat)
/-- The record with a fresh CHECK. -/
def Rec.sealed (r : Rec) : Rec := setBits r 480 32 r.crc

/-! ### Taking an event -/

/-- Where the slots of a context stand relative to a bundle (R391): each slot's next bundle, counted in bundles from `base`. The slot of the
event and those that its bundle joins with it stand at the bundle. -/
def deltasAt (c : Ctx) (base : Nat) (at' : List Slot) : List Int :=
  Slot.all.map fun x => if at'.contains x then 0 else ((c.nextOf x).2 - base : Int) / 32

/-- The slots that stand at the bundle of an event in a slot: the slot, and those that issue the bundle in the same cycle (R41). -/
def Ctx.standing (c : Ctx) (sl : Nat) : List Slot :=
  let y : List Slot := Slot.all.filter fun x => x.idx == sl
  match c.issue with
  | some i => if y.any fun x => i.join.contains x then i.join else y
  | none => y

/-- The trap record of an event of a context (Table 24.2). -/
def trapOf (s : State) (core : Nat) (c : Ctx) (kind reason slot : Nat) (base : Nat) (deltas : List Int) (addr : Option (Nat × Nat))
    (arg : Word) : TrapEv :=
  { unit := unitOf core, kind := kind, reason := reason, slot := slot, hdr := false, paddock := c.paddock, codeObj := c.codeObj, base := base, deltas := deltas,
    frameObj := if c.hasRecord then c.record.frameObj else 0, frameOff := if c.hasRecord then c.record.frameOff else 0,
    addrObj := (addr.getD (0, 0)).1, addrOff := (addr.getD (0, 0)).2, arg := arg, seq := if c.hasRecord then c.record.seq else 0,
    core := unitIndex core, time := s.time }

/-- A core without its context, as after every switch of continuation (R23, R32, R51, R155, R180): banks and tile table cleared, ownership
and watermarks at reset, the lookup SRAM cleared, engine commands gone. `PFDROP`, errors and retirement belong to the core. -/
def Core.vacate (c : Nat) (x : Core) : Core :=
  { Core.idle c with cpNext := x.cpNext, pfDrop := x.pfDrop, retired := x.retired, errTimes := x.errTimes, selfTest := x.selfTest }

/-- Forgets the remote and group commands of a core that have rows still to send: their writes were in its porch (R3). A part that its quad has
staged goes on (R406). -/
def State.dropUnsent (s : State) (core : Nat) : State :=
  { s with tracked := s.tracked.filter fun t => t.core != core || t.unsent == 0
      || s.parts.any fun q => q.2.any fun p => p.core == core && p.cmd == t.cmd }

/-- A core loses its context to an event that is recorded already (R3, R389): the porch is discarded with the context, the ring slots reserved by its
commit are released by the caller, the event is queued, and the core is idle. -/
def State.closeContext (s : State) (core : Nat) (t : TrapEv) : State :=
  ((s.recall core).dropUnsent core |>.setCore core (Core.vacate core (s.core core))).enqueue (queueOf core) t

/-- Ends the context of a core as fatal to the context (R3, R389). -/
def State.endContext (s : State) (core : Nat) (t : TrapEv) : State := (s.recordEvent 0 t).closeContext core t

/-- The next bundle of the C slot: the one its transfer has chosen, or the bundle after the one in issue. -/
def Ctx.nextBundle (c : Ctx) : Nat := match c.issue with
  | some i => i.target.getD (c.pc + 32)
  | none => c.pc

/-- The trap record's place for an event that no slot has raised: the C slot's next bundle, and where the other slots stand (R391). -/
def Ctx.standsAt (c : Ctx) : Nat × List Int := ((c.nextOf .c).2, deltasAt c (c.nextOf .c).2 [])

/-- BASE of a fault at commit: the C slot's next bundle (R391). -/
def Ctx.commitBase (c : Ctx) (sl : Nat) : Nat := if sl = 0 then c.nextBundle else (c.nextOf .c).2

/-- The trap record of a fatal event of an operation in a slot (R391): BASE is the bundle in issue, or the C slot's next bundle for a fault at commit, whose
ARG is 1. -/
def fatalTrap (s : State) (core : Nat) (c : Ctx) (sl : Nat) (hdr : Bool) (f : FaultInfo) : TrapEv :=
  let base := if f.commit then c.commitBase sl else c.pc
  { trapOf s core c f.kind f.reason sl base (deltasAt c base (if f.commit ∧ sl ≠ 0 then [.c] else c.standing sl)) f.addr
      (if f.commit then 1 else f.arg) with hdr := hdr }

/-- TAKING A FATAL EVENT of an operation in a slot (R3, R389, R391). -/
def State.takeFatal (s : State) (core : Nat) (sl : Nat) (hdr : Bool) (f : FaultInfo) : State :=
  match s.ctxOf core with
  | none => s
  | some c => s.endContext core (fatalTrap s core c sl hdr f)

/-- TAKING A RESUMABLE EVENT (R389, R393): the context is frozen with the event; behind another event it waits. -/
def State.takeResumable (s : State) (core : Nat) (flags : Nat) (t : TrapEv) : State :=
  match s.ctxOf core with
  | none => s
  | some c =>
    match c.mode with
    | .run | .halted | .resending _ => (s.setCtx core { c with mode := .frozen t none }).tell (queueOf core) flags t
    | .frozen _ _ => (s.setCtx core { c with pend := c.pend ++ [t] }).recordEvent flags t
    | .aborting => s

end Sys2Proof.Machine
end

