-- ==== Sys2Proof/Machine/Hash.lean ====
section
/-! DEFINITION. SHA-256, and the verification of HSS signatures over it by RFC 8554, for images and for shared Cellar blocks (R385, R417). The
standards that R385 names give the functions (log 21). -/

namespace Sys2Proof.Machine
open Sys2Proof

/-! ### SHA-256 -/

/-- A number of bytes, highest first. -/
def ofBytesBE (l : List Byte) : Nat := l.foldl (fun a b => 256 * a + b.toNat) 0
/-- The bytes of a number, highest first. -/
def toBytesBE (n v : Nat) : List Byte := (toBytes n v).reverse

/-- The eight working words. -/
structure Sha where
  a : BitVec 32
  b : BitVec 32
  c : BitVec 32
  d : BitVec 32
  e : BitVec 32
  f : BitVec 32
  g : BitVec 32
  h : BitVec 32
  deriving DecidableEq, Repr

/-- The initial words. -/
def Sha.init : Sha :=
  ⟨0x6a09e667, 0xbb67ae85, 0x3c6ef372, 0xa54ff53a, 0x510e527f, 0x9b05688c, 0x1f83d9ab, 0x5be0cd19⟩
/-- The words as bytes. -/
def Sha.bytes (s : Sha) : List Byte := [s.a, s.b, s.c, s.d, s.e, s.f, s.g, s.h].flatMap fun w => toBytesBE 4 w.toNat
/-- Word by word addition. -/
def Sha.add (s t : Sha) : Sha := ⟨s.a + t.a, s.b + t.b, s.c + t.c, s.d + t.d, s.e + t.e, s.f + t.f, s.g + t.g, s.h + t.h⟩

/-- The constants of the 64 rounds. -/
def shaK : List (BitVec 32) :=
  [0x428a2f98, 0x71374491, 0xb5c0fbcf, 0xe9b5dba5, 0x3956c25b, 0x59f111f1, 0x923f82a4, 0xab1c5ed5]
  ++ [0xd807aa98, 0x12835b01, 0x243185be, 0x550c7dc3, 0x72be5d74, 0x80deb1fe, 0x9bdc06a7, 0xc19bf174]
  ++ [0xe49b69c1, 0xefbe4786, 0x0fc19dc6, 0x240ca1cc, 0x2de92c6f, 0x4a7484aa, 0x5cb0a9dc, 0x76f988da]
  ++ [0x983e5152, 0xa831c66d, 0xb00327c8, 0xbf597fc7, 0xc6e00bf3, 0xd5a79147, 0x06ca6351, 0x14292967]
  ++ [0x27b70a85, 0x2e1b2138, 0x4d2c6dfc, 0x53380d13, 0x650a7354, 0x766a0abb, 0x81c2c92e, 0x92722c85]
  ++ [0xa2bfe8a1, 0xa81a664b, 0xc24b8b70, 0xc76c51a3, 0xd192e819, 0xd6990624, 0xf40e3585, 0x106aa070]
  ++ [0x19a4c116, 0x1e376c08, 0x2748774c, 0x34b0bcb5, 0x391c0cb3, 0x4ed8aa4a, 0x5b9cca4f, 0x682e6ff3]
  ++ [0x748f82ee, 0x78a5636f, 0x84c87814, 0x8cc70208, 0x90befffa, 0xa4506ceb, 0xbef9a3f7, 0xc67178f2]

/-- The message schedule, newest word first, with so many more words. -/
def shaSchedule : Nat → List (BitVec 32) → List (BitVec 32)
  | 0, w => w
  | n + 1, w =>
    let x := w.getD 1 0
    let y := w.getD 14 0
    let z := (x.rotateRight 17 ^^^ x.rotateRight 19 ^^^ x >>> 10) + w.getD 6 0 + (y.rotateRight 7 ^^^ y.rotateRight 18 ^^^ y >>> 3) + w.getD 15 0
    shaSchedule n (z :: w)

/-- One round. -/
def Sha.round (s : Sha) (kw : BitVec 32 × BitVec 32) : Sha :=
  let t1 := s.h + (s.e.rotateRight 6 ^^^ s.e.rotateRight 11 ^^^ s.e.rotateRight 25) + ((s.e &&& s.f) ^^^ (~~~s.e &&& s.g)) + kw.1 + kw.2
  let t2 := (s.a.rotateRight 2 ^^^ s.a.rotateRight 13 ^^^ s.a.rotateRight 22) + ((s.a &&& s.b) ^^^ (s.a &&& s.c) ^^^ (s.b &&& s.c))
  ⟨t1 + t2, s.a, s.b, s.c, s.d + t1, s.e, s.f, s.g⟩

/-- The words after a block of 64 bytes. -/
def Sha.block (s : Sha) (l : List Byte) : Sha :=
  let w := (chunks 16 4 l).map fun b => BitVec.ofNat 32 (ofBytesBE b)
  s.add ((shaK.zip (shaSchedule 48 w.reverse).reverse).foldl Sha.round s)

/-- A message with its padding. -/
def shaPad (l : List Byte) : List Byte := l ++ 0x80 :: List.replicate ((119 - l.length % 64) % 64) 0 ++ toBytesBE 8 (8 * l.length)

/-- The SHA-256 digest of a message: 32 bytes. -/
def sha256 (l : List Byte) : List Byte :=
  let m := shaPad l
  ((chunks (m.length / 64) 64 m).foldl Sha.block Sha.init).bytes

/-- The digest as the number that its bytes make in memory. -/
def digest (l : List Byte) : Nat := ofBytes (sha256 l)

/-! ### LM-OTS, LMS and HSS (RFC 8554) -/

/-- The height of an LMS tree by its type: H10, H15 and H20 of SHA-256 with 32 bytes (R385). -/
def lmsHeight (type : Nat) : Option Nat := if type = 6 then some 10 else if type = 7 then some 15 else if type = 8 then some 20 else none

/-- The bytes of an LM-OTS signature of type LMOTS_SHA256_N32_W4: its type, C, and 67 strings. -/
def otsLength : Nat := 4 + 32 + 67 * 32
/-- The bytes of an LMS public key. -/
def lmsKeyLength : Nat := 56
/-- The length of the LMS signature that some bytes begin with, by the type that it holds. -/
def lmsLength (l : List Byte) : Option Nat := (lmsHeight (ofBytesBE ((l.drop (4 + otsLength)).take 4))).map fun h => 8 + otsLength + 32 * h

/-- The 67 digits of 4 bits that are signed: the digest's and its checksum's. -/
def otsDigits (q : List Byte) : List Nat :=
  let d := q.flatMap fun b => [b.toNat / 16, b.toNat % 16]
  let sum := (d.map (15 - ·)).foldl (· + ·) 0 * 16
  d ++ [sum / 4096 % 16, sum / 256 % 16, sum / 16 % 16]

/-- A string hashed along its chain, so many times from a step on. -/
def otsChain (id : List Byte) (i : Nat) : Nat → Nat → List Byte → List Byte
  | 0, _, y => y
  | n + 1, j, y => otsChain id i n (j + 1) (sha256 (id ++ toBytesBE 2 i ++ toBytesBE 1 j ++ y))

/-- The LM-OTS public key that a signature of a message leads to; `id` is the tree's identifier with the leaf's number. -/
def otsKey (id msg sig : List Byte) : List Byte :=
  let y := sig.drop 36
  let q := sha256 (id ++ [0x81, 0x81] ++ (sig.drop 4).take 32 ++ msg)
  sha256 (id ++ [0x80, 0x80] ++ ((otsDigits q).zipIdx.flatMap fun d => otsChain id d.2 (15 - d.1) d.1 ((y.drop (32 * d.2)).take 32)))

/-- The root that a node leads to along its authentication path. -/
def lmsRoot (tree : List Byte) : Nat → Nat → List Byte → List Byte → List Byte
  | 0, _, x, _ => x
  | h + 1, n, x, path =>
    let p := path.take 32
    lmsRoot tree h (n / 2) (sha256 (tree ++ toBytesBE 4 (n / 2) ++ [0x83, 0x83] ++ if n % 2 = 1 then p ++ x else x ++ p)) (path.drop 32)

/-- Whether an LMS signature of a message verifies under a public key: types that R385 admits, and the root. -/
def lmsVerifies (key msg sig : List Byte) : Bool :=
  match lmsHeight (ofBytesBE (key.take 4)) with
  | none => false
  | some h =>
    let tree := (key.drop 8).take 16
    let q := ofBytesBE (sig.take 4)
    let ots := (sig.drop 4).take otsLength
    key.length == lmsKeyLength && sig.length == 8 + otsLength + 32 * h && ofBytesBE ((key.drop 4).take 4) == 3
      && ofBytesBE (ots.take 4) == 3 && ofBytesBE ((sig.drop (4 + otsLength)).take 4) == ofBytesBE (key.take 4) && decide (q < 2 ^ h)
      && (let leaf := otsKey (tree ++ toBytesBE 4 q) msg ots
          lmsRoot tree h (2 ^ h + q) (sha256 (tree ++ toBytesBE 4 (2 ^ h + q) ++ [0x82, 0x82] ++ leaf)) (sig.drop (8 + otsLength))
            == key.drop 24)

/-- The length of the HSS signature that some bytes begin with: L is 1 or 2. -/
def hssLength (l : List Byte) : Option Nat := do
  let n ← lmsLength (l.drop 4)
  if ofBytesBE (l.take 4) = 0 then some (4 + n)
  else if ofBytesBE (l.take 4) = 1 then some (4 + n + lmsKeyLength + (← lmsLength (l.drop (4 + n + lmsKeyLength))))
  else none

/-- The longest HSS signature that R385 admits. -/
def hssLongest : Nat := 4 + 2 * (8 + otsLength + 640) + lmsKeyLength

/-- Whether an HSS signature of a message verifies under a public key (R385): one tree, or two with the upper one's signature of the lower key. -/
def hssVerifies (key msg sig : List Byte) : Bool :=
  let levels := ofBytesBE (key.take 4)
  let top := key.drop 4
  match lmsLength (sig.drop 4) with
  | none => false
  | some n =>
    if ofBytesBE (sig.take 4) + 1 ≠ levels then false
    else if levels = 1 then lmsVerifies top msg (sig.drop 4)
    else if levels = 2 then
      let low := (sig.drop (4 + n)).take lmsKeyLength
      lmsVerifies top low ((sig.drop 4).take n) && lmsVerifies low msg (sig.drop (4 + n + lmsKeyLength))
    else false

end Sys2Proof.Machine
end

