-- ==== Sys2Proof/Machine/Order.lean ====
section
/-! DEFINITION. Parties, the perform order, local order, scopes and scope races (15_ordering, R266 to R277). -/

namespace Sys2Proof.Machine
open Sys2Proof

/-- The bit of a path in a `fence.x` (R230). -/
def Path.idx : Path → Nat
  | .p => 0 | .v => 1 | .m => 2 | .x => 3 | .h => 4 | .n => 5

/-! ### What lagging slots have still to issue (R40) -/

/-- The operation of a slot of a bundle, where its word is one (R60, R61). -/
def opAt (b : BitVec 256) (sl : Slot) : Option Instr := decode sl (fun k => slotWord b k.toNat) (slotWord b sl.idx)

/-- Whether an instruction is a `nop`. -/
def isNop : Instr → Bool
  | .nop _ => true
  | _ => false

/-- What a pending slot of a bundle issues: a `nop` where it holds a literal (R36). -/
def issuing (b : BitVec 256) (sl : Slot) : Option Instr := if litBit b sl.idx then some (.nop sl) else opAt b sl

/-- The slots that come to the bundle in issue together with a slot: those that its join covers, where it covers the slot (R41). -/
def Issue.together (i : Issue) (sl : Slot) : List Slot :=
  if i.join.contains sl && decide (1 < i.join.length) then i.join else [sl]

/-- The path of the accesses that an operation makes (Table 15.1, R163, R367). -/
def memPath : Instr → Option Path
  | .ldU8 _ _ _ _ | .ldS8 _ _ _ _ | .ldU16 _ _ _ _ | .ldS16 _ _ _ _ | .ldU32 _ _ _ _ | .ldS32 _ _ _ _ | .ld64 _ _ _ _ | .ldAcq _ _ _ _
  | .st8 _ _ _ _ | .st16 _ _ _ _ | .st32 _ _ _ _ | .st64 _ _ _ _ | .stRel _ _ _ _ | .ldk _ _ _
  | .amoAdd _ _ _ _ _ _ _ | .amoInc _ _ _ _ _ _ | .amoAnd _ _ _ _ _ _ _ | .amoOr _ _ _ _ _ _ _ | .amoXor _ _ _ _ _ _ _ | .amoSmin _ _ _ _ _ _ _
  | .amoSmax _ _ _ _ _ _ _ | .amoUmin _ _ _ _ _ _ _ | .amoUmax _ _ _ _ _ _ _ | .amoSwap _ _ _ _ _ _ _ | .amoCas _ _ _ _ _ _ _ _
  | .amoFadd _ _ _ _ _ _ _ | .redAdd _ _ _ _ _ _ | .redInc _ _ _ _ _ | .redAnd _ _ _ _ _ _ | .redOr _ _ _ _ _ _ | .redXor _ _ _ _ _ _
  | .redSmin _ _ _ _ _ _ | .redSmax _ _ _ _ _ _ | .redUmin _ _ _ _ _ _ | .redUmax _ _ _ _ _ _ | .redFadd _ _ _ _ _ _
  | .spawn _ _ _ | .wakew _ _ _ _ _ | .foldArrive _ | .vlutLd _ _ _ | .kst _ _ _ | .kld _ _ _ => some .p
  | .vld _ _ _ _ _ _ | .vst _ _ _ _ _ | .vgath _ _ _ _ _ _ | .vscat _ _ _ _ _ => some .v
  | .mma _ _ _ _ _ _ | .maccLd _ _ _ | .maccSt _ _ _ => some .m
  | .cpFill _ _ _ _ _ | .cpDrain _ _ _ _ _ | .cpGath _ _ _ _ | .cpScat _ _ _ _ | .cpBcst _ _ _ _ | .cpRedFadd _ _ _ _ | .cpRedBf2Add _ _ _ _
  | .cpRedIntAdd _ _ _ _ | .cpRedSmax _ _ _ _ | .cpRedUmax _ _ _ _ | .cpSelr _ _ _ _ | .cpSelc _ _ _ _ | .cpRmaPut _ _ _ _ | .cpRmaGet _ _ _ _
  | .cpRamo _ _ _ _ | .cpGdrain _ _ _ _ | .cpPmtGrant _ _ _ | .cpPmtTake _ _ _ => some .x
  | _ => none

/-- Whether an operation that is no join of all slots commits or spills the porch (R227, R253, R329, R368, R369). -/
def commits : Instr → Bool
  | .amoAdd _ _ _ _ _ _ _ | .amoInc _ _ _ _ _ _ | .amoAnd _ _ _ _ _ _ _ | .amoOr _ _ _ _ _ _ _ | .amoXor _ _ _ _ _ _ _ | .amoSmin _ _ _ _ _ _ _
  | .amoSmax _ _ _ _ _ _ _ | .amoUmin _ _ _ _ _ _ _ | .amoUmax _ _ _ _ _ _ _ | .amoSwap _ _ _ _ _ _ _ | .amoCas _ _ _ _ _ _ _ _
  | .amoFadd _ _ _ _ _ _ _ | .foldBytes _ _ | .cpPmtTake _ _ _ | .xlatSync | .pgReform _ _ _ => true
  | _ => false

/-- Whether a slot has still to issue an operation that meets a test, before a position and slot in program order (R39, R40). -/
def Ctx.lags (c : Ctx) (pos slot : Nat) (p : Instr → Bool) : Bool :=
  c.bundles.any fun b => Slot.all.any fun z =>
    (decide (b.pos < pos) || (b.pos == pos && decide (z.idx < slot))) && b.issue.awaits z && (issuing b.issue.bits z).any p

/-- Whether an access of some path at a position and slot waits for an earlier one that a lagging slot has still to issue (R218, R222, R223, R271, R272): one
of the same path, whose bytes are not known yet (log 91). -/
def Ctx.pathLags (c : Ctx) (pos slot : Nat) (path : Path) : Bool := c.lags pos slot fun i => memPath i == some path

/-- Whether an operation waits for the accesses that lagging slots have still to issue before it: those of its path, and those of every path where it
commits the porch (R227, R232). -/
def Ctx.memWaits (c : Ctx) (sl : Slot) : Bool := match issuing c.bundle sl with
  | some i => (memPath i).any (c.pathLags c.pos sl.idx) || (commits i && c.lags c.pos sl.idx fun z => (memPath z).isSome)
  | none => false

/-! ### Acts -/

/-- Whether an act reads. -/
def Act.reads (a : Act) : Bool := match a.kind with | .read _ _ | .atomic _ _ => true | _ => false
/-- Whether an act writes. -/
def Act.writes (a : Act) : Bool := match a.kind with | .write _ | .atomic _ _ => true | _ => false
/-- Whether an act is a release (`st.rel` and what orders like one: R223, R306, R324). -/
def Act.releases (a : Act) : Bool := match a.kind with | .write r => r | _ => false
/-- Whether an act is an acquire (`ld.acq` and what orders like one: R222, R306, R321). -/
def Act.acquires (a : Act) : Bool := match a.kind with | .read q _ => q | _ => false
/-- Whether an act is a fence. -/
def Act.isFence (a : Act) : Bool := match a.kind with | .fence _ _ _ => true | _ => false
/-- Whether an act is an `amo`. -/
def Act.isAmo (a : Act) : Bool := match a.kind with | .atomic m _ => m | _ => false
/-- The numbers of the writes that an act read. -/
def Act.sources (a : Act) : List Nat := match a.kind with | .read _ l | .atomic _ l => l | _ => []
/-- Whether an act touches a byte. -/
def Act.at (a : Act) (obj o : Nat) : Bool := !a.isFence && a.obj == obj && decide (a.off ≤ o) && decide (o < a.off + a.len)
/-- Whether two acts touch a common byte. -/
def Act.meets (a b : Act) : Bool :=
  !a.isFence && !b.isFence && a.obj == b.obj && decide (a.off < b.off + b.len) && decide (b.off < a.off + a.len)
/-- Whether an act comes before another in their party's program order (R39). -/
def Act.before (a b : Act) : Bool :=
  a.party == b.party && (decide (a.prog.1 < b.prog.1) || (a.prog.1 == b.prog.1 &&
    (decide (a.prog.2.1 < b.prog.2.1) || (a.prog.2.1 == b.prog.2.1 && decide (a.prog.2.2 < b.prog.2.2)))))
/-- Whether two acts have the same class: those that R222, R223, R306 and R324 order carry none (R218). -/
def Act.sameClass (a b : Act) : Bool := a.cls == b.cls && a.cls != 16

/-! ### Local order (R229, R230, R271) -/

/-- Whether a fence orders an access by its path and class (R229, R230): `fence` the paths P, V and X, and path M by class 15. The releases of
R218 are of every class to it; an acquire is of none. -/
def Act.orders (f a : Act) : Bool := match f.kind with
  | .fence _ ps true => ps.getLsbD a.path.idx
  | .fence m _ false => match a.path with
    | .p | .v | .x => (a.cls == 16 && !a.acquires) || m.getLsbD a.cls
    | .m => m.getLsbD 15
    | _ => false
  | _ => false

/-- The clauses of Table 15.3, among the acts of a list. -/
def localEdge (l : List Act) (a b : Act) : Bool :=
  a.before b && !a.isFence && !b.isFence &&
    ((a.path == b.path && (a.path == .m || a.sameClass b || a.meets b))
      || (a.path == .p && b.path == .p && (b.releases || a.acquires))
      || (a.tile.isSome && a.tile == b.tile)
      || decide (a.prog.1 < b.prog.1)
      || (b.isAmo && a.held && a.writes)
      || l.any fun f => a.before f && f.before b && f.orders a && f.orders b
          && (a.path == b.path || (match f.kind with | .fence _ _ x => x | _ => false)))

/-- The acts that so many edges of local order reach from some acts. -/
def spread (l : List Act) : Nat → List Act → List Act
  | 0, r => r
  | n + 1, r => spread l n (l.filter fun b => r.any fun a => a.id == b.id || localEdge l a b)

/-- Local order (R271): the transitive closure of Table 15.3. -/
def localOrder (l : List Act) (a b : Act) : Bool :=
  a.id != b.id && (let mine := l.filter fun x => x.party == a.party
                   (spread mine mine.length [a]).any fun x => x.id == b.id)

/-- Whether an access comes before an act of its party in local order; before a fence what it orders (R272). -/
def ordersBefore (l : List Act) (x o : Act) : Bool :=
  if o.isFence then l.any fun a => (a.id == x.id || localOrder l x a) && a.before o && o.orders a else localOrder l x o

/-- Whether an access comes after an act of its party in local order. -/
def ordersAfter (l : List Act) (o y : Act) : Bool :=
  if o.isFence then l.any fun a => (a.id == y.id || localOrder l a y) && o.before a && o.orders a else localOrder l o y

/-! ### Scopes (R274, R275) -/

/-- `Scope(p, s)` (Table 15.4): whether a party whose operation issues on core `d` is in the scope `s` of an operation that issues on core
`c`; none is a fabric peer. -/
def inScope (c : Option Nat) (s : Nat) (d : Option Nat) : Bool :=
  match c, d with
  | none, none => s == 5
  | none, some _ => s == 5
  | some _, none => s == 5
  | some c, some d =>
    if 4 ≤ s then true
    else if c < 288 then
      if s = 0 then d == c
      else if s = 1 then decide (d < 288) && quadOf d == quadOf c
      else if s = 2 then decide (d < 294) && clusterOf d == clusterOf c
      else decide (d < 294) && dieOf d == dieOf c
    else if c < 294 then
      if s < 2 then d == c
      else if s = 2 then d == c || (decide (d < 288) && clusterOf d == clusterOf c)
      else decide (d < 294) && dieOf d == dieOf c
    else d == c

/-- Mutual inclusion (R275). -/
def mutuallyInclude (a b : Act) : Bool := a.party == b.party || (inScope a.core a.scope b.core && inScope b.core b.scope a.core)

/-! ### Synchronising pairs and scope races (R276, R277) -/

/-- Whether an act is an operation of Table 15.5. -/
def Act.syncs (a : Act) : Bool := a.isFence || a.releases || a.acquires || (match a.kind with | .atomic _ _ => true | _ => false)

/-- The release of a pair: a release is its own write; a fence stands before a write that it orders after itself. -/
def releasesBy (l : List Act) (o w : Act) : Bool :=
  (o.id == w.id && o.releases) || (o.isFence && w.writes && o.before w && ordersAfter l o w)

/-- The acquire of a pair: an acquire is its own read; a fence stands after a read that it orders before later accesses. -/
def acquiresBy (l : List Act) (o r : Act) : Bool :=
  (o.id == r.id && o.acquires) || (o.isFence && r.reads && r.before o && ordersBefore l r o)

/-- Whether the locations of a release and acquire pair hold a byte (Table 15.5, row 1). -/
def touchedByRelease (l : List Act) (a b : Act) (obj o : Nat) : Bool :=
  (l.any fun w => releasesBy l a w && l.any fun r => acquiresBy l b r && r.sources.contains w.id)
    && l.any fun x => x.party == a.party && x.at obj o && ordersBefore l x a
        && l.any fun y => y.party == b.party && y.at obj o && (x.writes || y.writes) && ordersAfter l b y

/-- Whether the locations of a pair of fences hold a byte (Table 15.5, row 2), in one of its two directions. -/
def touchedByFences (l : List Act) (a b : Act) (obj o : Nat) : Bool :=
  a.isFence && b.isFence && a.scope != 0 && b.scope != 0
    && l.any fun x => x.party == a.party && x.at obj o && ordersBefore l x a
        && l.any fun y => y.party == b.party && y.at obj o && (x.writes || y.writes) && ordersAfter l b y

/-- Whether the common location of a pair of atomics holds a byte (Table 15.5, row 3). -/
def touchedByAtomics (a b : Act) (obj o : Nat) : Bool := !a.isFence && !b.isFence && a.syncs && b.syncs && a.at obj o && b.at obj o

/-- Whether two operations are a scope race that touches a byte (R276). -/
def scopeRace (l : List Act) (a b : Act) (obj o : Nat) : Bool :=
  a.party != b.party && !mutuallyInclude a b
    && (touchedByAtomics a b obj o || touchedByRelease l a b obj o || touchedByFences l a b obj o)

/-- Whether a byte lies in a scope race that is open (R277): no write of it has performed after both operations. -/
def racedAt (l : List Act) (obj o : Nat) : Bool :=
  let ops := l.filter Act.syncs
  ops.any fun a => ops.any fun b => scopeRace l a b obj o
    && l.all fun w => !(w.writes && w.at obj o && decide (max a.id b.id < w.id))

/-- Whether a byte lies in a scope race that was foreseen, `f` its span and when (R277): the race's later operation is still to come, or no write
of the byte has performed after it. -/
def foreseenAt (l : List Act) (f : Nat × Nat × Nat × Nat) (obj o : Nat) : Bool :=
  let ops := l.filter Act.syncs
  f.1 == obj && decide (f.2.1 ≤ o) && decide (o < f.2.1 + f.2.2.1)
    && !(ops.any fun a => ops.any fun b => decide (f.2.2.2 ≤ max a.id b.id) && scopeRace l a b obj o
      && l.any fun w => w.writes && w.at obj o && decide (max a.id b.id < w.id))

/-- Whether a read of a byte may return any value ever written to it (R277): it lies in a scope race that is open, or that is to come. -/
def State.raced (s : State) (obj o : Nat) : Bool := racedAt s.acts obj o || s.foreseen.any fun f => foreseenAt s.acts f obj o

/-- The writes that a read of bytes finds: the newest one of each byte, or every one where the byte is raced (R277) or stands for a fold, whose
completion every arrival makes (R306). -/
def State.sourcesAt (s : State) (obj o n : Nat) : List Nat :=
  ((List.range n).flatMap fun i =>
    let ws := s.acts.filter fun w => w.writes && w.at obj (o + i)
    (if s.raced obj (o + i) || decide (2 ^ 25 ≤ obj) then ws else ws.take 1).map (·.id)).eraseDups

/-- The byte that stood at an object offset after the first `m` acts, `now` the present one (R277). What hardware has cleared is not seen again (R2,
R350). -/
def State.byteThen (s : State) (m obj o : Nat) (now : Byte) : Byte :=
  match ((s.acts.takeWhile fun w => !(w.party == .core 295 && w.at obj o)).filter fun w => w.writes && w.at obj o && decide (m ≤ w.id)).getLast? with
  | some w => w.old.getD (o - w.off) now
  | none => now

/-! ### The acts of the machine's parties -/

/-- An act performs: it is the newest of the perform order. -/
def State.record (s : State) (a : Act) : State := { s with acts := { a with id := s.acts.length } :: s.acts }

/-- The party of a core's context (R266). -/
def partyOf (core : Nat) (c : Ctx) : Party := if c.hasRecord then .frame c.record.frameObj c.record.frameOff else .core core

/-- The number of a context's segment (R39): pickups, then the segments of one pickup. -/
def Ctx.segment (c : Ctx) : Nat := 2 ^ 32 * c.record.seq + c.segNo

/-- An access of a core's context at a slot and position, which reads. -/
def readAct (core : Nat) (c : Ctx) (sl : Slot) (path : Path) (cls obj o n : Nat) : Act :=
  { id := 0, party := partyOf core c, core := some core, prog := (c.segment, c.pos, sl.idx), path := path, cls := cls, scope := 0, obj := obj, off := o,
    len := n, held := false, tile := none, kind := .read false [] }

/-- The act of a fence of a core's context (R267 item 4). -/
def fenceAct (core : Nat) (c : Ctx) (scope : Nat) (cls : BitVec 16) (paths : BitVec 6) (x : Bool) : Act :=
  { readAct core c .c .p 16 0 0 0 with scope := scope, kind := .fence cls paths x }

/-- The acts of a context's present segment. -/
def State.segActs (s : State) (core : Nat) (c : Ctx) : List Act :=
  s.acts.filter fun a => a.party == partyOf core c && a.prog.1 == c.segment

/-- An access of a fabric peer, on path N (R266): in the order of its connection's messages (R214). The scope of its release is `.fab` (log 84). -/
def peerAct (s : State) (cn obj o n : Nat) (kind : ActKind) : Act :=
  { id := 0, party := .peer cn, core := none, prog := (0, s.acts.length, 0), path := .n, cls := 0, scope := 5, obj := obj, off := o, len := n, held := false,
    tile := none, kind := kind }

/-- A write of bytes by the hardware for no party: no core has its party's number. -/
def hardwareAct (s : State) (obj o n : Nat) : Act :=
  { peerAct s 0 obj o n (.write false) with party := .core 295 }

/-- A read records the writes that it finds. -/
def State.recordRead (s : State) (a : Act) : State :=
  let t := s.record a
  { t with acts := match t.acts with
    | x :: l => { x with kind := match x.kind with
        | .read q _ => .read q ((t.sourcesAt x.obj x.off x.len).filter (· != x.id))
        | .atomic m _ => .atomic m ((t.sourcesAt x.obj x.off x.len).filter (· != x.id))
        | k => k } :: l
    | [] => [] }

end Sys2Proof.Machine
end

