-- ==== Sys2Proof/Machine/Phys.lean ====
section
/-! DEFINITION. Memory by address, tags, the object table, page entries, local spaces (12_spaces, R341 to R350). -/

namespace Sys2Proof.Machine
open Sys2Proof

/-! ### Bytes -/

/-- What an unlisted byte reads as: memory is cleared to zero at reset (R202, R384). -/
def freshByte : Byte := 0

/-- One byte of memory. -/
def mget (m : List Host.Cell) (a : Nat) : Byte := sget freshByte m a
/-- Memory with one byte written; its canonical form is kept. -/
def mput (m : List Host.Cell) (a : Nat) (b : Byte) : List Host.Cell := sput freshByte m a b
/-- The canonical form of memory: rising addresses, and no byte that an unlisted address reads as. -/
abbrev Memory.wf (m : List Host.Cell) : Prop := swf freshByte m = true

/-- The byte that a write-queue entry holds for an address (R280). -/
def Burst.byteAt (q : Burst) (a : Nat) : Option Byte :=
  if q.addr ≤ a ∧ a < q.addr + 64 then
    if q.mask.getLsbD (a - q.addr) then some (BitVec.ofNat 8 (q.data.toNat / 256 ^ (a - q.addr))) else none
  else none
/-- An entry whose byte at an address is another, where it covers the address. -/
def Burst.put (q : Burst) (a : Nat) (b : Byte) : Burst :=
  if (q.byteAt a).isSome then { q with data := setBits q.data (8 * (a - q.addr)) 8 b.toNat } else q

/-- The newest byte that the write queues hold for an address: `NewestEntryCovering` (R280). -/
def State.queued (s : State) (a : Nat) : Option Byte := s.writeQ.foldl (fun b q => (q.byteAt a).or b) none

/-- One byte at an address: the newest write accepted before (R280). -/
def State.byte (s : State) (a : Nat) : Byte := (s.queued a).getD (mget s.mem a)
/-- `n` bytes from an address, lowest first. -/
def State.bytes (s : State) (a n : Nat) : List Byte := (List.range n).map fun i => s.byte (a + i)
/-- `n` bytes from an address as a number (R4). -/
def State.num (s : State) (a n : Nat) : Nat := ofBytes (s.bytes a n)

/-- Clears the tag of the block that holds an address: any write to a byte of a block does (R343). -/
def State.untag (s : State) (a : Nat) : State := { s with tags := s.tags.filter fun t => t != a / 16 }
/-- Sets the tag of a block. -/
def State.tagBlock (s : State) (a : Nat) : State :=
  { s with tags := ((s.tags.filter fun t => decide (t < a / 16)) ++ [a / 16]) ++ s.tags.filter fun t => decide (a / 16 < t) }
/-- The tag of the block that holds an address. -/
def State.tagAt (s : State) (a : Nat) : Bool := s.tags.contains (a / 16)

/-- Memory's byte at an address becomes another; so does every write-queue entry's that covers it, so that what such an entry writes later
is no older (R280; log 81). -/
def State.setByte (s : State) (a : Nat) (b : Byte) : State := { s with mem := mput s.mem a b, writeQ := s.writeQ.map fun q => q.put a b }
/-- Writes one byte; its block's tag is cleared in the same event (R343). -/
def State.poke (s : State) (a : Nat) (b : Byte) : State := (s.untag a).setByte a b
/-- Writes bytes from an address up. -/
def State.pokes (s : State) (a : Nat) : List Byte → State
  | [] => s
  | b :: t => (s.poke a b).pokes (a + 1) t
/-- Writes the `n` low bytes of a number. -/
def State.pokeNum (s : State) (a n v : Nat) : State := s.pokes a (toBytes n v)

/-! ### Addresses -/

/-- The address of a byte of a local space: scratchpads below rooms (R203, R204). -/
def spaceAddr (obj off : Nat) : Nat :=
  if obj < 0xFF9000 then 2 ^ 60 + (obj - 0xFF8000) * 2 ^ 21 + off else 2 ^ 61 + (obj - 0xFF9000) * 2 ^ 22 + off
/-- Whether an object id is a scratchpad's. -/
def isScratch (obj : Nat) : Bool := decide (0xFF8000 ≤ obj) && decide (obj < 0xFF8120)
/-- Whether an object id is a room's. -/
def isRoom (obj : Nat) : Bool := decide (0xFF9000 ≤ obj) && decide (obj < 0xFF9120)
/-- A local space's number: scratchpads 0 to 287, rooms 288 to 575 (R350). -/
def spaceNo (obj : Nat) : Nat := if isScratch obj then obj - 0xFF8000 else 288 + (obj - 0xFF9000)
/-- The object id of a local space. -/
def spaceObj (n : Nat) : Nat := if n < 288 then 0xFF8000 + n else 0xFF9000 + (n - 288)
/-- The device of a physical address: 0 to 7 the HBM stacks, 8 to 15 the Cellar stacks (R346). -/
def deviceOf (pa : Nat) : Nat := pa / 2 ^ 56 % 16
/-- The die of a stack (Table 1.2). -/
def stackDie (dev : Nat) : Nat := dev % 8 / 4
/-- The bytes of a stack: 48 GiB of HBM, 512 GiB of the Cellar (Table 1.4). -/
def stackSize (dev : Nat) : Nat := if dev < 8 then 48 * 2 ^ 30 else 512 * 2 ^ 30

/-! ### The object table (Table 21.3) -/

/-- A table's base register as an access finds it (R376): its value, or one that it held before, unspecified for each access. Its place in Table
22.5, from 0 for `OTAB`. -/
def State.tab (s : State) (k : Nat) (now : Word) : Word :=
  let old := sget [] s.oldTabs k
  (now :: old).getD (if old.isEmpty then 0 else s.pickAt 3100 k 0 % (old.length + 1)) now

/-- The number of entries of the object table (Table 22.6). -/
def State.objCount (s : State) : Nat := 2 ^ (16 + min 6 (bits (s.tab 0 s.otab) 61 3))
/-- Whether an id names an entry of the object table (R344). -/
def State.isTable (s : State) (obj : Nat) : Bool := decide (1 ≤ obj) && decide (obj < s.objCount)
/-- An object-table entry, byte 0 least significant. -/
abbrev ObjEnt := BitVec 512
/-- The address of an entry. -/
def State.objAddr (s : State) (obj : Nat) : Nat := bits (s.tab 0 s.otab) 0 60 / 65536 * 65536 + 64 * obj
/-- An entry as memory holds it. -/
def State.objEnt (s : State) (obj : Nat) : ObjEnt := BitVec.ofNat 512 (s.num (s.objAddr obj) 64)
/-- ROOT. -/
def ObjEnt.root (e : ObjEnt) : Nat := bits e 0 60
/-- SIZE. -/
def ObjEnt.size (e : ObjEnt) : Nat := bits e 64 40
/-- A paddock of PADS. -/
def ObjEnt.pad (e : ObjEnt) (j : Nat) : Nat := bits e (128 + 16 * j) 16
/-- PCNT. -/
def ObjEnt.pcnt (e : ObjEnt) : Nat := bits e 192 3
/-- PG2M. -/
def ObjEnt.big (e : ObjEnt) : Bool := e.getLsbD 201
/-- FAB. -/
def ObjEnt.fab (e : ObjEnt) : Bool := e.getLsbD 202
/-- EXEC. -/
def ObjEnt.exec (e : ObjEnt) : Bool := e.getLsbD 203
/-- TDEF. -/
def ObjEnt.tdef (e : ObjEnt) : Nat := bits e 208 2
/-- GEN. -/
def ObjEnt.gen (e : ObjEnt) : Nat := bits e 224 16
/-- RGEN. -/
def ObjEnt.rgen (e : ObjEnt) : Nat := bits e 240 16
/-- ROBJ. -/
def ObjEnt.robj (e : ObjEnt) : Nat := bits e 256 24
/-- Whether an entry is valid: VALID set, every reserved bit zero, PCNT at most 4 (R345). -/
def ObjEnt.valid (e : ObjEnt) : Bool :=
  e.getLsbD 200 && bits e 60 4 == 0 && bits e 104 24 == 0 && bits e 195 5 == 0 && decide (e.pcnt ≤ 4) && bits e 204 4 == 0
    && bits e 210 14 == 0 && bits e 280 232 == 0
/-- Whether an entry permits a paddock (Table 21.5 check 2). -/
def ObjEnt.permits (e : ObjEnt) (pad : Nat) : Bool := (List.range 4).any fun j => decide (j < e.pcnt) && e.pad j == pad
/-- The page size in bytes. -/
def ObjEnt.page (e : ObjEnt) : Nat := if e.big then 2 ^ 21 else 2 ^ 16

/-! ### Page entries (Table 21.4) -/

/-- A page entry. -/
abbrev PageEnt := BitVec 64
/-- P. -/
def PageEnt.p (e : PageEnt) : Bool := e.getLsbD 63
/-- WR. -/
def PageEnt.wr (e : PageEnt) : Bool := e.getLsbD 62
/-- TIER: 0 HBM, 1 Cellar, 2 remote, 3 bouncing. -/
def PageEnt.tier (e : PageEnt) : Nat := bits e 58 2
/-- SF. -/
def PageEnt.sf (e : PageEnt) : Nat := bits e 54 4
/-- DF. -/
def PageEnt.df (e : PageEnt) : Nat := bits e 50 4
/-- CMP. -/
def PageEnt.cmp (e : PageEnt) : Bool := e.getLsbD 49
/-- PBP. -/
def PageEnt.pbp (e : PageEnt) : Bool := e.getLsbD 48
/-- RF. -/
def PageEnt.rf (e : PageEnt) : Bool := e.getLsbD 47
/-- The physical address that FRAME gives. -/
def PageEnt.base (e : PageEnt) : Nat := 65536 * bits e 0 44
/-- The lost form (R347). -/
def PageEnt.lost (e : PageEnt) : Bool := !e.p && e.tier == 3 && bits e 0 44 == 2 ^ 44 - 1
/-- What hardware writes to mark a page lost (R347). -/
def lostForm : PageEnt := BitVec.ofNat 64 (3 * 2 ^ 58 + (2 ^ 44 - 1))
/-- A page entry without AC and DI, which hardware sets (R349). -/
def PageEnt.plain (e : PageEnt) : PageEnt := setBits e 60 2 0
/-- Whether an entry names a pair of Table 10.1 and keeps R184. -/
def PageEnt.pairOk (e : PageEnt) : Bool :=
  let sf := e.sf
  let df := e.df
  let pass := sf == df && decide (sf ≤ 5)
  let conv := ((sf == 2 || sf == 3) && df == 1) || (decide (4 ≤ sf) && decide (sf ≤ 12) && decide (1 ≤ df) && decide (df ≤ 3))
  (pass || conv) && (!e.cmp || (pass && e.tier == 0)) && (e.tier != 2 || (sf == 0 && df == 0))
/-- Whether a page converts (R183). -/
def PageEnt.converts (e : PageEnt) : Bool := !(e.sf == e.df && decide (e.sf ≤ 5))

/-- The bytes of the stored image of a page of `size` delivered bytes (Table 10.2). -/
def PageEnt.image (e : PageEnt) (size : Nat) : Nat :=
  if !e.converts then size else
    let wd := if e.df = 1 then 4 else 2
    let n := size / wd
    if e.sf = 2 ∨ e.sf = 3 then 2 * n
    else if e.sf = 4 ∨ e.sf = 5 then n
    else if e.sf = 12 then n / 16384 * 8512
    else if e.sf = 8 ∨ e.sf = 9 then n / 2048 * 1600
    else if e.sf = 10 then n / 2048 * 1088
    else n / 2048 * 2112

/-- Whether the L2's lines hold a page's bytes themselves: they convert, or the Cellar holds them. The lines of a plain page of HBM have theirs in
memory's bytes (log 81). -/
def PageEnt.inLines (e : PageEnt) : Bool := e.converts || decide (8 ≤ deviceOf e.base)

/-- Whether a page is resident (R211, R347). -/
def PageEnt.resident (e : PageEnt) (size : Nat) : Bool :=
  e.p && decide (e.tier < 2) && bits e 44 3 == 0
    && decide (e.base % 2 ^ 56 + e.image size ≤ stackSize (deviceOf e.base))

/-- A pointer entry of a walk (R346): the next table's address, where the entry is present and well formed. -/
def pointer (v align : Nat) : Option Nat :=
  if v / 2 ^ 63 % 2 = 1 ∧ v / 2 ^ 60 % 8 = 0 ∧ v % 2 ^ 60 % align = 0 then some (v % 2 ^ 60) else none

/-- The address of the page entry of an object offset, where the walk reaches one (R346). -/
def State.pageAddr (s : State) (e : ObjEnt) (off : Nat) : Option Nat := do
  let t2 ← pointer (s.num (e.root + 8 * (off / 2 ^ 30 % 1024)) 8) 4096
  if e.big then some (t2 + 8 * (off / 2 ^ 21 % 512))
  else
    let t3 ← pointer (s.num (t2 + 8 * (off / 2 ^ 21 % 512)) 8) 256
    some (t3 + 8 * (off / 2 ^ 16 % 32))

/-- The page entry of an object offset as memory holds it; zeros where the walk ends early (not present). -/
def State.pageEnt (s : State) (e : ObjEnt) (off : Nat) : PageEnt := match s.pageAddr e off with
  | some a => BitVec.ofNat 64 (s.num a 8)
  | none => 0

/-! ### Cached translations (R353) -/

/-- An object entry as an access finds it: as memory holds it, or an older value that a cache still holds (R353); which is free. -/
def State.seenObj (s : State) (obj salt : Nat) : ObjEnt :=
  let cur := s.objEnt obj
  let old := (s.xlat.filter fun x => x.obj == obj && x.page.isNone && x.val != cur.toNat).map fun x => BitVec.ofNat 512 x.val
  (cur :: old).getD (if old.isEmpty then 0 else s.pickAt 3000 obj salt % (old.length + 1)) cur

/-- A page entry as an access finds it (R353): a cache never holds an entry that is not present. -/
def State.seenPage (s : State) (obj : Nat) (e : ObjEnt) (off salt : Nat) : PageEnt :=
  let cur := s.pageEnt e off
  let pg := off / e.page
  let old := (s.xlat.filter fun x => x.obj == obj && x.page == some pg && x.val != cur.plain.toNat).map fun x => BitVec.ofNat 64 x.val
  (cur :: old).getD (if old.isEmpty then 0 else s.pickAt 4000 (obj + 2 ^ 24 * pg) salt % (old.length + 1)) cur

/-- Notes what an access found in the caches. -/
def State.note (s : State) (x : Xlat) : State := if s.xlat.contains x then s else { s with xlat := s.xlat ++ [x] }

/-- The atomic OR of AC, and of DI for a write, into a page entry (R349): a write, which clears its block's tag (R343). -/
def State.setAcDi (s : State) (e : ObjEnt) (off : Nat) (write : Bool) : State := match s.pageAddr e off with
  | none => s
  | some a =>
    let v := s.num a 8
    let w := v ||| 2 ^ 61 ||| (if write then 2 ^ 60 else 0)
    if v / 2 ^ 63 % 2 = 0 ∨ w = v then s else s.poke (a + 7) (BitVec.ofNat 8 (w / 2 ^ 56))

/-! ### Local spaces -/

/-- A vault's split (Table 12.3). -/
def Phase.initial : Phase := ⟨8, 8, false⟩
/-- The split of a vault. -/
def State.phaseOf (s : State) (v : Nat) : Phase := sget Phase.initial s.phases v
/-- ROOMSZ (R204). -/
def State.roomSize (s : State) (v : Nat) : Nat := 0x380000 - 0x40000 * (s.phaseOf v).cur
/-- The bytes of a local space that its descriptor covers (R351). -/
def spaceSize (obj : Nat) : Nat := if isScratch obj then 0x200000 else 0x380000
/-- A space's descriptor (R350). -/
def State.desc (s : State) (obj : Nat) : BitVec 32 := sget 0 s.descs (spaceNo obj)
/-- Whether a region of a space is lost (R407). -/
def State.lostRegion (s : State) (obj off : Nat) : Bool := (sget 0 s.lost (spaceNo obj)).getLsbD (off / 65536)
/-- Whether a space is being cleared (R350). -/
def State.isClearing (s : State) (obj : Nat) : Bool := s.clearing.any fun e => e.1 == spaceNo obj

/-- The home slice of a line (R209): the vault id. -/
def homeOf (obj off die : Nat) : Nat := 144 * die + (off / 256 + 37 * obj) % 144
/-- The home slice of a line of a page: its die is that of the page's stack (R11). -/
def PageEnt.home (e : PageEnt) (obj off : Nat) : Nat := homeOf obj off (stackDie (deviceOf e.base))
/-- The ways of a slice that take lines: those in use that no change of split releases (R206, R208). -/
def State.openWays (s : State) (v : Nat) : Nat := 2 * min (s.phaseOf v).cur (s.phaseOf v).tgt

end Sys2Proof.Machine
end

