-- ==== Sys2Proof/Machine/Convert.lean ====
section
/-! DEFINITION. Stored and delivered formats: decoding and encoding of the units of converting pages, and the L2 lines that hold
delivered bytes (R84 to R92, R183 to R195). -/

namespace Sys2Proof.Machine
open Sys2Proof

/-- The floating-point format of a scalar format code (Table 5.10). -/
def fmtOfCode : Nat → Fmt
  | 1 => .fp32 | 2 => .bf16 | 3 => .fp16 | 4 => .e4m3 | 5 => .e5m2 | 6 => .e4m3 | 7 => .e5m2 | 8 => .e3m2 | 9 => .e2m3 | 10 => .e2m1
  | _ => .fp32

/-- The element bits of a format code (Table 5.10). -/
def codeBits : Nat → Nat
  | 1 => 32 | 2 => 16 | 3 => 16 | 4 => 8 | 5 => 8 | 6 => 8 | 7 => 8 | 8 => 6 | 9 => 6 | 10 => 4 | 11 => 8 | 12 => 4 | _ => 8

/-- Whether a code is an MX block format. -/
def isMx (c : Nat) : Bool := decide (6 ≤ c) && decide (c ≤ 11)

/-- Element `i` of packed elements of `w` bits, read through a byte function (R84). -/
def packedAt (rd : Nat → Byte) (w i : Nat) : Nat :=
  let lo := i * w
  ((rd (lo / 8)).toNat + 256 * (if lo % 8 + w ≤ 8 then 0 else (rd (lo / 8 + 1)).toNat)
    + 65536 * (if lo % 8 + w ≤ 16 then 0 else (rd (lo / 8 + 2)).toNat)
    + 16777216 * (if lo % 8 + w ≤ 24 then 0 else (rd (lo / 8 + 3)).toNat)) / 2 ^ (lo % 8) % 2 ^ w

/-- The value of an MX element pattern (R80, R87). -/
def mxElem (code p : Nat) : FV :=
  if code = 11 then ofInt (signed 8 p) (-6) false else unpack (fmtOfCode code) p

/-- The value of an element of an MX block with its scale (R86). -/
def mxScaled (scale : Nat) (v : FV) : FV :=
  if scale = 0xFF then .nan false else
    match v with
    | .fin n m e => .fin n m (e + scale - 127)
    | x => x

/-- The bytes of the element area of one block of 32, and of a run of 64 (Table 5.6). -/
def mxBlock (code : Nat) : Nat := 4 * codeBits code
/-- The size of a run. -/
def mxRun (code : Nat) : Nat := 64 * (mxBlock code + 1)

/-- Element `n` of a stream of MX runs, through a byte function (R88). -/
def mxAt (rd : Nat → Byte) (code n : Nat) : FV :=
  let run := n / 2048 * mxRun code
  let k := n % 2048
  mxScaled (rd (run + 64 * mxBlock code + k / 32)).toNat (mxElem code (packedAt (fun i => rd (run + i)) (codeBits code) k))

/-- The levels of Table 5.8. -/
def gqLevel (q : Nat) : Int :=
  [(-128 : Int), -90, -68, -52, -38, -25, -12, 0, 11, 22, 33, 45, 59, 75, 97, 128].getD q 0

/-- The step value t of a block (R91): always rounded to FP32, nearest even. -/
def gqStep (sup : FV) (c : Nat) : FV :=
  match sup with
  | .fin n m e => (roundTo .fp32 0 false (.fin n (m * (c + 1)) (e - 8))).1
  | x => x

/-- `t × L / 128`, exact. -/
def gqTimes (t : FV) (l : Int) : FV :=
  match t with
  | .fin n m e => if l = 0 ∨ m = 0 then .fin (n != decide (l < 0)) 0 0 else .fin (n != decide (l < 0)) (m * l.natAbs) (e - 7)
  | x => x

/-- Element `n` of a stream of GQ4 groups, through a byte function (R90, R91). -/
def gqAt (rd : Nat → Byte) (n : Nat) : FV :=
  let g := n / 16384 * 8512
  let k := n % 16384
  let sup := unpack .fp32 (ofBytes [rd (g + 8448), rd (g + 8449), rd (g + 8450), rd (g + 8451)])
  let q := (rd (g + k / 2)).toNat / (if k % 2 = 0 then 1 else 16) % 16
  match sup with
  | .fin _ _ _ => if q = 7 then .fin false 0 0 else gqTimes (gqStep sup (rd (g + 8192 + k / 64)).toNat) (gqLevel q)
  | _ => .nan false

/-- Element `n` of a stream in a stored format, exact (R187). -/
def storedAt (rd : Nat → Byte) (code n : Nat) : FV :=
  if code = 12 then gqAt rd n
  else if isMx code then mxAt rd code n
  else unpack (fmtOfCode code) (packedAt rd (codeBits code) n)

/-- The pattern of a delivered element (R187). -/
def deliver (df : Nat) (x : FV) : Nat := pack (fmtOfCode df) (roundTo (fmtOfCode df) 0 true x).1

/-- The delivered byte at page offset `o` of a converting page (R185, R187). -/
def deliveredByte (s : State) (pe : PageEnt) (o : Nat) : Byte :=
  let wd := codeBits pe.df / 8
  BitVec.ofNat 8 (deliver pe.df (storedAt (fun i => s.byte (pe.base + i)) pe.sf (o / wd)) / 256 ^ (o % wd))

/-! ### Encoding (R188 to R190) -/

/-- `Floor(Log2(a))` of a finite non-zero magnitude. -/
def log2Floor : FV → Int
  | .fin _ m e => e + bitLen m - 1
  | _ => 0

/-- Table 10.3. -/
def emaxElem : Nat → Int
  | 6 => 8 | 7 => 15 | 8 => 4 | 9 => 2 | 10 => 2 | _ => 0

/-- The largest of some finite magnitudes. -/
def largest (l : List FV) : FV :=
  l.foldl (fun a v => match v with
    | .fin _ _ _ => if fvCmp a v.abs < 0 then v.abs else a
    | _ => a) (.fin false 0 0)

/-- The pattern of one element of an MX block under a scale exponent (R189). -/
def mxPattern (code : Nat) (x : Int) (v : FV) : Nat :=
  if code = 11 then
    match v with
    | .fin n m e =>
      let r := signedM n (roundAt 0 n m (e - x) (-6)).1
      (max (-128) (min 127 r) % 256).toNat
    | .inf n => if n then 0x80 else 0x7F
    | .nan _ => 0
  else
    let f := fmtOfCode code
    match v with
    | .inf n => if f = .e5m2 then pack f (.inf n) else pack f (roundTo f 0 true (.inf n)).1
    | .fin n m e => pack f (roundTo f 0 true (.fin n m (e - x))).1
    | .nan _ => 0

/-- An MX block encoded from 32 values: the scale and the element patterns (R189). -/
def mxEncode (code : Nat) (vs : List FV) : Nat × List Nat :=
  if vs.any FV.isNan then (0xFF, vs.map fun _ => 0)
  else
    let a := largest vs
    let x := if a.isZero then 0 else log2Floor a - emaxElem code
    let x := max (-127) (min 127 x)
    ((x + 127).toNat, vs.map (mxPattern code x))

/-- Packed elements of `w` bits as a number (R84). -/
def packNum (w : Nat) : List Nat → Nat
  | [] => 0
  | p :: t => p % 2 ^ w + 2 ^ w * packNum w t

/-- The distance of two finite values, as a number at a common exponent. -/
def distance (q : Int) (a b : FV) : Nat :=
  match a, b with
  | .fin x m e, .fin y n g => (signedM x m * 2 ^ (e - q).toNat - signedM y n * 2 ^ (g - q).toNat).natAbs
  | _, _ => 0

/-- The exponent of a finite value. -/
def expOf : FV → Int
  | .fin _ m e => if m = 0 then 0 else e
  | _ => 0

/-- The GQ4 code of a value under a step value: the nearest level, ties to the smaller `|L|`, then the lower code (R190). -/
def gqCode (t v : FV) : Nat :=
  let q := min (expOf v) (expOf t - 7)
  let best := fun (a b : Nat) =>
    let da := distance q v (gqTimes t (gqLevel a))
    let db := distance q v (gqTimes t (gqLevel b))
    if db < da then b else if da < db then a
    else if (gqLevel b).natAbs < (gqLevel a).natAbs then b else a
  (List.range 16).foldl best 0

/-- `EncodeBlock` (R190): the scale code and the codes. -/
def gqBlock (sup : FV) (vs : List FV) : Nat × List Nat :=
  let b := largest vs
  let c := ((List.range 256).find? fun c => decide (0 ≤ fvCmp (gqStep sup c) b)).getD 255
  let t := gqStep sup c
  (c, vs.map fun v => if v.isZero then 7 else gqCode t v)

/-- A whole GQ4 group encoded from 16,384 values: its 8,512 bytes (R190). -/
def gqGroup (vs : List FV) : List Byte :=
  if vs.any fun v => match v with | .fin _ _ _ => false | _ => true then
    List.replicate 8448 0 ++ toBytes 4 0x7FC00000 ++ List.replicate 60 0
  else
    let sup := largest vs
    let bs := (chunks 256 64 vs).map (gqBlock sup)
    bs.flatMap (fun b => toBytes 32 (packNum 4 b.2)) ++ bs.map (fun b => BitVec.ofNat 8 b.1)
      ++ toBytes 4 (pack .fp32 sup) ++ List.replicate 60 0

/-! ### What a controller reads and sends (R185, R187, R280, R309) -/

/-- The stored bytes of the encoding unit of a delivered byte at a page offset, within the page's stored image (R185, R416). -/
def PageEnt.storedOf (pe : PageEnt) (o : Nat) : List (Nat × Nat) :=
  if !pe.converts then [(o, 1)] else
    let el := o / (codeBits pe.df / 8)
    if pe.sf = 12 then
      let g := el / 16384 * 8512
      let j := el % 16384 / 64
      [(g + 32 * j, 32), (g + 8192 + j, 1), (g + 8448, 4)]
    else if isMx pe.sf then
      let r := el / 2048 * mxRun pe.sf
      let j := el % 2048 / 32
      [(r + mxBlock pe.sf * j, mxBlock pe.sf), (r + 64 * mxBlock pe.sf + j, 1)]
    else [(el * (codeBits pe.sf / 8), codeBits pe.sf / 8)]

/-- The stored bytes of the units of a span of a page, by physical address (R187). -/
def PageEnt.storedSpan (pe : PageEnt) (o n : Nat) : List (Nat × Nat) :=
  (if !pe.converts then [(o, n)] else ((List.range n).flatMap fun i => pe.storedOf (o + i)).eraseDups).map fun x => (pe.base + x.1, x.2)

/-- The numbers of the 64-byte bursts that hold a byte of some spans. -/
def burstsIn (sp : List (Nat × Nat)) : List Nat :=
  (sp.flatMap fun x => (List.range ((x.1 + x.2 - 1) / 64 - x.1 / 64 + 1)).map fun j => x.1 / 64 + j).eraseDups

/-- Whether two spans of addresses have a common byte. -/
def meets (x y : Nat × Nat) : Bool := decide (x.1 < y.1 + y.2) && decide (y.1 < x.1 + x.2)

/-- Memory after a write-queue entry has been applied to it. -/
def Burst.apply (m : List Host.Cell) (q : Burst) : List Host.Cell :=
  (List.range 64).foldl (fun m i => match q.byteAt (q.addr + i) with
    | some b => mput m (q.addr + i) b
    | none => m) m

/-- The entries that pass a test are applied to memory in the order they were accepted, and leave the queues (R280). -/
def State.drainIf (s : State) (p : Burst → Bool) : State :=
  { s with mem := (s.writeQ.filter p).foldl Burst.apply s.mem, writeQ := s.writeQ.filter fun q => !p q }

/-- A controller's read of some spans (R280): forwarded where queued entries cover every byte; else held until every entry that it meets
has been applied. -/
def State.serveRead (s : State) (sp : List (Nat × Nat)) : State :=
  if sp.all fun x => (List.range x.2).all fun i => (s.queued (x.1 + i)).isSome then s
  else s.drainIf fun q => sp.any (meets (q.addr, 64))

/-- A stack's controller holds further requests (R15, R309): it has spent its count of bytes for the interval, or holds earlier ones. Before the first
interval there is no count (log 30). -/
def State.spent (s : State) (dev : Nat) : Bool := s.arbiter.bytes[dev]? == some 0 || s.arbiter.held.any fun r => r.dev == dev
/-- A controller holds a request, behind those it holds (R309). -/
def State.holdReq (s : State) (r : HeldReq) : State :=
  if s.arbiter.held.contains r then s else { s with arbiter := { s.arbiter with held := s.arbiter.held ++ [r] } }
/-- A stack's controller spends bytes of its count (R15). -/
def State.spend (s : State) (dev n : Nat) : State :=
  { s with arbiter := { s.arbiter with bytes := s.arbiter.bytes.set dev (s.arbiter.bytes.getD dev 0 - n) } }

/-! ### L2 lines (R208, R209, R192) -/

/-- The line of an object at a slice. -/
def State.lineOf (s : State) (obj ln home : Nat) : Option Line := s.lines.find? fun l => l.obj == obj && l.line == ln && l.home == home
/-- The line of a page that holds an object offset, at the page's home. -/
def State.lineAt (s : State) (obj : Nat) (pe : PageEnt) (off : Nat) : Option Line := s.lineOf obj (off / 256) (pe.home obj off)

/-- Replaces or adds a line. -/
def State.setLine (s : State) (l : Line) : State :=
  { s with lines := (s.lines.filter fun x => !(x.obj == l.obj && x.line == l.line && x.home == l.home)) ++ [l] }
/-- Removes a line. -/
def State.dropLine (s : State) (l : Line) : State :=
  { s with lines := s.lines.filter fun x => !(x.obj == l.obj && x.line == l.line && x.home == l.home) }

/-- The byte of a line. -/
def Line.byte (l : Line) (i : Nat) : Byte := BitVec.ofNat 8 (l.data.toNat / 256 ^ i)
/-- A line with one byte changed. -/
def Line.put (l : Line) (i : Nat) (b : Byte) : Line := { l with data := setBits l.data (8 * i) 8 b.toNat }

/-- A line makes room: a clean one is gone, a dirty one waits for its write-back (R210). -/
def State.evict (s : State) (l : Line) : State := if l.dirty = 0 then s.dropLine l else s.setLine { l with place := .leaving }

/-- The lines that the buffer of an agent holds (R209). -/
def bufferLines : Nat := 32

/-- One of some lines makes room for another; which is free (R208). -/
def State.replace (s : State) (ls : List Line) (obj ln : Nat) : State × Place := match ls[s.pickAt 8710 (obj + 2 ^ 24 * ln) 0 % ls.length]? with
  | some v => (s.evict v, v.place)
  | none => (s, .leaving)

/-- A place for a new line at its slice: in an open way of its set, or, where the slice has no way in use, in its agent's buffer (R208, R209). -/
def State.allot (s : State) (obj ln home : Nat) : State × Place :=
  let here := s.lines.filter fun l => l.home == home
  let n := s.openWays home
  if n = 0 then
    let buf := here.filter fun l => l.place == .buffer
    if buf.length < bufferLines then (s, .buffer) else s.replace buf obj ln
  else
    let mates := here.filter fun l => Config.lineSet l.obj l.line % 512 == Config.lineSet obj ln % 512
    match (List.range n).find? fun w => mates.all fun l => l.place != .way w with
    | some w => (s, .way w)
    | none => s.replace (mates.filter fun l => (List.range n).any fun w => l.place == .way w) obj ln

/-- The line of a page that holds an object offset, as the slice has it or new. -/
def State.openLine (s : State) (obj : Nat) (pe : PageEnt) (off : Nat) : State × Line := match s.lineAt obj pe off with
  | some l => (s, l)
  | none =>
    let r := s.allot obj (off / 256) (pe.home obj off)
    (r.1, { obj := obj, line := off / 256, home := pe.home obj off, place := r.2, valid := 0, dirty := 0, data := 0 })

/-- A delivered byte as a fill brings it: decoded, or as it is stored (R187). -/
def filledByte (s : State) (pe : PageEnt) (o : Nat) : Byte := if pe.converts then deliveredByte s pe o else s.byte (pe.base + o)

/-- One delivered byte of an object's page: from its line where valid there, else as a fill brings it (R187, R192). What a plain page of HBM has
in the L2 is in memory's bytes (log 81). -/
def objByte (s : State) (obj : Nat) (e : ObjEnt) (pe : PageEnt) (off : Nat) : Byte :=
  if pe.inLines then
    match s.lineAt obj pe off with
    | some l => if l.valid.getLsbD (off % 256) then l.byte (off % 256) else filledByte s pe (off % e.page)
    | none => filledByte s pe (off % e.page)
  else s.byte (pe.base + off % e.page)

/-- The bytes of the sector that holds an offset, as a mask of its line. -/
def sectorMask (off : Nat) : BitVec 256 := (BitVec.ofNat 256 (2 ^ 128 - 1)) <<< (off % 256 / 128 * 128)

/-- Whether the sector of an offset is valid in the L2. -/
def sectorHit (s : State) (obj : Nat) (pe : PageEnt) (off : Nat) : Bool :=
  (s.lineAt obj pe off).any fun l => l.valid &&& sectorMask off == sectorMask off

/-- Fills the sector of a page that holds an offset, where it is not valid: bytes already valid are kept (R187, R192, R208). -/
def fillSector (s : State) (obj : Nat) (e : ObjEnt) (pe : PageEnt) (off : Nat) : State :=
  if sectorHit s obj pe off then s
  else
    let sec := off % e.page / 128 * 128
    let sp := pe.storedSpan sec 128
    let s := (s.serveRead sp).spend (deviceOf pe.base) (64 * (burstsIn sp).length)
    let r := s.openLine obj pe off
    let l := if pe.inLines then (List.range 128).foldl (fun l i =>
        let k := off % 256 / 128 * 128 + i
        if l.valid.getLsbD k then l else l.put k (filledByte s pe (sec + i))) r.2
      else r.2
    r.1.setLine { l with valid := l.valid ||| sectorMask off }

/-- Writes one delivered byte of an object's page: into its line, whose sector becomes dirty (R192, R208). -/
def putObjByte (s : State) (obj : Nat) (e : ObjEnt) (pe : PageEnt) (off : Nat) (b : Byte) : State :=
  let r := s.openLine obj pe off
  let l := { r.2 with valid := r.2.valid ||| ((1 : BitVec 256) <<< (off % 256)), dirty := r.2.dirty ||| ((1 : BitVec 2) <<< (off % 256 / 128)) }
  if pe.inLines then r.1.setLine (l.put (off % 256) b) else (r.1.poke (pe.base + off % e.page) b).setLine l

/-- Whether a write of a byte makes a line dirty that is not (R349). -/
def newlyDirty (s : State) (obj : Nat) (pe : PageEnt) (off : Nat) : Bool := (s.lineAt obj pe off).all fun l => l.dirty == 0

/-! ### Cellar reads that fail (R416) -/

/-- A Cellar stack when new (Table 25.8). -/
def Cellar.new : Cellar :=
  { uncorr := 0, reloc := 0, prog := 0, badblk := 0, spare := 1200, wear := 0, wearmax := 0, state := 0, slice := 0, sliceStart := 0, failed := [], mended := [],
    blocks := [], refs := [], nextBlock := 0 }
/-- A Cellar stack. -/
def State.cellar (s : State) (k : Nat) : Cellar := sget Cellar.new s.cellars k
/-- Replaces a Cellar stack. -/
def State.setCellar (s : State) (k : Nat) (c : Cellar) : State := { s with cellars := sput Cellar.new s.cellars k c }

/-- The bytes of a flash page. -/
def flashPage : Nat := 16384

/-- Whether a read of stored bytes fails: they lie in the Cellar, in a flash page that cannot be corrected or on a failed stack. -/
def flashFails (s : State) (pa n : Nat) : Bool :=
  decide (8 ≤ deviceOf pa) &&
    (let k := s.cellar (deviceOf pa - 8)
     k.state == 3 || k.failed.any fun f => decide (f * flashPage < pa + n) && decide (pa < (f + 1) * flashPage))

/-- Whether a delivered byte of a page lacks a stored byte of its unit that can be read (R416). -/
def unitBad (s : State) (e : ObjEnt) (pe : PageEnt) (off : Nat) : Bool :=
  (pe.storedOf (off % e.page)).any fun sp => flashFails s (pe.base + sp.1) sp.2

/-- Whether a delivered byte cannot be read: it is not in the L2, and the fill of its sector fails, which needs every byte of the sector that is not
there (R187, R416). -/
def flashBad (s : State) (obj : Nat) (e : ObjEnt) (pe : PageEnt) (off : Nat) : Bool :=
  let has := fun o : Nat => (s.lineAt obj pe off).any fun l => l.valid.getLsbD (o % 256)
  decide (8 ≤ deviceOf pe.base) && !has off && (List.range 128).any fun i =>
    let o := off / 128 * 128 + i
    !has o && unitBad s e pe o

/-! ### Write-back of a line (R188 to R195) -/

/-- The elements of an encoding unit (Table 10.1). -/
def unitElems (sf : Nat) : Nat := if sf = 12 then 64 else if isMx sf then 32 else 1

/-- The delivered values of `n` elements from element `el`, through a byte function over page offsets. -/
def valuesAt (rd : Nat → Byte) (df el n : Nat) : List FV :=
  let wd := codeBits df / 8
  (List.range n).map fun i => unpack (fmtOfCode df) (ofBytes ((List.range wd).map fun j => rd ((el + i) * wd + j)))

/-- Writes the stored bytes of one whole unit (R188, R189); for GQ4 a block under the group's S (R191), with the group's padding (R90). `el` is
its first element. -/
def storeUnit (s : State) (pe : PageEnt) (el : Nat) (vs : List FV) : State :=
  let sf := pe.sf
  if sf = 12 then
    let g := pe.base + el / 16384 * 8512
    let sup := unpack .fp32 (s.num (g + 8448) 4)
    let b := gqBlock sup vs
    let j := el % 16384 / 64
    ((s.pokes (g + 32 * j) (toBytes 32 (packNum 4 b.2))).pokes (g + 8192 + j) [BitVec.ofNat 8 b.1]).pokes (g + 8452) (List.replicate 60 0)
  else if isMx sf then
    let r := pe.base + el / 2048 * mxRun sf
    let b := mxEncode sf vs
    let j := el % 2048 / 32
    ((s.pokes (r + mxBlock sf * j) (toBytes (mxBlock sf) (packNum (codeBits sf) b.2))).pokes (r + 64 * mxBlock sf + j) [BitVec.ofNat 8 b.1])
  else
    let w := codeBits sf / 8
    s.pokes (pe.base + el * w) (toBytes w ((vs.map fun v => pack (fmtOfCode sf) (roundTo (fmtOfCode sf) 0 true v).1).headD 0))

/-- The stored bytes that `storeUnit` writes, by physical address. -/
def unitSpans (pe : PageEnt) (el : Nat) : List (Nat × Nat) :=
  let l := pe.storedOf (el * (codeBits pe.df / 8))
  (if pe.sf = 12 then l.take 2 ++ [(el / 16384 * 8512 + 8452, 60)] else l).map fun x => (pe.base + x.1, x.2)

/-- Writes a whole GQ4 group (R190). -/
def storeGroup (s : State) (pe : PageEnt) (g : Nat) (vs : List FV) : State := s.pokes (pe.base + g * 8512) (gqGroup vs)

/-- Whether the units of a span of a page are covered whole by `[o, o + n)` (R194): the fault policy. -/
def coversUnits (pe : PageEnt) (o n : Nat) : Bool :=
  let u := (if pe.sf = 12 then 16384 else unitElems pe.sf) * (codeBits pe.df / 8)
  o % u == 0 && n % u == 0

/-- What a write-back sends (R192): the valid bytes of some lines, by page offset. -/
def supplied (pageOff : Nat) (ls : List Line) (o : Nat) : Option Byte :=
  (ls.find? fun l => l.line == (pageOff + o) / 256 && l.valid.getLsbD ((pageOff + o) % 256)).map fun l => l.byte ((pageOff + o) % 256)

/-- Whether a write-back supplies a span of a page whole. -/
def suppliesAll (sup : Nat → Option Byte) (o n : Nat) : Bool := (List.range n).all fun i => (sup (o + i)).isSome

/-- The stored form after a write-back, the stored spans it has written, and a third list of spans. -/
abbrev Encoded := State × List (Nat × Nat) × List (Nat × Nat)

/-- The values of a unit in a write-back: a byte that it does not supply is the decoded one (R193). -/
def mergedAt (s : State) (pe : PageEnt) (sup : Nat → Option Byte) (el n : Nat) : List FV :=
  valuesAt (fun o => (sup o).getD (deliveredByte s pe o)) pe.df el n

/-- Encodes one scalar or MX unit of a write-back (R188, R189, R193): whole from what it supplies, or merged with the decoded unit; the third
list gets the page offsets of a merged one. -/
def encodeUnit (pe : PageEnt) (sup : Nat → Option Byte) (r : Encoded) (el : Nat) : Encoded :=
  let wd := codeBits pe.df / 8
  let n := unitElems pe.sf
  let whole := suppliesAll sup (el * wd) (n * wd)
  (storeUnit r.1 pe el (mergedAt r.1 pe sup el n), r.2.1 ++ unitSpans pe el, if whole then r.2.2 else r.2.2 ++ [(el * wd, n * wd)])

/-- Whether a supplied GQ4 block keeps its group's S (R191). -/
def gqKeeps (s : State) (pe : PageEnt) (el : Nat) (vs : List FV) : Bool :=
  match unpack .fp32 (s.num (pe.base + el / 16384 * 8512 + 8448) 4) with
  | .fin n m x => !n && m != 0 && vs.all (fun v => match v with | .fin _ _ _ => true | _ => false)
      && decide (fvCmp (largest vs) (.fin n m x) ≤ 0)
  | _ => false

/-- Encodes the blocks of one GQ4 group of a write-back, given by their first elements (R190, R191, R193): each under the group's S, or the
group whole, merged with the decoded group where the write-back does not supply all of it. A block that it supplies in part sends its
whole group there (log 82). -/
def encodeGroup (pe : PageEnt) (sup : Nat → Option Byte) (r : Encoded) (els : List Nat) : Encoded :=
  let wd := codeBits pe.df / 8
  let g := els.headD 0 / 16384
  let s := r.1
  let all := suppliesAll sup (g * 16384 * wd) (16384 * wd)
  if els.isEmpty then r
  else if !all && els.all (fun el => suppliesAll sup (el * wd) (64 * wd) && gqKeeps s pe el (mergedAt s pe sup el 64)) then
    (els.foldl (fun s el => storeUnit s pe el (mergedAt s pe sup el 64)) s, r.2.1 ++ els.flatMap (unitSpans pe), r.2.2)
  else
    (storeGroup s pe g (mergedAt s pe sup (g * 16384) 16384), r.2.1 ++ [(pe.base + g * 8512, 8512)],
      if all then r.2.2 else r.2.2 ++ [(g * 16384 * wd, 16384 * wd)])

/-- The object offset of the page that a line lies in. -/
def Line.page (l : Line) (e : ObjEnt) : Nat := 256 * l.line / e.page * e.page

/-- The first elements of the units of a line of which it holds a valid byte. -/
def Line.units (l : Line) (e : ObjEnt) (pe : PageEnt) : List Nat :=
  let wd := codeBits pe.df / 8
  let u := unitElems pe.sf * wd
  ((List.range (256 / u)).filter fun k => (List.range u).any fun i => l.valid.getLsbD (k * u + i)).map fun k =>
    (256 * l.line - l.page e + k * u) / wd

/-- The other lines of a line's GQ4 group, at their homes. -/
def State.groupMates (s : State) (e : ObjEnt) (pe : PageEnt) (l : Line) : List Line :=
  let size := 16384 * (codeBits pe.df / 8)
  s.lines.filter fun x => x.obj == l.obj && x.home == pe.home x.obj (256 * x.line) && x.line != l.line && x.page e == l.page e
    && 256 * x.line / size == 256 * l.line / size

/-- The stored form of a line's write-back. A page with the fault policy sends a GQ4 group whole (R193). Where a group is encoded again
because a block does not keep its S, its other dirty lines are written back after it, each by itself (R195; log 82). -/
def encodeLine (s : State) (e : ObjEnt) (pe : PageEnt) (l : Line) : Encoded :=
  let lo := l.page e
  if pe.sf = 12 then
    let mates := s.groupMates e pe l
    let own := if pe.pbp then l :: mates else [l]
    let r := encodeGroup pe (supplied lo own) (s, [], []) (own.flatMap (·.units e pe))
    if r.2.2.isEmpty then r
    else (mates.filter fun x => x.dirty != 0 && !pe.pbp).foldl (fun r x => encodeGroup pe (supplied lo [x]) r (x.units e pe)) r
  else (l.units e pe).foldl (encodeUnit pe (supplied lo [l])) (s, [], [])

/-- The stored spans that the write-back of a line of a page that does not convert sends: the valid bytes of its dirty sectors. -/
def plainSpans (e : ObjEnt) (pe : PageEnt) (l : Line) : List (Nat × Nat) :=
  let a := pe.base + (256 * l.line - l.page e)
  (List.range 2).flatMap fun k =>
    if !l.dirty.getLsbD k then []
    else if l.valid &&& sectorMask (128 * k) = sectorMask (128 * k) then [(a + 128 * k, 128)]
    else ((List.range 128).filter fun i => l.valid.getLsbD (128 * k + i)).map fun i => (a + 128 * k + i, 1)

/-- After a merge, every sector that holds a byte of a merged unit is invalid (R195). -/
def dropSpan (s : State) (obj pageOff : Nat) (x : Nat × Nat) : State :=
  { s with lines := s.lines.map fun l =>
      if l.obj = obj then (List.range 2).foldl (fun l k =>
        if meets (256 * l.line + 128 * k, 128) (pageOff + x.1, x.2) then
          { l with valid := l.valid &&& ~~~sectorMask (128 * k), dirty := l.dirty &&& ~~~((1 : BitVec 2) <<< k) } else l) l
      else l }

/-- The lines that a write-back has made clean. -/
def cleanLines (s : State) (e : ObjEnt) (pe : PageEnt) (l : Line) : State :=
  let own := if pe.sf = 12 && pe.pbp then l :: s.groupMates e pe l else [l]
  own.foldl (fun s l => s.setLine { l with dirty := 0 }) s

/-- A line is written back (R192): its stored form in place, the stored spans that it writes, and those that it reads for its merges. -/
def writeBackLine (s : State) (e : ObjEnt) (pe : PageEnt) (l : Line) : Encoded :=
  if pe.converts then
    let r := encodeLine s e pe l
    (r.2.2.foldl (fun s x => dropSpan s l.obj (l.page e) x) (cleanLines r.1 e pe l), r.2.1, r.2.2.flatMap fun x => pe.storedSpan x.1 x.2)
  else
    let sp := plainSpans e pe l
    -- a Cellar page's bytes come into memory as they are sent
    let t := if pe.inLines then sp.foldl (fun s x => (List.range x.2).foldl (fun s i => s.poke (x.1 + i) (l.byte ((x.1 + i) % 256))) s) s else s
    (t.setLine { l with dirty := 0 }, sp, [])

end Sys2Proof.Machine
end

