-- ==== Sys2Proof/Machine/Uses.lean ====
section
/-! DEFINITION. What each operation reads and writes by its encoding: for the interlocks of R45 and the checks over a bundle (R36, R37,
R47). -/

namespace Sys2Proof.Machine
open Sys2Proof

/-- A register as an encoding names it. -/
inductive Name
  | s (n : Nat) | p (n : Nat) | m (n : Nat) | lc (n : Nat) | k (n : Nat) | v (n : Nat) | hstat
  deriving DecidableEq, Repr

/-- The scalar source codes an operation reads (Table 3.10). -/
def Uses.scodes : Instr → List (BitVec 6)
  | .nop _ => []
  | .br _ => []
  | .jmp s => [s]
  | .call _ => []
  | .callr s => [s]
  | .ret => []
  | .loop _ c _ => [c]
  | .bktJmp c _ _ _ => [c]
  | .park _ _ => []
  | .exit => []
  | .spawn _ o p => [o, p]
  | .waitw _ _ o _ _ _ v => [o, v]
  | .wakew _ _ o _ _ => [o]
  | .foldArrive _ => []
  | .foldWait _ => []
  | .foldSync _ => []
  | .foldBytes c _ => [c]
  | .whWait s => [s]
  | .probe _ _ o l => [o, l]
  | .segMark => []
  | .fence _ _ _ => []
  | .fenceX _ _ => []
  | .trap a _ => [a]
  | .brk _ => []
  | .rfe => []
  | .ctxResumeRun a b => [a, b]
  | .ctxResumePark a b => [a, b]
  | .ctxResumePre a b => [a, b]
  | .ctxKill a => [a]
  | .ctxKillRun a => [a]
  | .halt => []
  | .add _ _ _ a b => [a, b]
  | .sub _ _ _ a b => [a, b]
  | .mul _ _ _ a b => [a, b]
  | .mulh _ _ _ a b => [a, b]
  | .mulhu _ _ _ a b => [a, b]
  | .div _ _ _ a b => [a, b]
  | .divu _ _ _ a b => [a, b]
  | .rem _ _ _ a b => [a, b]
  | .remu _ _ _ a b => [a, b]
  | .and _ _ _ a b => [a, b]
  | .or _ _ _ a b => [a, b]
  | .xor _ _ _ a b => [a, b]
  | .andn _ _ _ a b => [a, b]
  | .orn _ _ _ a b => [a, b]
  | .xnor _ _ _ a b => [a, b]
  | .shl _ _ _ a b => [a, b]
  | .shr _ _ _ a b => [a, b]
  | .sar _ _ _ a b => [a, b]
  | .rotr _ _ _ a b => [a, b]
  | .min _ _ _ a b => [a, b]
  | .max _ _ _ a b => [a, b]
  | .minu _ _ _ a b => [a, b]
  | .maxu _ _ _ a b => [a, b]
  | .clz _ _ _ a => [a]
  | .ctz _ _ _ a => [a]
  | .popc _ _ _ a => [a]
  | .bswap _ _ _ a => [a]
  | .bext _ _ _ a b => [a, b]
  | .bins _ _ a b => [a, b]
  | .addS2 _ _ _ a b => [a, b]
  | .addS3 _ _ _ a b => [a, b]
  | .sext _ _ _ a b => [a, b]
  | .zext _ _ _ a b => [a, b]
  | .mov _ _ _ a => [a]
  | .litHi _ _ _ a b => [a, b]
  | .cmpEq _ _ a b => [a, b]
  | .cmpNe _ _ a b => [a, b]
  | .cmpLt _ _ a b => [a, b]
  | .cmpLtu _ _ a b => [a, b]
  | .cmpLe _ _ a b => [a, b]
  | .cmpLeu _ _ a b => [a, b]
  | .pand _ _ a b => [a, b]
  | .por _ _ a b => [a, b]
  | .pxor _ _ a b => [a, b]
  | .pnot _ _ a => [a]
  | .tstBit _ _ a b => [a, b]
  | .faddS _ _ a b => [a, b]
  | .fsubS _ _ a b => [a, b]
  | .fmulS _ _ a b => [a, b]
  | .ffmaS _ _ a b => [a, b]
  | .fminS _ _ a b => [a, b]
  | .fmaxS _ _ a b => [a, b]
  | .fcmpLtS _ a b => [a, b]
  | .fcmpEqS _ a b => [a, b]
  | .fcvtSI _ _ a => [a]
  | .fcvtSIU _ _ a => [a]
  | .fcvtIS _ _ a => [a]
  | .fcvtISU _ _ a => [a]
  | .fcvtISW _ _ a => [a]
  | .sysRd _ _ a => [a]
  | .sysWr a b => [a, b]
  | .budRd _ _ => []
  | .timeRd _ _ => []
  | .ldU8 _ _ o _ => [o]
  | .ldS8 _ _ o _ => [o]
  | .ldU16 _ _ o _ => [o]
  | .ldS16 _ _ o _ => [o]
  | .ldU32 _ _ o _ => [o]
  | .ldS32 _ _ o _ => [o]
  | .ld64 _ _ o _ => [o]
  | .ldAcq _ _ o _ => [o]
  | .st8 _ _ o _ => [o]
  | .st16 _ _ o _ => [o]
  | .st32 _ _ o _ => [o]
  | .st64 _ _ o _ => [o]
  | .stRel _ _ o _ => [o]
  | .ldk _ o _ => [o]
  | .amoAdd _ _ _ _ _ _ v => [v]
  | .amoInc _ _ _ _ _ _ => []
  | .amoAnd _ _ _ _ _ _ v => [v]
  | .amoOr _ _ _ _ _ _ v => [v]
  | .amoXor _ _ _ _ _ _ v => [v]
  | .amoSmin _ _ _ _ _ _ v => [v]
  | .amoSmax _ _ _ _ _ _ v => [v]
  | .amoUmin _ _ _ _ _ _ v => [v]
  | .amoUmax _ _ _ _ _ _ v => [v]
  | .amoSwap _ _ _ _ _ _ v => [v]
  | .amoCas _ _ _ _ _ _ v _ => [v]
  | .amoFadd _ _ _ _ _ _ v => [v]
  | .redAdd _ _ _ _ _ v => [v]
  | .redInc _ _ _ _ _ => []
  | .redAnd _ _ _ _ _ v => [v]
  | .redOr _ _ _ _ _ v => [v]
  | .redXor _ _ _ _ _ v => [v]
  | .redSmin _ _ _ _ _ v => [v]
  | .redSmax _ _ _ _ _ v => [v]
  | .redUmin _ _ _ _ _ v => [v]
  | .redUmax _ _ _ _ _ v => [v]
  | .redFadd _ _ _ _ _ v => [v]
  | .vadd _ _ _ _ _ => []
  | .vsub _ _ _ _ _ => []
  | .vmul _ _ _ _ _ => []
  | .vfma _ _ _ _ _ => []
  | .vfms _ _ _ _ _ => []
  | .vfnma _ _ _ _ _ => []
  | .vmin _ _ _ _ _ => []
  | .vmax _ _ _ _ _ => []
  | .vabs _ _ _ _ => []
  | .vneg _ _ _ _ => []
  | .vmov _ _ _ _ => []
  | .vand _ _ _ _ _ => []
  | .vor _ _ _ _ _ => []
  | .vxor _ _ _ _ _ => []
  | .vnot _ _ _ _ => []
  | .vshl _ _ _ _ _ => []
  | .vshr _ _ _ _ _ => []
  | .vsar _ _ _ _ _ => []
  | .vcmpEq _ _ _ _ => []
  | .vcmpNe _ _ _ _ => []
  | .vcmpLt _ _ _ _ => []
  | .vcmpLe _ _ _ _ => []
  | .vsel _ _ _ _ _ => []
  | .vcvtTo _ _ _ _ _ _ => []
  | .vcvtFrom _ _ _ _ _ _ => []
  | .vcvtSc _ _ _ _ _ _ _ => []
  | .vredAdd _ _ _ _ _ => []
  | .vredMax _ _ _ _ _ => []
  | .vredMin _ _ _ _ _ => []
  | .vscanAdd _ _ _ _ _ => []
  | .vbcast _ _ _ _ _ => []
  | .vext _ _ _ _ => []
  | .vperm _ _ _ _ _ => []
  | .vrot _ _ _ _ _ => []
  | .vpart _ _ _ _ _ _ _ _ => []
  | .vld _ _ _ o _ _ => [o]
  | .vst _ _ o _ _ => [o]
  | .vgath _ _ _ _ _ _ => []
  | .vscat _ _ _ _ _ => []
  | .vlut _ _ _ _ _ => []
  | .vmulhi _ _ _ _ => []
  | .vdot4 _ _ _ _ => []
  | .vamax _ _ _ _ => []
  | .vexp2 _ _ _ => []
  | .vlog2 _ _ _ => []
  | .vrcp _ _ _ => []
  | .vrsqrt _ _ _ => []
  | .vsqrt _ _ _ => []
  | .vtanh _ _ _ => []
  | .verf _ _ _ => []
  | .vsigm _ _ _ => []
  | .vdiv _ _ _ _ => []
  | .vfloor _ _ _ => []
  | .mma _ _ _ _ _ _ => []
  | .maccClr _ _ _ => []
  | .maccLd _ _ _ => []
  | .maccSt _ _ _ => []
  | .mcancel _ => []
  | .cpFill _ _ _ _ _ => []
  | .cpDrain _ _ _ _ _ => []
  | .cpGath _ _ _ _ => []
  | .cpScat _ _ _ _ => []
  | .cpBcst _ _ _ _ => []
  | .cpRedFadd _ _ _ _ => []
  | .cpRedBf2Add _ _ _ _ => []
  | .cpRedIntAdd _ _ _ _ => []
  | .cpRedSmax _ _ _ _ => []
  | .cpRedUmax _ _ _ _ => []
  | .cpSelr _ _ _ _ => []
  | .cpSelc _ _ _ _ => []
  | .cpRmaPut _ _ _ _ => []
  | .cpRmaGet _ _ _ _ => []
  | .cpRamo _ _ _ _ => []
  | .cpGdrain _ _ _ _ => []
  | .cpPmtGrant _ _ _ => []
  | .cpPmtTake _ _ _ => []
  | .cpCancel _ => []
  | .cpCancelAll => []
  | .whFetchPred s => [s]
  | .whFetchDem s => [s]
  | .whDrop s => [s]
  | .whPin s => [s]
  | .whUnpin s => [s]
  | .whQry s => [s]
  | .stg _ s => [s]
  | .stgLo _ s => [s]
  | .stgHi _ s => [s]
  | .ttDef _ _ _ => []
  | .ttFree _ => []
  | .ttBind _ _ => []
  | .ttUnbind _ => []
  | .ttMark _ _ => []
  | .ttMarkWait _ _ => []
  | .ttMarkNofold _ => []
  | .ttRd _ _ _ => []
  | .fmtSet _ _ _ _ _ => []
  | .vtSet _ => []
  | .vwinSet _ _ => []
  | .vactSet _ => []
  | .fpcSet _ _ _ _ _ _ _ => []
  | .fpcSetC _ _ _ _ => []
  | .fpcSetF _ => []
  | .lendMx _ => []
  | .lendVec _ => []
  | .phase _ _ => []
  | .amaxClr => []
  | .vlutLd _ _ _ => []
  | .kmov _ _ => []
  | .kderive _ _ _ => []
  | .krestrict _ _ _ => []
  | .kgetObj _ _ => []
  | .kgetBase _ _ => []
  | .kgetLen _ _ => []
  | .kgetRgt _ _ => []
  | .kcheck _ _ _ _ => []
  | .kclr _ => []
  | .kst _ _ _ => []
  | .kld _ _ _ => []
  | .kmint _ _ => []
  | .xlatSync => []
  | .pgReform _ _ _ => []
  | .hresetWrite => []
  | .foldloWrite => []
  | .foldhiWrite => []
  | .spaceDescriptorWrite => []
  | .localSpaceClearEnd => []
  | .schcfgWrite => []
  | .bundleCheck => []
  | .budgetTrap => []
  | .trapDelivery => []
  | .mxCommandStart => []
  | .mmaRowFinal => []
  | .mxCommandComplete => []
  | .copySourceRead => []
  | .byteLanding => []
  | .copyCommandComplete => []
  | .atomicTile => []
  | .groupDrainPerform => []
  | .groupDrainTimeout => []
  | .spawnSlotReserve => []
  | .porchSpill => []
  | .put => []
  | .get => []
  | .getResponse => []
  | .fadd => []
  | .tail => []
  | .permit => []
  | .ack => []
  | .nak => []
  | .messageResend => []
  | .connectionFail => []
  | .frameReceive => []
  | .portLinkDown => []
  | .flitCrcReplay => []
  | .linkRetrain => []
  | .permitLeaseExpiry => []
  | .droverRequestSend => []
  | .handleFetchComplete => []
  | .handleFetchFail => []
  | .handleEvictComplete => []
  | .pastureNonempty => []
  | .penMap => []
  | .penRemap => []
  | .penClaim => []
  | .pickup => []
  | .recordReturn => []
  | .wakeWithoutCause => []
  | .pinfoldWake => []
  | .sectorFill => []
  | .l2Writeback => []
  | .writeQueueDrain => []
  | .phaseShrinkComplete => []
  | .phaseGrowComplete => []
  | .uncorrectableError => []
  | .sramScrub => []
  | .hbmScrub => []
  | .coreSelfTest => []
  | .cellarMaintenance => []
  | .arbiterInterval => []
  | .junctionOvertemp => []
  | .recorderAppend => []
  | .hubWatchdog => []
  | .coldReset => []
  | .warmReset => []
  | .attestationRequest => []
  | .recorderFreezeRelease => []
  | .variableLatencyResult => []
  | .portLinkUp => []
  | .connectionReestablished => []
  | .programmingSliceEnd => []
  | .recoveryExchange => []
  | .hardwarePrefetch => []

/-- The vector source codes an operation reads (Table 3.11). -/
def Uses.vcodes : Instr → List (BitVec 6)
  | .nop _ => []
  | .br _ => []
  | .jmp _ => []
  | .call _ => []
  | .callr _ => []
  | .ret => []
  | .loop _ _ _ => []
  | .bktJmp _ _ _ _ => []
  | .park _ _ => []
  | .exit => []
  | .spawn _ _ _ => []
  | .waitw _ _ _ _ _ _ _ => []
  | .wakew _ _ _ _ _ => []
  | .foldArrive _ => []
  | .foldWait _ => []
  | .foldSync _ => []
  | .foldBytes _ _ => []
  | .whWait _ => []
  | .probe _ _ _ _ => []
  | .segMark => []
  | .fence _ _ _ => []
  | .fenceX _ _ => []
  | .trap _ _ => []
  | .brk _ => []
  | .rfe => []
  | .ctxResumeRun _ _ => []
  | .ctxResumePark _ _ => []
  | .ctxResumePre _ _ => []
  | .ctxKill _ => []
  | .ctxKillRun _ => []
  | .halt => []
  | .add _ _ _ _ _ => []
  | .sub _ _ _ _ _ => []
  | .mul _ _ _ _ _ => []
  | .mulh _ _ _ _ _ => []
  | .mulhu _ _ _ _ _ => []
  | .div _ _ _ _ _ => []
  | .divu _ _ _ _ _ => []
  | .rem _ _ _ _ _ => []
  | .remu _ _ _ _ _ => []
  | .and _ _ _ _ _ => []
  | .or _ _ _ _ _ => []
  | .xor _ _ _ _ _ => []
  | .andn _ _ _ _ _ => []
  | .orn _ _ _ _ _ => []
  | .xnor _ _ _ _ _ => []
  | .shl _ _ _ _ _ => []
  | .shr _ _ _ _ _ => []
  | .sar _ _ _ _ _ => []
  | .rotr _ _ _ _ _ => []
  | .min _ _ _ _ _ => []
  | .max _ _ _ _ _ => []
  | .minu _ _ _ _ _ => []
  | .maxu _ _ _ _ _ => []
  | .clz _ _ _ _ => []
  | .ctz _ _ _ _ => []
  | .popc _ _ _ _ => []
  | .bswap _ _ _ _ => []
  | .bext _ _ _ _ _ => []
  | .bins _ _ _ _ => []
  | .addS2 _ _ _ _ _ => []
  | .addS3 _ _ _ _ _ => []
  | .sext _ _ _ _ _ => []
  | .zext _ _ _ _ _ => []
  | .mov _ _ _ _ => []
  | .litHi _ _ _ _ _ => []
  | .cmpEq _ _ _ _ => []
  | .cmpNe _ _ _ _ => []
  | .cmpLt _ _ _ _ => []
  | .cmpLtu _ _ _ _ => []
  | .cmpLe _ _ _ _ => []
  | .cmpLeu _ _ _ _ => []
  | .pand _ _ _ _ => []
  | .por _ _ _ _ => []
  | .pxor _ _ _ _ => []
  | .pnot _ _ _ => []
  | .tstBit _ _ _ _ => []
  | .faddS _ _ _ _ => []
  | .fsubS _ _ _ _ => []
  | .fmulS _ _ _ _ => []
  | .ffmaS _ _ _ _ => []
  | .fminS _ _ _ _ => []
  | .fmaxS _ _ _ _ => []
  | .fcmpLtS _ _ _ => []
  | .fcmpEqS _ _ _ => []
  | .fcvtSI _ _ _ => []
  | .fcvtSIU _ _ _ => []
  | .fcvtIS _ _ _ => []
  | .fcvtISU _ _ _ => []
  | .fcvtISW _ _ _ => []
  | .sysRd _ _ _ => []
  | .sysWr _ _ => []
  | .budRd _ _ => []
  | .timeRd _ _ => []
  | .ldU8 _ _ _ _ => []
  | .ldS8 _ _ _ _ => []
  | .ldU16 _ _ _ _ => []
  | .ldS16 _ _ _ _ => []
  | .ldU32 _ _ _ _ => []
  | .ldS32 _ _ _ _ => []
  | .ld64 _ _ _ _ => []
  | .ldAcq _ _ _ _ => []
  | .st8 _ _ _ _ => []
  | .st16 _ _ _ _ => []
  | .st32 _ _ _ _ => []
  | .st64 _ _ _ _ => []
  | .stRel _ _ _ _ => []
  | .ldk _ _ _ => []
  | .amoAdd _ _ _ _ _ _ _ => []
  | .amoInc _ _ _ _ _ _ => []
  | .amoAnd _ _ _ _ _ _ _ => []
  | .amoOr _ _ _ _ _ _ _ => []
  | .amoXor _ _ _ _ _ _ _ => []
  | .amoSmin _ _ _ _ _ _ _ => []
  | .amoSmax _ _ _ _ _ _ _ => []
  | .amoUmin _ _ _ _ _ _ _ => []
  | .amoUmax _ _ _ _ _ _ _ => []
  | .amoSwap _ _ _ _ _ _ _ => []
  | .amoCas _ _ _ _ _ _ _ _ => []
  | .amoFadd _ _ _ _ _ _ _ => []
  | .redAdd _ _ _ _ _ _ => []
  | .redInc _ _ _ _ _ => []
  | .redAnd _ _ _ _ _ _ => []
  | .redOr _ _ _ _ _ _ => []
  | .redXor _ _ _ _ _ _ => []
  | .redSmin _ _ _ _ _ _ => []
  | .redSmax _ _ _ _ _ _ => []
  | .redUmin _ _ _ _ _ _ => []
  | .redUmax _ _ _ _ _ _ => []
  | .redFadd _ _ _ _ _ _ => []
  | .vadd _ _ _ a b => [a, b]
  | .vsub _ _ _ a b => [a, b]
  | .vmul _ _ _ a b => [a, b]
  | .vfma _ _ _ a b => [a, b]
  | .vfms _ _ _ a b => [a, b]
  | .vfnma _ _ _ a b => [a, b]
  | .vmin _ _ _ a b => [a, b]
  | .vmax _ _ _ a b => [a, b]
  | .vabs _ _ _ a => [a]
  | .vneg _ _ _ a => [a]
  | .vmov _ _ _ a => [a]
  | .vand _ _ _ a b => [a, b]
  | .vor _ _ _ a b => [a, b]
  | .vxor _ _ _ a b => [a, b]
  | .vnot _ _ _ a => [a]
  | .vshl _ _ _ a b => [a, b]
  | .vshr _ _ _ a b => [a, b]
  | .vsar _ _ _ a b => [a, b]
  | .vcmpEq _ _ a b => [a, b]
  | .vcmpNe _ _ a b => [a, b]
  | .vcmpLt _ _ a b => [a, b]
  | .vcmpLe _ _ a b => [a, b]
  | .vsel _ _ _ a b => [a, b]
  | .vcvtTo _ _ _ a _ _ => [a]
  | .vcvtFrom _ _ _ a _ _ => [a]
  | .vcvtSc _ _ _ a _ _ _ => [a]
  | .vredAdd _ _ _ a b => [a, b]
  | .vredMax _ _ _ a b => [a, b]
  | .vredMin _ _ _ a b => [a, b]
  | .vscanAdd _ _ _ a b => [a, b]
  | .vbcast _ _ _ a b => [a, b]
  | .vext _ _ a b => [a, b]
  | .vperm _ _ _ a b => [a, b]
  | .vrot _ _ _ a b => [a, b]
  | .vpart _ _ _ a _ _ _ _ => [a]
  | .vld _ _ _ _ _ _ => []
  | .vst _ _ _ _ _ => []
  | .vgath _ _ _ i _ _ => [i]
  | .vscat _ _ i _ _ => [i]
  | .vlut _ _ _ a _ => [a]
  | .vmulhi _ _ a b => [a, b]
  | .vdot4 _ _ a b => [a, b]
  | .vamax _ _ a b => [a, b]
  | .vexp2 _ _ a => [a]
  | .vlog2 _ _ a => [a]
  | .vrcp _ _ a => [a]
  | .vrsqrt _ _ a => [a]
  | .vsqrt _ _ a => [a]
  | .vtanh _ _ a => [a]
  | .verf _ _ a => [a]
  | .vsigm _ _ a => [a]
  | .vdiv _ _ a b => [a, b]
  | .vfloor _ _ a => [a]
  | .mma _ _ _ _ _ _ => []
  | .maccClr _ _ _ => []
  | .maccLd _ _ _ => []
  | .maccSt _ _ _ => []
  | .mcancel _ => []
  | .cpFill _ _ _ _ _ => []
  | .cpDrain _ _ _ _ _ => []
  | .cpGath _ _ _ _ => []
  | .cpScat _ _ _ _ => []
  | .cpBcst _ _ _ _ => []
  | .cpRedFadd _ _ _ _ => []
  | .cpRedBf2Add _ _ _ _ => []
  | .cpRedIntAdd _ _ _ _ => []
  | .cpRedSmax _ _ _ _ => []
  | .cpRedUmax _ _ _ _ => []
  | .cpSelr _ _ _ _ => []
  | .cpSelc _ _ _ _ => []
  | .cpRmaPut _ _ _ _ => []
  | .cpRmaGet _ _ _ _ => []
  | .cpRamo _ _ _ _ => []
  | .cpGdrain _ _ _ _ => []
  | .cpPmtGrant _ _ _ => []
  | .cpPmtTake _ _ _ => []
  | .cpCancel _ => []
  | .cpCancelAll => []
  | .whFetchPred _ => []
  | .whFetchDem _ => []
  | .whDrop _ => []
  | .whPin _ => []
  | .whUnpin _ => []
  | .whQry _ => []
  | .stg _ _ => []
  | .stgLo _ _ => []
  | .stgHi _ _ => []
  | .ttDef _ _ _ => []
  | .ttFree _ => []
  | .ttBind _ _ => []
  | .ttUnbind _ => []
  | .ttMark _ _ => []
  | .ttMarkWait _ _ => []
  | .ttMarkNofold _ => []
  | .ttRd _ _ _ => []
  | .fmtSet _ _ _ _ _ => []
  | .vtSet _ => []
  | .vwinSet _ _ => []
  | .vactSet _ => []
  | .fpcSet _ _ _ _ _ _ _ => []
  | .fpcSetC _ _ _ _ => []
  | .fpcSetF _ => []
  | .lendMx _ => []
  | .lendVec _ => []
  | .phase _ _ => []
  | .amaxClr => []
  | .vlutLd _ _ _ => []
  | .kmov _ _ => []
  | .kderive _ _ _ => []
  | .krestrict _ _ _ => []
  | .kgetObj _ _ => []
  | .kgetBase _ _ => []
  | .kgetLen _ _ => []
  | .kgetRgt _ _ => []
  | .kcheck _ _ _ _ => []
  | .kclr _ => []
  | .kst _ _ _ => []
  | .kld _ _ _ => []
  | .kmint _ _ => []
  | .xlatSync => []
  | .pgReform _ _ _ => []
  | .hresetWrite => []
  | .foldloWrite => []
  | .foldhiWrite => []
  | .spaceDescriptorWrite => []
  | .localSpaceClearEnd => []
  | .schcfgWrite => []
  | .bundleCheck => []
  | .budgetTrap => []
  | .trapDelivery => []
  | .mxCommandStart => []
  | .mmaRowFinal => []
  | .mxCommandComplete => []
  | .copySourceRead => []
  | .byteLanding => []
  | .copyCommandComplete => []
  | .atomicTile => []
  | .groupDrainPerform => []
  | .groupDrainTimeout => []
  | .spawnSlotReserve => []
  | .porchSpill => []
  | .put => []
  | .get => []
  | .getResponse => []
  | .fadd => []
  | .tail => []
  | .permit => []
  | .ack => []
  | .nak => []
  | .messageResend => []
  | .connectionFail => []
  | .frameReceive => []
  | .portLinkDown => []
  | .flitCrcReplay => []
  | .linkRetrain => []
  | .permitLeaseExpiry => []
  | .droverRequestSend => []
  | .handleFetchComplete => []
  | .handleFetchFail => []
  | .handleEvictComplete => []
  | .pastureNonempty => []
  | .penMap => []
  | .penRemap => []
  | .penClaim => []
  | .pickup => []
  | .recordReturn => []
  | .wakeWithoutCause => []
  | .pinfoldWake => []
  | .sectorFill => []
  | .l2Writeback => []
  | .writeQueueDrain => []
  | .phaseShrinkComplete => []
  | .phaseGrowComplete => []
  | .uncorrectableError => []
  | .sramScrub => []
  | .hbmScrub => []
  | .coreSelfTest => []
  | .cellarMaintenance => []
  | .arbiterInterval => []
  | .junctionOvertemp => []
  | .recorderAppend => []
  | .hubWatchdog => []
  | .coldReset => []
  | .warmReset => []
  | .attestationRequest => []
  | .recorderFreezeRelease => []
  | .variableLatencyResult => []
  | .portLinkUp => []
  | .connectionReestablished => []
  | .programmingSliceEnd => []
  | .recoveryExchange => []
  | .hardwarePrefetch => []

/-- The registers an operation reads beside its source codes. -/
def Uses.reads : Instr → List Name
  | .nop _ => []
  | .br _ => []
  | .jmp _ => []
  | .call _ => []
  | .callr _ => []
  | .ret => [.s 31]
  | .loop _ _ _ => []
  | .bktJmp _ _ _ _ => []
  | .park _ _ => []
  | .exit => []
  | .spawn k _ _ => [.k k.toNat]
  | .waitw k _ _ _ _ _ _ => [.k k.toNat]
  | .wakew k _ _ _ _ => [.k k.toNat]
  | .foldArrive _ => []
  | .foldWait _ => []
  | .foldSync _ => []
  | .foldBytes _ _ => []
  | .whWait _ => []
  | .probe k _ _ _ => [.k k.toNat]
  | .segMark => []
  | .fence _ _ _ => []
  | .fenceX _ _ => []
  | .trap _ _ => []
  | .brk _ => []
  | .rfe => []
  | .ctxResumeRun _ _ => []
  | .ctxResumePark _ _ => []
  | .ctxResumePre _ _ => []
  | .ctxKill _ => []
  | .ctxKillRun _ => []
  | .halt => []
  | .add _ _ _ _ _ => []
  | .sub _ _ _ _ _ => []
  | .mul _ _ _ _ _ => []
  | .mulh _ _ _ _ _ => []
  | .mulhu _ _ _ _ _ => []
  | .div _ _ _ _ _ => []
  | .divu _ _ _ _ _ => []
  | .rem _ _ _ _ _ => []
  | .remu _ _ _ _ _ => []
  | .and _ _ _ _ _ => []
  | .or _ _ _ _ _ => []
  | .xor _ _ _ _ _ => []
  | .andn _ _ _ _ _ => []
  | .orn _ _ _ _ _ => []
  | .xnor _ _ _ _ _ => []
  | .shl _ _ _ _ _ => []
  | .shr _ _ _ _ _ => []
  | .sar _ _ _ _ _ => []
  | .rotr _ _ _ _ _ => []
  | .min _ _ _ _ _ => []
  | .max _ _ _ _ _ => []
  | .minu _ _ _ _ _ => []
  | .maxu _ _ _ _ _ => []
  | .clz _ _ _ _ => []
  | .ctz _ _ _ _ => []
  | .popc _ _ _ _ => []
  | .bswap _ _ _ _ => []
  | .bext _ _ _ _ _ => []
  | .bins _ d _ _ => [.s d.toNat]
  | .addS2 _ _ _ _ _ => []
  | .addS3 _ _ _ _ _ => []
  | .sext _ _ _ _ _ => []
  | .zext _ _ _ _ _ => []
  | .mov _ _ _ _ => []
  | .litHi _ _ _ _ _ => []
  | .cmpEq _ _ _ _ => []
  | .cmpNe _ _ _ _ => []
  | .cmpLt _ _ _ _ => []
  | .cmpLtu _ _ _ _ => []
  | .cmpLe _ _ _ _ => []
  | .cmpLeu _ _ _ _ => []
  | .pand _ _ _ _ => []
  | .por _ _ _ _ => []
  | .pxor _ _ _ _ => []
  | .pnot _ _ _ => []
  | .tstBit _ _ _ _ => []
  | .faddS _ _ _ _ => []
  | .fsubS _ _ _ _ => []
  | .fmulS _ _ _ _ => []
  | .ffmaS x d _ _ => (if x then [] else [.s d.toNat])
  | .fminS _ _ _ _ => []
  | .fmaxS _ _ _ _ => []
  | .fcmpLtS _ _ _ => []
  | .fcmpEqS _ _ _ => []
  | .fcvtSI _ _ _ => []
  | .fcvtSIU _ _ _ => []
  | .fcvtIS _ _ _ => []
  | .fcvtISU _ _ _ => []
  | .fcvtISW _ _ _ => []
  | .sysRd _ _ _ => []
  | .sysWr _ _ => []
  | .budRd _ _ => []
  | .timeRd _ _ => []
  | .ldU8 _ k _ _ => [.k k.toNat]
  | .ldS8 _ k _ _ => [.k k.toNat]
  | .ldU16 _ k _ _ => [.k k.toNat]
  | .ldS16 _ k _ _ => [.k k.toNat]
  | .ldU32 _ k _ _ => [.k k.toNat]
  | .ldS32 _ k _ _ => [.k k.toNat]
  | .ld64 _ k _ _ => [.k k.toNat]
  | .ldAcq _ k _ _ => [.k k.toNat]
  | .st8 r k _ _ => [.k k.toNat, .s r.toNat]
  | .st16 r k _ _ => [.k k.toNat, .s r.toNat]
  | .st32 r k _ _ => [.k k.toNat, .s r.toNat]
  | .st64 r k _ _ => [.k k.toNat, .s r.toNat]
  | .stRel r k _ _ => [.k k.toNat, .s r.toNat]
  | .ldk _ _ _ => []
  | .amoAdd _ k _ _ _ _ _ => [.k k.toNat, .s 0]
  | .amoInc _ k _ _ _ _ => [.k k.toNat, .s 0]
  | .amoAnd _ k _ _ _ _ _ => [.k k.toNat, .s 0]
  | .amoOr _ k _ _ _ _ _ => [.k k.toNat, .s 0]
  | .amoXor _ k _ _ _ _ _ => [.k k.toNat, .s 0]
  | .amoSmin _ k _ _ _ _ _ => [.k k.toNat, .s 0]
  | .amoSmax _ k _ _ _ _ _ => [.k k.toNat, .s 0]
  | .amoUmin _ k _ _ _ _ _ => [.k k.toNat, .s 0]
  | .amoUmax _ k _ _ _ _ _ => [.k k.toNat, .s 0]
  | .amoSwap _ k _ _ _ _ _ => [.k k.toNat, .s 0]
  | .amoCas _ k _ _ _ _ _ cmp => [.k k.toNat, .s 0, .s cmp.toNat]
  | .amoFadd _ k _ _ _ _ _ => [.k k.toNat, .s 0]
  | .redAdd k _ _ _ _ _ => [.k k.toNat, .s 0]
  | .redInc k _ _ _ _ => [.k k.toNat, .s 0]
  | .redAnd k _ _ _ _ _ => [.k k.toNat, .s 0]
  | .redOr k _ _ _ _ _ => [.k k.toNat, .s 0]
  | .redXor k _ _ _ _ _ => [.k k.toNat, .s 0]
  | .redSmin k _ _ _ _ _ => [.k k.toNat, .s 0]
  | .redSmax k _ _ _ _ _ => [.k k.toNat, .s 0]
  | .redUmin k _ _ _ _ _ => [.k k.toNat, .s 0]
  | .redUmax k _ _ _ _ _ => [.k k.toNat, .s 0]
  | .redFadd k _ _ _ _ _ => [.k k.toNat, .s 0]
  | .vadd _ _ _ _ _ => []
  | .vsub _ _ _ _ _ => []
  | .vmul _ _ _ _ _ => []
  | .vfma _ x d _ _ => (if x then [] else [.v d.toNat])
  | .vfms _ x d _ _ => (if x then [] else [.v d.toNat])
  | .vfnma _ x d _ _ => (if x then [] else [.v d.toNat])
  | .vmin _ _ _ _ _ => []
  | .vmax _ _ _ _ _ => []
  | .vabs _ _ _ _ => []
  | .vneg _ _ _ _ => []
  | .vmov _ _ _ _ => []
  | .vand _ _ _ _ _ => []
  | .vor _ _ _ _ _ => []
  | .vxor _ _ _ _ _ => []
  | .vnot _ _ _ _ => []
  | .vshl _ _ _ _ _ => []
  | .vshr _ _ _ _ _ => []
  | .vsar _ _ _ _ _ => []
  | .vcmpEq _ _ _ _ => []
  | .vcmpNe _ _ _ _ => []
  | .vcmpLt _ _ _ _ => []
  | .vcmpLe _ _ _ _ => []
  | .vsel _ _ _ _ _ => []
  | .vcvtTo _ _ _ _ _ _ => []
  | .vcvtFrom _ _ _ _ _ _ => []
  | .vcvtSc _ _ _ _ s _ _ => [.s s.toNat]
  | .vredAdd _ _ _ _ _ => []
  | .vredMax _ _ _ _ _ => []
  | .vredMin _ _ _ _ _ => []
  | .vscanAdd _ _ _ _ _ => []
  | .vbcast _ _ _ _ _ => []
  | .vext _ _ _ _ => []
  | .vperm _ _ _ _ _ => []
  | .vrot _ _ _ _ _ => []
  | .vpart _ _ _ _ _ _ _ _ => []
  | .vld _ _ _ _ k _ => [.k k.toNat]
  | .vst _ v _ k _ => [.k k.toNat, .v v.toNat]
  | .vgath _ _ _ _ k _ => [.k k.toNat]
  | .vscat _ v _ k _ => [.k k.toNat, .v v.toNat]
  | .vlut _ _ _ _ _ => []
  | .vmulhi _ _ _ _ => []
  | .vdot4 _ _ _ _ => []
  | .vamax _ _ _ _ => []
  | .vexp2 _ _ _ => []
  | .vlog2 _ _ _ => []
  | .vrcp _ _ _ => []
  | .vrsqrt _ _ _ => []
  | .vsqrt _ _ _ => []
  | .vtanh _ _ _ => []
  | .verf _ _ _ => []
  | .vsigm _ _ _ => []
  | .vdiv _ _ _ _ => []
  | .vfloor _ _ _ => []
  | .mma _ _ _ _ _ _ => []
  | .maccClr _ _ _ => []
  | .maccLd _ _ _ => []
  | .maccSt _ _ _ => []
  | .mcancel _ => []
  | .cpFill _ k _ _ _ => [.k k.toNat]
  | .cpDrain _ k _ _ _ => [.k k.toNat]
  | .cpGath _ k _ _ => [.k k.toNat]
  | .cpScat _ k _ _ => [.k k.toNat]
  | .cpBcst _ k _ _ => [.k k.toNat]
  | .cpRedFadd _ k _ _ => [.k k.toNat]
  | .cpRedBf2Add _ k _ _ => [.k k.toNat]
  | .cpRedIntAdd _ k _ _ => [.k k.toNat]
  | .cpRedSmax _ k _ _ => [.k k.toNat]
  | .cpRedUmax _ k _ _ => [.k k.toNat]
  | .cpSelr _ k _ _ => [.k k.toNat]
  | .cpSelc _ k _ _ => [.k k.toNat]
  | .cpRmaPut _ k _ _ => [.k k.toNat]
  | .cpRmaGet _ k _ _ => [.k k.toNat]
  | .cpRamo _ k _ _ => [.k k.toNat]
  | .cpGdrain _ k _ _ => [.k k.toNat]
  | .cpPmtGrant k _ _ => [.k k.toNat]
  | .cpPmtTake k _ _ => [.k k.toNat]
  | .cpCancel _ => []
  | .cpCancelAll => []
  | .whFetchPred _ => []
  | .whFetchDem _ => []
  | .whDrop _ => []
  | .whPin _ => []
  | .whUnpin _ => []
  | .whQry _ => []
  | .stg _ _ => []
  | .stgLo _ _ => []
  | .stgHi _ _ => []
  | .ttDef _ _ k => [.k k.toNat]
  | .ttFree _ => []
  | .ttBind _ _ => []
  | .ttUnbind _ => []
  | .ttMark _ _ => []
  | .ttMarkWait _ _ => []
  | .ttMarkNofold _ => []
  | .ttRd _ _ _ => []
  | .fmtSet _ _ _ _ _ => []
  | .vtSet _ => []
  | .vwinSet _ _ => []
  | .vactSet _ => []
  | .fpcSet _ _ _ _ _ _ _ => []
  | .fpcSetC _ _ _ _ => []
  | .fpcSetF _ => []
  | .lendMx _ => []
  | .lendVec _ => []
  | .phase k _ => [.k k.toNat]
  | .amaxClr => []
  | .vlutLd k _ _ => [.k k.toNat]
  | .kmov _ s => [.k s.toNat]
  | .kderive _ s _ => [.k s.toNat]
  | .krestrict _ s _ => [.k s.toNat]
  | .kgetObj _ s => [.k s.toNat]
  | .kgetBase _ s => [.k s.toNat]
  | .kgetLen _ s => [.k s.toNat]
  | .kgetRgt _ s => [.k s.toNat]
  | .kcheck _ s _ _ => [.k s.toNat]
  | .kclr _ => []
  | .kst k s _ => [.k k.toNat, .k s.toNat]
  | .kld _ k _ => [.k k.toNat]
  | .kmint _ _ => []
  | .xlatSync => []
  | .pgReform k _ _ => [.k k.toNat]
  | .hresetWrite => []
  | .foldloWrite => []
  | .foldhiWrite => []
  | .spaceDescriptorWrite => []
  | .localSpaceClearEnd => []
  | .schcfgWrite => []
  | .bundleCheck => []
  | .budgetTrap => []
  | .trapDelivery => []
  | .mxCommandStart => []
  | .mmaRowFinal => []
  | .mxCommandComplete => []
  | .copySourceRead => []
  | .byteLanding => []
  | .copyCommandComplete => []
  | .atomicTile => []
  | .groupDrainPerform => []
  | .groupDrainTimeout => []
  | .spawnSlotReserve => []
  | .porchSpill => []
  | .put => []
  | .get => []
  | .getResponse => []
  | .fadd => []
  | .tail => []
  | .permit => []
  | .ack => []
  | .nak => []
  | .messageResend => []
  | .connectionFail => []
  | .frameReceive => []
  | .portLinkDown => []
  | .flitCrcReplay => []
  | .linkRetrain => []
  | .permitLeaseExpiry => []
  | .droverRequestSend => []
  | .handleFetchComplete => []
  | .handleFetchFail => []
  | .handleEvictComplete => []
  | .pastureNonempty => []
  | .penMap => []
  | .penRemap => []
  | .penClaim => []
  | .pickup => []
  | .recordReturn => []
  | .wakeWithoutCause => []
  | .pinfoldWake => []
  | .sectorFill => []
  | .l2Writeback => []
  | .writeQueueDrain => []
  | .phaseShrinkComplete => []
  | .phaseGrowComplete => []
  | .uncorrectableError => []
  | .sramScrub => []
  | .hbmScrub => []
  | .coreSelfTest => []
  | .cellarMaintenance => []
  | .arbiterInterval => []
  | .junctionOvertemp => []
  | .recorderAppend => []
  | .hubWatchdog => []
  | .coldReset => []
  | .warmReset => []
  | .attestationRequest => []
  | .recorderFreezeRelease => []
  | .variableLatencyResult => []
  | .portLinkUp => []
  | .connectionReestablished => []
  | .programmingSliceEnd => []
  | .recoveryExchange => []
  | .hardwarePrefetch => []

/-- The registers an operation writes (R47): none where `d` = 1. -/
def Uses.writes : Instr → List Name
  | .nop _ => []
  | .br _ => []
  | .jmp _ => []
  | .call _ => [.s 31]
  | .callr _ => [.s 31]
  | .ret => []
  | .loop l _ _ => [.lc (b2n l)]
  | .bktJmp _ _ _ _ => []
  | .park _ _ => []
  | .exit => []
  | .spawn _ _ _ => []
  | .waitw _ _ _ _ _ _ _ => []
  | .wakew _ _ _ _ _ => []
  | .foldArrive _ => []
  | .foldWait _ => []
  | .foldSync _ => []
  | .foldBytes _ _ => []
  | .whWait _ => [.hstat]
  | .probe _ _ _ _ => []
  | .segMark => []
  | .fence _ _ _ => []
  | .fenceX _ _ => []
  | .trap _ _ => []
  | .brk _ => []
  | .rfe => []
  | .ctxResumeRun _ _ => []
  | .ctxResumePark _ _ => []
  | .ctxResumePre _ _ => []
  | .ctxKill _ => []
  | .ctxKillRun _ => []
  | .halt => []
  | .add _ x d _ _ => (if x then [] else [.s d.toNat])
  | .sub _ x d _ _ => (if x then [] else [.s d.toNat])
  | .mul _ x d _ _ => (if x then [] else [.s d.toNat])
  | .mulh _ x d _ _ => (if x then [] else [.s d.toNat])
  | .mulhu _ x d _ _ => (if x then [] else [.s d.toNat])
  | .div _ x d _ _ => (if x then [] else [.s d.toNat])
  | .divu _ x d _ _ => (if x then [] else [.s d.toNat])
  | .rem _ x d _ _ => (if x then [] else [.s d.toNat])
  | .remu _ x d _ _ => (if x then [] else [.s d.toNat])
  | .and _ x d _ _ => (if x then [] else [.s d.toNat])
  | .or _ x d _ _ => (if x then [] else [.s d.toNat])
  | .xor _ x d _ _ => (if x then [] else [.s d.toNat])
  | .andn _ x d _ _ => (if x then [] else [.s d.toNat])
  | .orn _ x d _ _ => (if x then [] else [.s d.toNat])
  | .xnor _ x d _ _ => (if x then [] else [.s d.toNat])
  | .shl _ x d _ _ => (if x then [] else [.s d.toNat])
  | .shr _ x d _ _ => (if x then [] else [.s d.toNat])
  | .sar _ x d _ _ => (if x then [] else [.s d.toNat])
  | .rotr _ x d _ _ => (if x then [] else [.s d.toNat])
  | .min _ x d _ _ => (if x then [] else [.s d.toNat])
  | .max _ x d _ _ => (if x then [] else [.s d.toNat])
  | .minu _ x d _ _ => (if x then [] else [.s d.toNat])
  | .maxu _ x d _ _ => (if x then [] else [.s d.toNat])
  | .clz _ x d _ => (if x then [] else [.s d.toNat])
  | .ctz _ x d _ => (if x then [] else [.s d.toNat])
  | .popc _ x d _ => (if x then [] else [.s d.toNat])
  | .bswap _ x d _ => (if x then [] else [.s d.toNat])
  | .bext _ x d _ _ => (if x then [] else [.s d.toNat])
  | .bins _ d _ _ => [.s d.toNat]
  | .addS2 _ x d _ _ => (if x then [] else [.s d.toNat])
  | .addS3 _ x d _ _ => (if x then [] else [.s d.toNat])
  | .sext _ x d _ _ => (if x then [] else [.s d.toNat])
  | .zext _ x d _ _ => (if x then [] else [.s d.toNat])
  | .mov _ x d _ => (if x then [] else [.s d.toNat])
  | .litHi _ x d _ _ => (if x then [] else [.s d.toNat])
  | .cmpEq _ p _ _ => [.p p.toNat]
  | .cmpNe _ p _ _ => [.p p.toNat]
  | .cmpLt _ p _ _ => [.p p.toNat]
  | .cmpLtu _ p _ _ => [.p p.toNat]
  | .cmpLe _ p _ _ => [.p p.toNat]
  | .cmpLeu _ p _ _ => [.p p.toNat]
  | .pand _ p _ _ => [.p p.toNat]
  | .por _ p _ _ => [.p p.toNat]
  | .pxor _ p _ _ => [.p p.toNat]
  | .pnot _ p _ => [.p p.toNat]
  | .tstBit _ p _ _ => [.p p.toNat]
  | .faddS x d _ _ => (if x then [] else [.s d.toNat])
  | .fsubS x d _ _ => (if x then [] else [.s d.toNat])
  | .fmulS x d _ _ => (if x then [] else [.s d.toNat])
  | .ffmaS x d _ _ => (if x then [] else [.s d.toNat])
  | .fminS x d _ _ => (if x then [] else [.s d.toNat])
  | .fmaxS x d _ _ => (if x then [] else [.s d.toNat])
  | .fcmpLtS p _ _ => [.p p.toNat]
  | .fcmpEqS p _ _ => [.p p.toNat]
  | .fcvtSI x d _ => (if x then [] else [.s d.toNat])
  | .fcvtSIU x d _ => (if x then [] else [.s d.toNat])
  | .fcvtIS x d _ => (if x then [] else [.s d.toNat])
  | .fcvtISU x d _ => (if x then [] else [.s d.toNat])
  | .fcvtISW x d _ => (if x then [] else [.s d.toNat])
  | .sysRd x d _ => (if x then [] else [.s d.toNat])
  | .sysWr _ _ => []
  | .budRd x d => (if x then [] else [.s d.toNat])
  | .timeRd x d => (if x then [] else [.s d.toNat])
  | .ldU8 r _ _ _ => [.s r.toNat]
  | .ldS8 r _ _ _ => [.s r.toNat]
  | .ldU16 r _ _ _ => [.s r.toNat]
  | .ldS16 r _ _ _ => [.s r.toNat]
  | .ldU32 r _ _ _ => [.s r.toNat]
  | .ldS32 r _ _ _ => [.s r.toNat]
  | .ld64 r _ _ _ => [.s r.toNat]
  | .ldAcq r _ _ _ => [.s r.toNat]
  | .st8 _ _ _ _ => []
  | .st16 _ _ _ _ => []
  | .st32 _ _ _ _ => []
  | .st64 _ _ _ _ => []
  | .stRel _ _ _ _ => []
  | .ldk kd _ _ => [.k kd.toNat]
  | .amoAdd r _ _ _ _ _ _ => [.s r.toNat]
  | .amoInc r _ _ _ _ _ => [.s r.toNat]
  | .amoAnd r _ _ _ _ _ _ => [.s r.toNat]
  | .amoOr r _ _ _ _ _ _ => [.s r.toNat]
  | .amoXor r _ _ _ _ _ _ => [.s r.toNat]
  | .amoSmin r _ _ _ _ _ _ => [.s r.toNat]
  | .amoSmax r _ _ _ _ _ _ => [.s r.toNat]
  | .amoUmin r _ _ _ _ _ _ => [.s r.toNat]
  | .amoUmax r _ _ _ _ _ _ => [.s r.toNat]
  | .amoSwap r _ _ _ _ _ _ => [.s r.toNat]
  | .amoCas r _ _ _ _ _ _ _ => [.s r.toNat]
  | .amoFadd r _ _ _ _ _ _ => [.s r.toNat]
  | .redAdd _ _ _ _ _ _ => []
  | .redInc _ _ _ _ _ => []
  | .redAnd _ _ _ _ _ _ => []
  | .redOr _ _ _ _ _ _ => []
  | .redXor _ _ _ _ _ _ => []
  | .redSmin _ _ _ _ _ _ => []
  | .redSmax _ _ _ _ _ _ => []
  | .redUmin _ _ _ _ _ _ => []
  | .redUmax _ _ _ _ _ _ => []
  | .redFadd _ _ _ _ _ _ => []
  | .vadd _ x d _ _ => (if x then [] else [.v d.toNat])
  | .vsub _ x d _ _ => (if x then [] else [.v d.toNat])
  | .vmul _ x d _ _ => (if x then [] else [.v d.toNat])
  | .vfma _ x d _ _ => (if x then [] else [.v d.toNat])
  | .vfms _ x d _ _ => (if x then [] else [.v d.toNat])
  | .vfnma _ x d _ _ => (if x then [] else [.v d.toNat])
  | .vmin _ x d _ _ => (if x then [] else [.v d.toNat])
  | .vmax _ x d _ _ => (if x then [] else [.v d.toNat])
  | .vabs _ x d _ => (if x then [] else [.v d.toNat])
  | .vneg _ x d _ => (if x then [] else [.v d.toNat])
  | .vmov _ x d _ => (if x then [] else [.v d.toNat])
  | .vand _ x d _ _ => (if x then [] else [.v d.toNat])
  | .vor _ x d _ _ => (if x then [] else [.v d.toNat])
  | .vxor _ x d _ _ => (if x then [] else [.v d.toNat])
  | .vnot _ x d _ => (if x then [] else [.v d.toNat])
  | .vshl _ x d _ _ => (if x then [] else [.v d.toNat])
  | .vshr _ x d _ _ => (if x then [] else [.v d.toNat])
  | .vsar _ x d _ _ => (if x then [] else [.v d.toNat])
  | .vcmpEq _ m _ _ => [.m m.toNat]
  | .vcmpNe _ m _ _ => [.m m.toNat]
  | .vcmpLt _ m _ _ => [.m m.toNat]
  | .vcmpLe _ m _ _ => [.m m.toNat]
  | .vsel _ x d _ _ => (if x then [] else [.v d.toNat])
  | .vcvtTo _ x d _ _ _ => (if x then [] else [.v d.toNat])
  | .vcvtFrom _ x d _ _ _ => (if x then [] else [.v d.toNat])
  | .vcvtSc _ x d _ _ _ _ => (if x then [] else [.v d.toNat])
  | .vredAdd _ x d _ _ => (if x then [] else [.v d.toNat])
  | .vredMax _ x d _ _ => (if x then [] else [.v d.toNat])
  | .vredMin _ x d _ _ => (if x then [] else [.v d.toNat])
  | .vscanAdd _ x d _ _ => (if x then [] else [.v d.toNat])
  | .vbcast _ x d _ _ => (if x then [] else [.v d.toNat])
  | .vext _ d _ _ => [.s d.toNat]
  | .vperm _ x d _ _ => (if x then [] else [.v d.toNat])
  | .vrot _ x d _ _ => (if x then [] else [.v d.toNat])
  | .vpart _ x d _ _ cv _ cnt => (if x then [] else [.v d.toNat]) ++ (if cv then [.s cnt.toNat] else [])
  | .vld _ x v _ _ _ => (if x then [] else [.v v.toNat])
  | .vst _ _ _ _ _ => []
  | .vgath _ x v _ _ _ => (if x then [] else [.v v.toNat])
  | .vscat _ _ _ _ _ => []
  | .vlut _ x d _ _ => (if x then [] else [.v d.toNat])
  | .vmulhi x d _ _ => (if x then [] else [.v d.toNat])
  | .vdot4 x d _ _ => (if x then [] else [.v d.toNat])
  | .vamax x d _ _ => (if x then [] else [.v d.toNat])
  | .vexp2 x d _ => (if x then [] else [.v d.toNat])
  | .vlog2 x d _ => (if x then [] else [.v d.toNat])
  | .vrcp x d _ => (if x then [] else [.v d.toNat])
  | .vrsqrt x d _ => (if x then [] else [.v d.toNat])
  | .vsqrt x d _ => (if x then [] else [.v d.toNat])
  | .vtanh x d _ => (if x then [] else [.v d.toNat])
  | .verf x d _ => (if x then [] else [.v d.toNat])
  | .vsigm x d _ => (if x then [] else [.v d.toNat])
  | .vdiv x d _ _ => (if x then [] else [.v d.toNat])
  | .vfloor x d _ => (if x then [] else [.v d.toNat])
  | .mma _ _ _ _ _ _ => []
  | .maccClr _ _ _ => []
  | .maccLd _ _ _ => []
  | .maccSt _ _ _ => []
  | .mcancel _ => []
  | .cpFill _ _ _ _ _ => []
  | .cpDrain _ _ _ _ _ => []
  | .cpGath _ _ _ _ => []
  | .cpScat _ _ _ _ => []
  | .cpBcst _ _ _ _ => []
  | .cpRedFadd _ _ _ _ => []
  | .cpRedBf2Add _ _ _ _ => []
  | .cpRedIntAdd _ _ _ _ => []
  | .cpRedSmax _ _ _ _ => []
  | .cpRedUmax _ _ _ _ => []
  | .cpSelr _ _ _ _ => []
  | .cpSelc _ _ _ _ => []
  | .cpRmaPut _ _ _ _ => []
  | .cpRmaGet _ _ _ _ => []
  | .cpRamo _ _ _ _ => []
  | .cpGdrain _ _ _ _ => []
  | .cpPmtGrant _ _ _ => []
  | .cpPmtTake _ _ _ => []
  | .cpCancel _ => []
  | .cpCancelAll => []
  | .whFetchPred _ => []
  | .whFetchDem _ => []
  | .whDrop _ => []
  | .whPin _ => []
  | .whUnpin _ => []
  | .whQry _ => [.hstat]
  | .stg _ _ => []
  | .stgLo _ _ => []
  | .stgHi _ _ => []
  | .ttDef _ _ _ => []
  | .ttFree _ => []
  | .ttBind _ _ => []
  | .ttUnbind _ => []
  | .ttMark _ _ => []
  | .ttMarkWait _ _ => []
  | .ttMarkNofold _ => []
  | .ttRd _ _ d => [.s d.toNat]
  | .fmtSet _ _ _ _ _ => []
  | .vtSet _ => []
  | .vwinSet _ _ => []
  | .vactSet _ => []
  | .fpcSet _ _ _ _ _ _ _ => []
  | .fpcSetC _ _ _ _ => []
  | .fpcSetF _ => []
  | .lendMx _ => []
  | .lendVec _ => []
  | .phase _ _ => []
  | .amaxClr => []
  | .vlutLd _ _ _ => []
  | .kmov d _ => [.k d.toNat]
  | .kderive d _ _ => [.k d.toNat]
  | .krestrict d _ _ => [.k d.toNat]
  | .kgetObj d _ => [.s d.toNat]
  | .kgetBase d _ => [.s d.toNat]
  | .kgetLen d _ => [.s d.toNat]
  | .kgetRgt d _ => [.s d.toNat]
  | .kcheck p _ _ _ => [.p p.toNat]
  | .kclr d => [.k d.toNat]
  | .kst _ _ _ => []
  | .kld d _ _ => [.k d.toNat]
  | .kmint d _ => [.k d.toNat]
  | .xlatSync => []
  | .pgReform _ _ d => [.s d.toNat]
  | .hresetWrite => []
  | .foldloWrite => []
  | .foldhiWrite => []
  | .spaceDescriptorWrite => []
  | .localSpaceClearEnd => []
  | .schcfgWrite => []
  | .bundleCheck => []
  | .budgetTrap => []
  | .trapDelivery => []
  | .mxCommandStart => []
  | .mmaRowFinal => []
  | .mxCommandComplete => []
  | .copySourceRead => []
  | .byteLanding => []
  | .copyCommandComplete => []
  | .atomicTile => []
  | .groupDrainPerform => []
  | .groupDrainTimeout => []
  | .spawnSlotReserve => []
  | .porchSpill => []
  | .put => []
  | .get => []
  | .getResponse => []
  | .fadd => []
  | .tail => []
  | .permit => []
  | .ack => []
  | .nak => []
  | .messageResend => []
  | .connectionFail => []
  | .frameReceive => []
  | .portLinkDown => []
  | .flitCrcReplay => []
  | .linkRetrain => []
  | .permitLeaseExpiry => []
  | .droverRequestSend => []
  | .handleFetchComplete => []
  | .handleFetchFail => []
  | .handleEvictComplete => []
  | .pastureNonempty => []
  | .penMap => []
  | .penRemap => []
  | .penClaim => []
  | .pickup => []
  | .recordReturn => []
  | .wakeWithoutCause => []
  | .pinfoldWake => []
  | .sectorFill => []
  | .l2Writeback => []
  | .writeQueueDrain => []
  | .phaseShrinkComplete => []
  | .phaseGrowComplete => []
  | .uncorrectableError => []
  | .sramScrub => []
  | .hbmScrub => []
  | .coreSelfTest => []
  | .cellarMaintenance => []
  | .arbiterInterval => []
  | .junctionOvertemp => []
  | .recorderAppend => []
  | .hubWatchdog => []
  | .coldReset => []
  | .warmReset => []
  | .attestationRequest => []
  | .recorderFreezeRelease => []
  | .variableLatencyResult => []
  | .portLinkUp => []
  | .connectionReestablished => []
  | .programmingSliceEnd => []
  | .recoveryExchange => []
  | .hardwarePrefetch => []

end Sys2Proof.Machine
end

