-- ==== Sys2Proof/Machine/Operands.lean ====
section
/-! DEFINITION. The operand forms: scalar source codes (Table 3.10), rings as a slot reads them (R50 to R52), literals (R36), and the
interlock on results of variable latency (R45, R46). Vector source codes are in Machine/Vector.lean. -/

namespace Sys2Proof.Machine
open Sys2Proof

/-- The literal in a slot of the bundle in issue (R36). -/
def Ctx.literal (c : Ctx) (k : Nat) : BitVec 24 := slotWord c.bundle k

/-- Whether slot `y` reads the ring of slot `x` in this bundle: its own, or in a bundle whose join covers both (R51). -/
def Ctx.ringJoined (c : Ctx) (y x : Slot) : Bool := x == y || c.lastJoin x y == c.pos + 1

/-- A value of a chain entry in the type its producer's `d` = 0 form would have written, under the reader's setting (R52). -/
def chainBits (c : Ctx) (f : Fmt) (v : FV) : Nat := pack f (roundTo f c.rm c.sat v).1

/-- An entry of a scalar ring as slot `y` reads it: free where R51 leaves it unspecified. -/
def ringB (s : State) (c : Ctx) (y : Slot) (i : Nat) : RingB :=
  let x : Slot := if i < 4 then .ia else .ib
  if c.ringJoined y x then (if i < 4 then c.bA else c.bB).getD (i % 4) (.bits 0)
  else .bits (BitVec.ofNat 64 (s.pick (2000 + 8 * y.idx + i)))

/-- The integer constants of Table 3.10. -/
def intConst : Nat → Word
  | 0 => 0 | 1 => 1 | 2 => 2 | 3 => 4 | 4 => 8 | 5 => 16 | 6 => 32 | _ => BitVec.allOnes 64

/-- The FP32 constants of R57. -/
def fpConst : Nat → FV
  | 0 => .fin false 0 0 | 1 => .fin false 1 0 | 2 => .fin false 1 1 | 3 => .fin false 1 2 | 4 => .fin false 1 3
  | 5 => .fin false 1 4 | 6 => .fin false 1 5 | _ => .fin true 1 0

/-- The integer reading of a scalar source code (Table 3.10, R52). -/
def readInt (s : State) (c : Ctx) (y : Slot) (code : BitVec 6) : Word :=
  let n := code.toNat
  if n < 0x20 then readS s c y n
  else if n < 0x28 then
    match ringB s c y (n - 0x20) with
    | .bits w => w
    | .chain v => BitVec.ofNat 64 (chainBits c .fp32 v)
  else if n < 0x2C then BitVec.ofNat 64 (b2n (readP s c y (n - 0x28)))
  else if n < 0x30 then (readLc s c y (n % 2)).setWidth 64
  else if n < 0x38 then (c.literal (n - 0x30)).signExtend 64
  else intConst (n - 0x38)

/-- The FP32 reading of a scalar source code (R57): chain values enter exactly. -/
def readFp (s : State) (c : Ctx) (y : Slot) (code : BitVec 6) : FV :=
  let n := code.toNat
  if n < 0x20 then unpack .fp32 ((readS s c y n).toNat % 2 ^ 32)
  else if n < 0x28 then
    match ringB s c y (n - 0x20) with
    | .bits w => unpack .fp32 (w.toNat % 2 ^ 32)
    | .chain v => v
  else if n < 0x38 then unpack .fp32 ((c.literal (n - 0x30)).toNat * 256)
  else fpConst (n - 0x38)

/-- The destination that a register's name stands for under the bundle's window (R22). -/
def Ctx.dstOf (c : Ctx) : Name → Dst
  | .s n => .s n
  | .p n => .p n
  | .m n => .m n
  | .lc n => .lc n
  | .k n => .k n
  | .v n => .row (bits c.vwinNow 2 1) (32 * bits c.vwinNow 0 2 + n)
  | .hstat => .hstat

/-- The registers that a scalar source code names. -/
def scodeName (code : BitVec 6) : List Name :=
  let n := code.toNat
  if n < 0x20 then [.s n] else if 0x28 ≤ n ∧ n < 0x2C then [.p (n - 0x28)] else if n = 0x2C ∨ n = 0x2D then [.lc (n % 2)] else []

/-- The registers that a vector source code names. -/
def vcodeName (code : BitVec 6) : List Name :=
  let n := code.toNat
  if n < 0x20 then [.v n] else if 0x28 ≤ n ∧ n < 0x30 then [.s (n - 0x28)] else []

/-- The registers that an operation reads or writes. -/
def usesOf (i : Instr) : List Name :=
  (Uses.scodes i).flatMap scodeName ++ (Uses.vcodes i).flatMap vcodeName ++ Uses.reads i ++ Uses.writes i

/-- Whether an operation uses its slot's divider (R122). -/
def divides : Instr → Bool
  | .div _ _ _ _ _ | .divu _ _ _ _ _ | .rem _ _ _ _ _ | .remu _ _ _ _ _ => true
  | _ => false

/-- The interlock (R45, R46): results of variable latency that an operation of slot `y` reads or writes complete before it issues, where
they stand in its own slot or a join makes it wait for them, and a division waits for the one before it in its slot (R122). The wait takes no
time in this model. -/
def Ctx.interlock (c : Ctx) (y : Slot) (i : Instr) : Ctx :=
  let ds := (usesOf i).map c.dstOf
  c.complete fun w => w.var && !w.done && ((divides i && w.divider && w.slot == y) || (c.sure y w && (match w.dst with
    | some (d, _) => ds.contains d
    | none => false)))

end Sys2Proof.Machine
end

