-- ==== Sys2Proof/Machine/Memory.lean ====
section
/-! DEFINITION. Accesses by object and offset: the checks at issue and at the memory port (R216, R351), the bytes they read through the
context's porch (R220, R273), atomics (R225, R226), what a write wakes, and records that return (R293). -/

namespace Sys2Proof.Machine
open Sys2Proof

/-! ### Checks -/

/-- The page starts that a span of an object touches. -/
def pagesOf (size o n : Nat) : List Nat :=
  if n = 0 then [] else (List.range ((o + n - 1) / size - o / size + 1)).map fun i => (o / size + i) * size

/-- The first byte of a span that lies in a page. -/
def firstIn (o pg : Nat) : Nat := max o pg

/-- Whether a core reaches a local space (R12, Table 12.1). -/
def reaches (core obj : Nat) : Bool :=
  if isScratch obj then
    (if core < 288 then clusterOf (obj - 0xFF8000) == clusterOf core
     else decide (core < 294) && clusterOf (obj - 0xFF8000) == clusterOf core)
  else decide (core < 288) && (obj - 0xFF9000) / 144 == dieOf core

/-- The tier check of a core's own access (R12, R216 step 5, R344): the page's TIER field alone is read (log 9). -/
def tierCheck (s : State) (core obj o n salt : Nat) : Except Stop Unit :=
  if isLocal obj then (if reaches core obj then .ok () else fatalAt kTier obj o)
  else if s.isTable obj then
    let e := s.seenObj obj salt
    match (pagesOf e.page o n).find? fun pg => (s.seenPage obj e pg salt).tier == 1 || (s.seenPage obj e pg salt).tier == 2 with
    | some pg => fatalAt kTier obj (firstIn o pg)
    | none => .ok ()
  else fatalAt kRights obj o

/-- The page entry that an access uses: one that would raise a non-resident or lost-page outcome is walked again (R211, R353). -/
def pageFor (s : State) (obj : Nat) (e : ObjEnt) (pg salt : Nat) : PageEnt :=
  let pe := s.seenPage obj e pg salt
  if (pe.p && pe.tier == 2) || pe.resident e.page then pe else s.pageEnt e pg

/-- The first page of a span that fails a test. -/
def failing (s : State) (obj : Nat) (e : ObjEnt) (o n salt : Nat) (ok : PageEnt → Bool) : Option Nat :=
  ((pagesOf e.page o n).find? fun pg => !ok (pageFor s obj e pg salt)).map (firstIn o)

/-- A check over the pages of a span. -/
def pageCheck (s : State) (obj : Nat) (e : ObjEnt) (o n salt kind : Nat) (ok : PageEnt → Bool) : Except Stop Unit :=
  match failing s obj e o n salt ok with
  | some f => fatalAt kind obj f
  | none => .ok ()

/-- Who makes an access: the paddock it is made under, and whether check 2 passes anyway (levels S and H, R352). -/
structure Who where
  paddock : Nat
  free : Bool
  deriving DecidableEq, Repr

/-- The source of a context's own accesses (R352). -/
def whoOf (core : Nat) (c : Ctx) : Who := ⟨c.paddock, levelOf core != .u⟩

/-- The checks at the memory port (Table 21.5) on `n` bytes from object offset `o`, in the table's order; `gen` is the capability's
generation, none where the access has no capability. Accesses to a page that is reforming or to a space that is being cleared wait. -/
def portCheck (s : State) (w : Who) (gen : Option Nat) (obj o n : Nat) (write : Bool) (salt : Nat) : Except Stop Unit :=
  if isLocal obj then do
    if s.isClearing obj then .error .wait
    let d := s.desc obj
    if gen.any fun g => g != bits d 0 16 then fatalAt kRevoked obj o
    if !w.free && w.paddock != bits d 16 16 then fatalAt kPaddock obj o
    if spaceSize obj < o + n then fatalAt kBounds obj (max o (spaceSize obj))
    if isRoom obj && decide (s.roomSize (obj - 0xFF9000) < o + n) then fatalAt kRoom obj (max o (s.roomSize (obj - 0xFF9000)))
    match (pagesOf 65536 o n).find? fun r => s.lostRegion obj r with
    | some r => fatalAt kLostPage obj (firstIn o r)
    | none => .ok ()
  else do
    if !s.isTable obj then fatalAt kRights obj o
    let e := s.seenObj obj salt
    if !e.valid || (gen.any fun g => g != e.gen) then fatalAt kRevoked obj o
    if !w.free && !e.permits w.paddock then fatalAt kPaddock obj o
    if e.size < o + n then fatalAt kBounds obj (max o e.size)
    pageCheck s obj e o n salt kLostPage fun pe => !pe.lost
    pageCheck s obj e o n salt kNonResident fun pe => pe.resident e.page || (pe.p && pe.tier == 2)
    if (failing s obj e o n salt fun pe => !pe.rf).isSome then .error .wait
    pageCheck s obj e o n salt kFormat fun pe => pe.pairOk
    if write then pageCheck s obj e o n salt kRights fun pe => pe.wr

/-- `CheckAccess` (R216): tag, right, alignment, length, tier and the memory port, in that order. -/
def checkAccess (s : State) (core : Nat) (c : Ctx) (cap : Cap) (off n right : Nat) (aligned write : Bool) (salt : Nat) : Except Stop Unit := do
  need cap.tag kRights
  need (cap.has right) kRights
  if aligned && off % n != 0 then fatalAt kAlign cap.obj ((cap.base + off) % 2 ^ 40)
  if cap.len < off + n then fatalAt kBounds cap.obj ((cap.base + max off cap.len) % 2 ^ 40)
  tierCheck s core cap.obj (cap.base + off) n salt
  portCheck s (whoOf core c) (some cap.gen) cap.obj (cap.base + off) n write salt

/-! ### Bytes by object and offset -/

/-- What an access leaves in the translation caches and in AC (R349, R353). -/
def touch (s : State) (obj o n salt : Nat) : State :=
  if isLocal obj then s else
    let e := s.seenObj obj salt
    (pagesOf e.page o n).foldl (fun t pg =>
      let pe := pageFor s obj e pg salt
      ((t.note ⟨obj, none, e.toNat⟩).note ⟨obj, some (pg / e.page), pe.plain.toNat⟩).setAcDi e pg false) s

/-- One byte at the point of order (R201). -/
def locByte (s : State) (obj o salt : Nat) : Byte :=
  if isLocal obj then s.byte (spaceAddr obj o) else
    let e := s.seenObj obj salt
    objByte s obj e (pageFor s obj e (o / e.page * e.page) salt) o

/-- The object offsets of the sectors that a span of an object touches. -/
def sectorsOf (o n : Nat) : List Nat := if n = 0 then [] else (List.range ((o + n - 1) / 128 - o / 128 + 1)).map fun i => (o / 128 + i) * 128

/-- Fills the sectors that a read touches (R187, R208). -/
def fillSpan (s : State) (obj o n salt : Nat) : State :=
  if isLocal obj then s else
    let e := s.seenObj obj salt
    (sectorsOf o n).foldl (fun t a => fillSector t obj e (pageFor s obj e (a / e.page * e.page) salt) a) s

/-- The fills that a read needs of controllers that hold further requests (R15, R309). -/
def heldFills (s : State) (obj o n salt : Nat) : List HeldReq :=
  if isLocal obj || s.arbiter.bytes.isEmpty then [] else
    let e := s.seenObj obj salt
    ((sectorsOf o n).filter fun a =>
      let pe := pageFor s obj e (a / e.page * e.page) salt
      s.spent (deviceOf pe.base) && !sectorHit s obj pe a).map fun a => ⟨deviceOf (pageFor s obj e (a / e.page * e.page) salt).base, obj, a, false⟩
/-- Whether a read must wait for a fill that a controller holds (R15). -/
def fillHeld (s : State) (obj o n salt : Nat) : Bool := !(heldFills s obj o n salt).isEmpty
/-- The controllers hold the fills that a read needs (R309). -/
def holdFills (s : State) (obj o n salt : Nat) : State := (heldFills s obj o n salt).foldl State.holdReq s

/-- Bytes at the point of order. -/
def locBytes (s : State) (obj o n salt : Nat) : List Byte := (List.range n).map fun i => locByte s obj (o + i) salt

/-- Whether the block of an object offset carries a tag (R343). -/
def carriesTag (s : State) (obj o salt : Nat) : Bool :=
  isLocal obj ||
    (let e := s.seenObj obj salt
     let pe := pageFor s obj e (o / e.page * e.page) salt
     !pe.converts && pe.tier == 0)

/-- The first byte of a span whose read fails in the Cellar (R416). -/
def flashIn (s : State) (obj o n salt : Nat) : Option Nat :=
  if isLocal obj then none else
    let e := s.seenObj obj salt
    ((List.range n).map (o + ·)).find? fun x => flashBad s obj e (pageFor s obj e (x / e.page * e.page) salt) x

/-- The address in memory of a byte that is not on a converting page. -/
def locAddr (s : State) (obj o salt : Nat) : Nat :=
  if isLocal obj then spaceAddr obj o else
    let e := s.seenObj obj salt
    (pageFor s obj e (o / e.page * e.page) salt).base + o % e.page

/-- The tag of the block of an object offset. -/
def locTag (s : State) (obj o salt : Nat) : Bool := carriesTag s obj o salt && s.tagAt (locAddr s obj o salt)

/-- Writes bytes at given offsets of an object as one event, each at its point of order, where the page entries put it before: the blocks' tags are
cleared; a page's DI is set where a line becomes dirty, but by an access that leaves no trace (R201, R343, R349, R360). -/
def placeBytes (s : State) (obj salt : Nat) (trace : Bool) (l : List (Nat × Byte)) : State :=
  if isLocal obj then l.foldl (fun t x => t.poke (spaceAddr obj x.1) x.2) s else
    let e := s.seenObj obj salt
    let pe := fun o : Nat => pageFor s obj e (o / e.page * e.page) salt
    let t := if trace then (l.filter fun x => newlyDirty s obj (pe x.1) x.1).foldl (fun t x => t.setAcDi e (x.1 / e.page * e.page) true) s else s
    l.foldl (fun t x => putObjByte t obj e (pe x.1) x.1 x.2) t
/-- Writes bytes by an access that leaves its trace. -/
def putBytes (s : State) (obj salt : Nat) (l : List (Nat × Byte)) : State := placeBytes s obj salt true l
/-- Writes one byte by an access that leaves its trace. -/
def putByte (s : State) (obj o : Nat) (b : Byte) (salt : Nat) : State := putBytes s obj salt [(o, b)]

/-- A write's act with the bytes that it is about to replace (R277). -/
def Act.over (a : Act) (s : State) : Act := if a.writes && decide (a.obj < 2 ^ 24) then { a with old := locBytes s a.obj a.off a.len 0 } else a

/-- Bytes with their offsets, from an offset up. -/
def atOffsets (o : Nat) (l : List Byte) : List (Nat × Byte) := l.zipIdx.map fun x => (o + x.2, x.1)

/-- A span goes into spans that rise and do not touch. -/
def runIn (o n : Nat) : List (Nat × Nat) → List (Nat × Nat)
  | [] => [(o, n)]
  | (a, k) :: t =>
    if o + n < a then (o, n) :: (a, k) :: t else if a + k < o then (a, k) :: runIn o n t
    else runIn (min o a) (max (o + n) (a + k) - min o a) t

/-- Spans merged, rising. -/
def mergeSpans (l : List (Nat × Nat)) : List (Nat × Nat) := l.foldl (fun r x => runIn x.1 x.2 r) []

/-- The contiguous runs of some offsets, rising: starts and lengths. -/
def runsOf (l : List Nat) : List (Nat × Nat) := l.foldr (fun o r => runIn o 1 r) []

/-! ### Records that return, and what a write wakes -/

/-- The byte offset of a field in a save area (Table 18.3). -/
def saStatus : Nat := 80

/-- The record's copy in a save area. -/
def recordAt (s : State) (obj off : Nat) : Rec := BitVec.ofNat 512 (ofBytes (locBytes s obj off 64 0))

/-- What hardware's access to a save area finds: it may go on; it must wait, as its page is in reform or its space is being cleared; or the area
is out of reach. -/
inductive Area | ready | waits | gone
  deriving DecidableEq, Repr

/-- Whether hardware reaches a save area: its object is valid and its page resident (R350 to R352, R358). -/
def saveArea (s : State) (obj off n : Nat) : Area :=
  match portCheck s ⟨0, true⟩ none obj off n true 0 with
  | .ok () => .ready
  | .error .wait => .waits
  | .error _ => .gone

/-- The location of `wakew` events on an object's words, and of a fold's completions, among the acts: no object has these numbers. -/
def wakePseudo (obj : Nat) : Nat := 2 ^ 24 + obj
/-- The location of a fold's completions. -/
def foldPseudo (fid : Nat) : Nat := 2 ^ 25 + fid

/-- Whether a watched word stays readable to its record (R322). -/
def watchReadable (s : State) (on : WakeOn) : Bool :=
  match on with
  | .word n _ _ _ obj off gen pad =>
    if isLocal obj then
      let d := s.desc obj
      bits d 0 16 == gen && bits d 16 16 == pad && !s.isClearing obj && !s.lostRegion obj off
    else
      (let e := s.objEnt obj
       e.valid && e.gen == gen && e.permits pad && decide (off + n ≤ e.size)
         && (let pe := s.pageEnt e (off / e.page * e.page)
             pe.resident e.page && !pe.rf))
  | _ => true

/-- Whether a watched word now meets its condition (R321). -/
def watchMet (s : State) (on : WakeOn) : Bool :=
  match on with
  | .word n cond v _ obj off _ _ =>
    let w := ofBytes (locBytes s obj off n 0)
    if cond = 0 then w != v.toNat % 256 ^ n else if cond = 1 then w == v.toNat % 256 ^ n else true
  | _ => false

/-- Whether a write of bytes of an object touches a watched word. -/
def watchHit (on : WakeOn) (obj : Nat) (offs : List Nat) : Bool :=
  match on with
  | .word n _ _ _ o off _ _ => o == obj && offs.any fun x => decide (off ≤ x) && decide (x < off + n)
  | _ => false

/-- Whether a write of some physical bytes touches a watched word. -/
def watchAt (s : State) (on : WakeOn) (a n : Nat) : Bool :=
  match on with
  | .word k _ _ _ o off _ _ => decide (locAddr s o off 0 < a + n) && decide (a < locAddr s o off 0 + k)
  | _ => false

/-- The FARM byte with ARM of an entry cleared (R327). -/
def clearArm (entry farm : Nat) : Nat := farm &&& (0xFF - 2 ^ entry)

/-- STATUS of a record that returns, and FARM where the wake clears an entry's ARM, in its save area (R311, R327): the state and the offsets written. -/
def writeStatus (s : State) (obj off status : Nat) (arm : Option Nat) : State × List Nat :=
  let t := putBytes s obj 0 (atOffsets (off + saStatus) (toBytes 8 status))
  let offs := (List.range 8).map (off + saStatus + ·)
  match arm with
  | some i => (putByte t obj (off + 146) (BitVec.ofNat 8 (clearArm i (locByte t obj (off + 146) 0).toNat)) 0, offs ++ [off + 146])
  | none => (t, offs)

/-- One record's wait ends: it goes to RETURNING with a status word (R293, R311), which is written once its save area may be (R350). The wake orders like an
acquire that reads the writes of its word or fold, but one without cause orders nothing (R306, R321). With it, the offsets of its frame that were
written. -/
def wakeOne (s : State) (w : Waiting) (status : Nat) (arm : Option Nat) : State × List Nat :=
  let pin := match w.on with
    | .pinfold cl _ prio _ => some (cl, prio)
    | _ => none
  let cause := status % 256
  let at' := saveArea s w.frameObj w.frameOff 1024
  let s := { s with
    waiting := s.waiting.filter fun x => !(x == w)
    returning := s.returning ++ [⟨w.frameObj, w.frameOff, w.pasture, if at' = .waits then some (status, arm) else none, pin⟩] }
  let s := if cause = 4 then s else s.recordRead { w.act with obj := if cause = 3 then wakePseudo w.act.obj else w.act.obj }
  if at' = .ready then writeStatus s w.frameObj w.frameOff status arm else (s, [])

/-- Records wake, and with them those that watch a word which their status words change (R321): at most `k` of a list that grows. -/
def wakeAll : Nat → List (Waiting × Nat × Option Nat) → State → State
  | 0, _, s => s
  | _, [], s => s
  | k + 1, (w, status, arm) :: t, s =>
    if s.waiting.contains w then
      let r := wakeOne s w status arm
      wakeAll k (t ++ (r.1.waiting.filter fun x => watchHit x.on w.frameObj r.2 && watchMet r.1 x.on).map fun x => (x, 2, none)) r.1
    else wakeAll k t s

/-- Some records wake, each with its status word (R293). -/
def wakeRecords (s : State) (l : List (Waiting × Nat × Option Nat)) : State := wakeAll (l.length + (s.waiting.length + 1) * (s.waiting.length + 1)) l s
/-- A record wakes with a status word; `arm` is the `FOLDM` entry whose ARM the wake clears (R327). -/
def wakeRecord (s : State) (w : Waiting) (status : Nat) (arm : Option Nat) : State := wakeRecords s [(w, status, arm)]

/-- The hub writes a number of `n` bytes at a physical address, and records that watch a word there may wake (R321). -/
def State.hubWrite (s : State) (a n v : Nat) : State :=
  let s := s.pokeNum a n v
  wakeRecords s ((s.waiting.filter fun w => watchAt s w.on a n && watchMet s w.on).map fun w => (w, 2, none))

/-- Hardware writes bytes of an object as it acts for the scheduler (R293), and records that watch a word there may wake (R321). -/
def State.frameWrite (s : State) (obj : Nat) (data : List (Nat × Byte)) : State :=
  let s := putBytes s obj 0 data
  wakeRecords s ((s.waiting.filter fun w => watchHit w.on obj (data.map (·.1)) && watchMet s w.on).map fun w => (w, 2, none))

/-- Wakes the records whose watched word has become unreadable (R322), CAUSE 4. -/
def sweepWatches (s : State) : State :=
  wakeRecords s ((s.waiting.filter fun w => !watchReadable s w.on).map fun w => (w, 4, none))

/-- The base address of the pasture table (Table 22.6). -/
def State.ptabBase (s : State) : Nat := bits (s.tab 1 s.ptab) 0 60 / 4096 * 4096

/-- A counter of the health page (Table 25.7) counts, saturating, and the page shows it (R414). -/
def State.bump (s : State) (off n : Nat) : State :=
  let v := min (2 ^ 64 - 1) ((sget 0 s.health off).toNat + n)
  ({ s with health := sput 0 s.health off (BitVec.ofNat 64 v) } : State).hubWrite (s.ptabBase + 0xE8000 + off) 8 v

/-- The health page shows every count that is kept (R414). -/
def State.showHealth (s : State) : State := s.health.foldl (fun s h => s.pokeNum (s.ptabBase + 0xE8000 + h.1) 8 h.2.toNat) s

/-! ### Reads through the porch (R220, R273) -/

/-- The object that a held write writes. -/
def Held.obj (h : Held) : Nat := match h.op with
  | .other o _ => o
  | _ => h.cap.obj

/-- The byte that a held write holds for an object offset: the last one where it holds several (R245). -/
def Held.byteAt (h : Held) (obj o : Nat) : Option Byte :=
  if h.obj != obj then none else
    match h.op with
    | .bytes d | .tile d | .other _ d | .part d _ _ _ _ => d.foldl (fun b x => if x.1 = o then some x.2 else b) none
    | .cap k => if h.cap.base + h.off ≤ o ∧ o < h.cap.base + h.off + 16 then
        some (BitVec.ofNat 8 (k.val.toNat / 256 ^ (o - (h.cap.base + h.off)))) else none
    | _ => none

/-- The bytes that a held write writes on the package, by object offset. -/
def Held.spans (h : Held) : List (Nat × Nat) := match h.op with
  | .bytes d | .tile d | .part d _ _ _ _ | .other _ d => runsOf (d.map (·.1))
  | .elems _ d => runsOf (d.flatMap fun x => (List.range 4).map (x.1 + ·))
  | .spawn _ | .arrive _ _ | .wake _ _ | .remote _ _ _ _ _ _ _ _ => []
  | _ => [(h.cap.base + h.off, h.len)]
/-- The bytes that a held write touches, those of a remote row too. -/
def Held.touches (h : Held) : List (Nat × Nat) := match h.op with
  | .remote _ _ _ _ _ _ _ d => [(h.cap.base + h.off, d.length)]
  | _ => h.spans

/-- A held write as an act of the perform order, with a number that no act has. -/
def Held.act (h : Held) (core : Nat) (c : Ctx) (id : Nat) : Act :=
  { readAct core c h.slot h.path h.cls 0 0 0 with
    id := id, prog := (c.segment, h.pos, h.slot.idx), scope := h.scope, held := true, tile := h.tile, kind := .write h.rel }

/-- How a held write stands to an access that reads a byte of it: seen for certain, never, or either (R220, R271, R273). -/
inductive Seen | new | old | either
  deriving DecidableEq, Repr

/-- The held writes of a context as acts, all of one write under one number, after those of the perform order. -/
def porchActs (s : State) (core : Nat) (c : Ctx) : List Act :=
  c.porch.zipIdx.flatMap fun h =>
    let a := h.1.act core c (s.acts.length + h.2)
    if h.1.touches.isEmpty then [a] else h.1.touches.map fun sp => { a with obj := h.1.obj, off := sp.1, len := sp.2 }

/-- How a held write, the porch's number `i`, stands to a read of its context on a common byte: seen where local order puts it first, not where local order
puts it after (R271); else either (R273). -/
def heldSeen (s : State) (core : Nat) (c : Ctx) (i : Nat) (obj o : Nat) (r : Act) : Seen :=
  let n := s.acts.length
  let r := { r with id := n + c.porch.length, obj := obj, off := o, len := 1 }
  let held := porchActs s core c
  let l := r :: held ++ s.segActs core c
  match held.find? fun w => w.id == n + i with
  | none => .either
  | some w => if localOrder l w r then .new else if localOrder l r w then .old else .either

/-- One byte at the point of order as a party reads it. In a scope race that is open it is as it stood at some moment of the perform order, or as it
will stand at a later one, which is free (R277; log 84): the same moment for all of a single-copy atomic unit, which the key names. -/
def partyByte (s : State) (obj key o salt : Nat) : Byte :=
  let now := locByte s obj o salt
  if s.raced obj o then
    let m := s.pickAt 5010 (obj + 2 ^ 24 * key) salt % (s.acts.length + 2)
    if m ≤ s.acts.length then s.byteThen m obj o now else BitVec.ofNat 8 (s.pickAt 5011 (obj + 2 ^ 24 * o) salt)
  else now
/-- The bytes of a unit at the point of order as a party reads them. -/
def partyBytes (s : State) (obj o n salt : Nat) : List Byte := (List.range n).map fun i => partyByte s obj o (o + i) salt

/-- Whether an access of the context sees a held write on a byte: where local order does not relate them, free for each of the write's own units
(R217, R273) within the element read, which begins at offset `el`. -/
def seesHeld (s : State) (core : Nat) (c : Ctx) (r : Act) (h : Held × Nat) (obj el o : Nat) : Bool :=
  match heldSeen s core c h.2 obj o r with
  | .new => true
  | .old => false
  | .either => s.pickAt 5000 (obj + 2 ^ 24 * (if h.1.unit = 0 then el else max el (o / h.1.unit * h.1.unit))) h.2 % 2 == 1

/-- A byte as an access of the context reads it: of the newest held write that it sees, or of memory (R220). -/
def porchByte (s : State) (core : Nat) (c : Ctx) (r : Act) (obj el o salt : Nat) : Byte :=
  (c.porch.zipIdx.foldl (fun b h => match h.1.byteAt obj o with
    | some x => if seesHeld s core c r h obj el o then x else b
    | none => b) (partyByte s obj el o salt))

/-- The bytes of a single-copy atomic unit as an access of the context reads them. -/
def readBytes (s : State) (core : Nat) (c : Ctx) (r : Act) (obj o n salt : Nat) : List Byte :=
  (List.range n).map fun i => porchByte s core c r obj o (o + i) salt

/-- The tag of a block as the context's own access reads it: the porch keeps one for each block it holds (R367). -/
def porchTag (s : State) (core : Nat) (c : Ctx) (r : Act) (obj o salt : Nat) : Bool :=
  let blk := fun x => x / 16 == o / 16
  carriesTag s obj o salt &&
    c.porch.zipIdx.foldl (fun t h =>
      if h.1.obj != obj || !seesHeld s core c r h obj o o then t else
        match h.1.op with
        | .cap k => if blk (h.1.cap.base + h.1.off) then k.tag else t
        | .bytes d | .tile d | .other _ d | .part d _ _ _ _ => if d.any fun x => blk x.1 then false else t
        | _ => t) (locTag s obj o salt)

/-! ### Reads of several units (R217, R269) -/

/-- A single-copy atomic unit of a read: its offset, its length, and once it has been read its bytes as a number plus 1. -/
abbrev RUnit := Nat × Nat × Nat

/-- The units of an element: the element where it is aligned, else each byte (Table 15.2). -/
def unitsAt (aligned : Bool) (o n : Nat) : List RUnit := if aligned then [(o, n, 0)] else (List.range n).map fun i => (o + i, 1, 0)
/-- Units as an operation keeps them while it waits. -/
def unitsFlat (l : List RUnit) : List Nat := l.flatMap fun u => [u.1, u.2.1, u.2.2]
/-- Units that an operation has kept. -/
def unitsFrom : List Nat → List RUnit
  | o :: n :: v :: t => (o, n, v) :: unitsFrom t
  | _ => []
/-- Whether every unit has been read. -/
def unitsRead (l : List RUnit) : Bool := l.all fun u => u.2.2 != 0
/-- The bytes of units that have been read. -/
def unitsBytes (l : List RUnit) : List Byte := l.flatMap fun u => toBytes u.2.1 (u.2.2 - 1)

/-- One of some choices that are left open: free where there is more than one (log 4). -/
def State.chooses (s : State) (tag a n : Nat) : Nat := if n ≤ 1 then 0 else s.pickAt tag a 0 % n

/-- So many of some choices that are left open. -/
def State.chooseSome {α : Type} [BEq α] (s : State) (tag : Nat) : Nat → List α → List α
  | 0, _ => []
  | k + 1, l => match l[s.chooses tag k l.length]? with
    | some x => x :: s.chooseSome tag k (l.erase x)
    | none => []

/-- Units of a read perform: all that are left, but where an input makes the read pause before them (log 11); none whose fill a controller
holds (R15). -/
def readUnits (s : State) (core : Nat) (c : Ctx) (r : Act) (salt : Nat) (l : List RUnit) : State × List RUnit :=
  let s := (l.filter (·.2.2 == 0)).foldl (fun t u => holdFills t r.obj u.1 u.2.1 salt) s
  let todo := l.filter fun u => u.2.2 == 0 && !fillHeld s r.obj u.1 u.2.1 salt
  let pauses := decide (0 < s.pause) && decide (s.pause < todo.length)
  let now := if pauses then s.chooseSome 5020 s.pause todo else todo
  let t := now.foldl (fun t u => fillSpan t r.obj u.1 u.2.1 salt) s
  let t := (runsOf (now.flatMap fun u => (List.range u.2.1).map (u.1 + ·))).foldl (fun t x => t.recordRead { r with off := x.1, len := x.2 }) t
  let l := l.map fun u => if u.2.2 == 0 && now.contains u then (u.1, u.2.1, ofBytes (readBytes t core c r r.obj u.1 u.2.1 salt) + 1) else u
  ({ t with pause := if pauses then 0 else t.pause - now.length }, l)

end Sys2Proof.Machine
end

