-- ==== Sys2Proof/Machine/Pens.lean ====
section
/-! DEFINITION. Pasture descriptors (R294, R295), return lanes (R293), pens as they are mapped and released (R297), and what follows a write of
bytes in the same event. -/

namespace Sys2Proof.Machine
open Sys2Proof

/-! ### Pasture descriptors (Table 17.3) -/

/-- The address of a pasture's descriptor. -/
def State.pastureAddr (s : State) (p : Nat) : Nat := s.ptabBase + 64 * p
/-- A descriptor, byte 0 least significant. -/
def State.pasture (s : State) (p : Nat) : BitVec 512 := BitVec.ofNat 512 (s.num (s.pastureAddr p) 64)
/-- RING: the object. -/
def ringObj (d : BitVec 512) : Nat := bits d 40 24
/-- RING: the offset. -/
def ringOff (d : BitVec 512) : Nat := bits d 0 40
/-- LOGN. -/
def logn (d : BitVec 512) : Nat := bits d 64 8
/-- RESV. -/
def resv (d : BitVec 512) : Nat := bits d 96 32
/-- TAIL. -/
def tailOf (d : BitVec 512) : Nat := bits d 128 64
/-- HEAD. -/
def headOf (d : BitVec 512) : Nat := bits d 192 64
/-- PADDOCK. -/
def pastPaddock (d : BitVec 512) : Nat := bits d 256 16
/-- PRIO. -/
def pastPrio (d : BitVec 512) : Nat := bits d 272 3
/-- WEIGHT. -/
def pastWeight (d : BitVec 512) : Nat := bits d 280 8
/-- CMASK. -/
def pastCmask (d : BitVec 512) : Nat := bits d 288 6
/-- STALL. -/
def pastStall (d : BitVec 512) : Bool := d.getLsbD 297
/-- VALID, with the fields that make a descriptor count as invalid (R294). DESIGN CHOICE: a RING offset that is no multiple of 64, which Table 17.3 demands and
R294's list does not name, counts as one of them too (log 94). -/
def pastValid (d : BitVec 512) : Bool :=
  d.getLsbD 296 && decide (4 ≤ logn d) && decide (logn d ≤ 20) && pastWeight d != 0 && bits d 72 24 == 0 && bits d 275 5 == 0
    && bits d 294 2 == 0 && bits d 298 6 == 0 && bits d 304 16 == 0 && bits d 448 64 == 0 && ringOff d % 64 == 0
/-- The records in a ring: none where TAIL − HEAD is 2⁶³ or more (R295). -/
def ringCount (d : BitVec 512) : Nat :=
  let n := (tailOf d + 2 ^ 64 - headOf d) % 2 ^ 64
  if 2 ^ 63 ≤ n then 0 else n
/-- Whether a ring has room for one more reservation (R319). -/
def ringRoom (d : BitVec 512) : Bool := decide ((tailOf d + 2 ^ 64 - headOf d) % 2 ^ 64 + resv d < 2 ^ logn d)
/-- Record i of a ring: its object offset. -/
def ringSlot (d : BitVec 512) (i : Nat) : Nat := ringOff d + 64 * (i % 2 ^ logn d)

/-- Writes RESV. -/
def setResv (s : State) (p v : Nat) : State := s.hubWrite (s.pastureAddr p + 12) 4 v
/-- Reserves a slot (R319). -/
def reserveSlot (s : State) (p : Nat) : State := setResv s p (resv (s.pasture p) + 1)
/-- Releases reserved slots (R319, R234). -/
def releaseSlots (s : State) (l : List Nat) : State := l.foldl (fun s p => setResv s p (resv (s.pasture p) - 1)) s

/-! ### Return lanes (R293) -/

/-- The return lane of a pasture. -/
def State.lane (s : State) (p : Nat) : List LaneEnt := sget [] s.lanes p

/-- A frame as RETLANE and LINK name it: the object in [63:40] and the offset in [39:0]. DESIGN CHOICE: the spec gives the two fields no layout, and the
model reads neither (log 17). -/
def LaneEnt.ref (e : LaneEnt) : Nat := e.frameObj * 2 ^ 40 + e.frameOff

/-- LINK of a frame that a return lane links. -/
def setLink (s : State) (e : LaneEnt) (v : Nat) : State :=
  if saveArea s e.frameObj e.frameOff 1024 = .gone then s else s.frameWrite e.frameObj (atOffsets (e.frameOff + 72) (toBytes 8 v))

/-- Replaces a return lane; RETLANE shows its head and tail, zero where it is empty. -/
def State.setLane (s : State) (p : Nat) (l : List LaneEnt) : State :=
  let s : State := { s with lanes := sput [] s.lanes p l }
  (s.hubWrite (s.pastureAddr p + 40) 8 (l.head?.elim 0 (·.ref))).hubWrite (s.pastureAddr p + 48) 8 (l.getLast?.elim 0 (·.ref))

/-- A record enters a return lane at its tail, linked through the frames. -/
def State.pushLane (s : State) (p : Nat) (e : LaneEnt) : State :=
  let l := s.lane p
  let s := match l.getLast? with
    | some x => setLink s x e.ref
    | none => s
  (setLink s e 0).setLane p (l ++ [e])

/-! ### Pens and pastures (R294 to R298) -/

/-- A FREE pen. -/
def Pen.initial : Pen := ⟨none, 0, 0, 0, []⟩
/-- A pen of a cluster. -/
def State.pen (s : State) (cl n : Nat) : Pen := sget Pen.initial s.pens (32 * cl + n)
/-- Replaces a pen. -/
def State.setPen (s : State) (cl n : Nat) (p : Pen) : State := { s with pens := sput Pen.initial s.pens (32 * cl + n) p }

/-- Whether a pasture is eligible for a cluster (R297): its descriptor serves it, and its ring, once a write of TAIL has made it count (R296, log 28),
or its return lane holds a record. -/
def eligible (s : State) (cl p : Nat) : Bool :=
  let d := s.pasture p
  decide (p < 4096) && pastValid d && !pastStall d && (pastCmask d).testBit cl
    && ((s.counted.contains p && ringCount d != 0) || !(s.lane p).isEmpty)

/-- The pen of a cluster that serves a pasture. -/
def serving (s : State) (cl p : Nat) : Option Nat := (List.range 32).find? fun n => (s.pen cl n).pasture == some p

/-- A pasture takes its place in the waiting order of each cluster where it is eligible and without a pen (R297). -/
def joinOrder (s : State) (p : Nat) : State :=
  { s with order := s.order ++ ((List.range 6).filter fun cl =>
      eligible s cl p && (serving s cl p).isNone && !s.order.contains (cl, p)).map fun cl => (cl, p) }

/-- A buffered record as it goes back to its return lane. -/
def Buffered.toLane (b : Buffered) : LaneEnt :=
  ⟨b.record.frameObj, b.record.frameOff, if b.fromLane then none else some (b.record, b.source)⟩

/-- Releases a pen: its records go to the tail of the return lane in buffer order (R297). -/
def releasePen (s : State) (cl n : Nat) : State :=
  match (s.pen cl n).pasture with
  | none => s
  | some p => joinOrder ((s.pen cl n).buf.foldl (fun s b => s.pushLane p b.toLane) (s.setPen cl n Pen.initial)) p

/-- What follows a change of pastures at once (R294, R297): a pen whose pasture is not valid is released, and so is one whose pasture is not eligible
and whose buffer is empty; pastures that are not eligible leave the order; a ring that is empty counts no more. -/
def sweepPens (s : State) : State :=
  let s := (s.pens.filter fun e => e.2.pasture.any fun p => !pastValid (s.pasture p)).foldl (fun s e => releasePen s (e.1 / 32) (e.1 % 32)) s
  let s := { s with counted := s.counted.filter fun p => ringCount (s.pasture p) != 0 }
  let s := { s with pens := s.pens.filter fun e => match e.2.pasture with
    | some p => !e.2.buf.isEmpty || eligible s (e.1 / 32) p
    | none => false }
  { s with order := s.order.filter fun x => eligible s x.1 x.2 }

/-! ### What a write brings with it -/

/-- The address of a cluster's pinfold ring (R399). -/
def State.pinfold (s : State) (cl : Nat) : Nat := s.ptabBase + 0x88000 + 65536 * cl

/-- The pastures whose descriptors some addresses lie in. -/
def pasturesAt (s : State) (addrs : List Nat) : List Nat :=
  ((addrs.filter fun a => decide (s.ptabBase ≤ a) && decide (a < s.ptabBase + 0x40000)).map fun a => (a - s.ptabBase) / 64).eraseDups

/-- The pastures whose TAIL word a write touches (R296): the write's addresses. -/
def tailsHit (s : State) (addrs : List Nat) : List Nat :=
  (addrs.filter fun a => decide (s.ptabBase ≤ a) && decide (a < s.ptabBase + 0x40000)
    && decide (16 ≤ (a - s.ptabBase) % 64) && decide ((a - s.ptabBase) % 64 < 24)).map (fun a => (a - s.ptabBase) / 64) |>.eraseDups

/-- A write of TAIL is seen (R296). -/
def State.seeTail (s : State) (p : Nat) : State := { s with tailsSeen := if s.tailsSeen.contains p then s.tailsSeen else s.tailsSeen ++ [p] }

/-- The clusters whose pinfold WAKE word a write touches (R399): the write's addresses. -/
def wakesHit (s : State) (addrs : List Nat) : List Nat :=
  (List.range 6).filter fun cl => addrs.any fun a => decide (s.pinfold cl + 8 ≤ a) && decide (a < s.pinfold cl + 16)

/-- A write of WAKE is seen (R401). -/
def State.seeWake (s : State) (cl : Nat) : State := { s with wakesSeen := if s.wakesSeen.contains cl then s.wakesSeen else s.wakesSeen ++ [cl] }

/-- The address of an entry of a pinfold ring (R399). -/
def State.pinEntry (s : State) (cl seq : Nat) : Nat := s.pinfold cl + 64 * (1 + seq % 1023)

/-- The pager resolves a pending entry by a write of its STATE that leaves 1 or 2; any other write of it has no effect on resumption (R401). -/
def pinAnswers (s : State) (addrs : List Nat) : State :=
  { s with waiting := s.waiting.map fun w => match w.on with
      | .pinfold cl seq prio 0 =>
        let a := s.pinEntry cl seq + 13
        let v := (s.byte a).toNat
        if addrs.contains a && (v == 1 || v == 2) then { w with on := .pinfold cl seq prio v } else w
      | _ => w }

/-- What follows a write of bytes of an object in the same event: watches that it meets wake (R321), tail and WAKE words and the STATE of pinfold entries are
seen (R296, R401), pastures whose descriptors it changes take or leave their places (R297), and watched words that it made unreadable wake without
cause (R322). -/
def afterWrite (s : State) (obj : Nat) (offs : List Nat) (salt : Nat) : State :=
  let s := wakeRecords s ((s.waiting.filter fun w => watchHit w.on obj offs && watchMet s w.on).map fun w => (w, 2, none))
  let addrs := if isLocal obj then [] else offs.map fun o => locAddr s obj o salt
  let s := pinAnswers s addrs
  let ps := pasturesAt s addrs
  let s := (wakesHit s addrs).foldl State.seeWake ((tailsHit s addrs).foldl State.seeTail s)
  sweepWatches (if ps.isEmpty then s else ps.foldl joinOrder (sweepPens s))

end Sys2Proof.Machine
end

