-- ==== Sys2Proof/Machine/Slice.lean ====
section
/-! DEFINITION. The L2 slices and the controllers behind them: write-backs, the write queues, the Cellar stacks and their shared blocks
(R192, R196, R210, R280, R281, R381, R415 to R417), lost pages (R407), and the events that perform a write. -/

namespace Sys2Proof.Machine
open Sys2Proof

/-! ### Lost pages (R407) -/

/-- The health page's counts of pages lost, regions lost, segments replayed and contexts killed (Table 25.7). -/
def countLostPages : Nat := 0x1C0
/-- Regions lost. -/
def countLostRegions : Nat := 0x1C8
/-- Segments replayed. -/
def countReplays : Nat := 0x1D0
/-- Contexts killed for errors. -/
def countKills : Nat := 0x1D8

/-- Writes a page entry where the walk finds it. -/
def setPageEnt (s : State) (e : ObjEnt) (off : Nat) (pe : PageEnt) : State := match s.pageAddr e off with
  | some a => s.pokeNum a 8 pe.toNat
  | none => s

/-- Wakes, without cause, the records that watch a word of an object in a span (R322). -/
def wakeSpan (s : State) (obj o n : Nat) : State :=
  wakeRecords s ((s.waiting.filter fun w => match w.on with
    | .word k _ _ _ x y _ _ => x == obj && decide (y < o + n) && decide (o < y + k)
    | _ => false).map fun w => (w, 4, none))

/-- A PAGE IS MARKED LOST (R407), in one event: its entry takes the lost form, no cache keeps it, and every line of the page is
invalidated without write-back; watches of its words wake (R322). -/
def markLost (s : State) (obj off : Nat) : State :=
  let e := s.objEnt obj
  let pg := off / e.page * e.page
  let s := setPageEnt s e pg lostForm
  let s := { s with
    xlat := s.xlat.filter fun x => !(x.obj == obj && x.page == some (pg / e.page))
    lines := s.lines.filter fun l => !(l.obj == obj && l.page e == pg) }
  sweepWatches ((s.bump countLostPages 1).logBody 3 0 7 [0, obj, pg])

/-! ### Cellar stacks (R210, R381, R414 to R417) -/

/-- The count at which a block is pinned (R417). -/
def pinnedCount : Nat := 65535
/-- The bytes of a shared block. -/
def blockBytes : Nat := 65536

/-- The programmed block that some 64 KiB of a stack's stored bytes refers to. -/
def Cellar.blockAt (c : Cellar) (b : Nat) : Option Block := c.blocks.find? fun k => k.id + 1 == sget 0 c.refs b

/-- A reference goes: the count falls by one unless the block is pinned; a block at count 0 is freed (R417). -/
def Cellar.release (c : Cellar) (b : Nat) : Cellar :=
  { c with
    blocks := (c.blocks.map fun k => if k.id + 1 = sget 0 c.refs b ∧ k.count ≠ pinnedCount then { k with count := k.count - 1 } else k).filter
      fun k => k.count != 0
    refs := sput 0 c.refs b 0 }

/-- A block is programmed for some 64 KiB of stored bytes, with the hash and the bytes that it is indexed by where it is. -/
def Cellar.programBlock (c : Cellar) (b : Nat) (hash : Option Nat) (data : List Byte) : Cellar :=
  { c with blocks := c.blocks ++ [⟨c.nextBlock, hash, 1, data⟩], refs := sput 0 c.refs b (c.nextBlock + 1), nextBlock := c.nextBlock + 1 }

/-- 64 KiB of stored bytes refers to a block that is there; a pinned count stays (R417). -/
def Cellar.share (c : Cellar) (b id : Nat) : Cellar :=
  { c with
    blocks := c.blocks.map fun k => if k.id = id then { k with count := min pinnedCount (k.count + 1) } else k
    refs := sput 0 c.refs b (id + 1) }

/-- A BLOCK IS PROGRAMMED WHOLE (R417): it shares an indexed block of the same hash and the same bytes, or is programmed separately; with the
bytes actually programmed. -/
def Cellar.writeWhole (c : Cellar) (b : Nat) (data : List Byte) : Cellar × Nat :=
  let hash := digest data
  match c.blocks.find? fun k => k.hash == some hash && k.data == data with
  | some k => if (c.blockAt b).any fun x => x.id == k.id then (c, 0) else ((c.release b).share b k.id, 0)
  | none => ((c.release b).programBlock b (some hash) data, blockBytes)

/-- A PART OF A BLOCK IS WRITTEN, `n` bytes (R417): a shared one gets a private copy first; with the bytes actually programmed. -/
def Cellar.writePart (c : Cellar) (b n : Nat) : Cellar × Nat :=
  match c.blockAt b with
  | none => (c, n)
  | some k =>
    if 1 < k.count then ((c.release b).programBlock b none [], blockBytes + n)
    else ({ c with blocks := c.blocks.map fun x => if x.id = k.id then { x with hash := none, data := [] } else x }, n)

/-- The numbers of the 64 KiB blocks that hold a byte of some spans. -/
def blocksIn (sp : List (Nat × Nat)) : List Nat :=
  (sp.flatMap fun x => (List.range ((x.1 + x.2 - 1) / blockBytes - x.1 / blockBytes + 1)).map fun j => x.1 / blockBytes + j).eraseDups

/-- A Cellar stack programs spans of stored bytes, which memory holds already: whole blocks where one span covers one, else its bursts. -/
def Cellar.write (c : Cellar) (rd : Nat → List Byte) (sp : List (Nat × Nat)) : Cellar × Nat :=
  (blocksIn sp).foldl (fun r b =>
    let a := b * blockBytes
    let x := if sp.any fun x => decide (x.1 ≤ a) && decide (a + blockBytes ≤ x.1 + x.2) then r.1.writeWhole b (rd a)
      else r.1.writePart b (64 * (burstsIn (sp.filter (meets (a, blockBytes)))).countP (fun u => u * 64 / blockBytes == b))
    (x.1, r.2 + x.2)) (c, 0)

/-- The health page shows a stack's entry (Table 25.8). -/
def showCellar (s : State) (k : Nat) : State :=
  let c := s.cellar k
  let sat := fun n v : Nat => min (2 ^ n - 1) v
  s.hubWrite (s.ptabBase + 0xE8000 + 0x200 + 64 * k) 64
    (c.state % 16 + 2 ^ 176 * sat 16 c.wearmax + 2 ^ 192 * sat 16 c.wear + 2 ^ 208 * sat 16 c.spare
      + 2 ^ 224 * sat 32 (c.blocks.countP fun b => b.count == pinnedCount) + 2 ^ 256 * sat 32 (c.blocks.countP fun b => decide (1 < b.count))
      + 2 ^ 288 * sat 32 c.badblk + 2 ^ 320 * sat 64 (c.prog / 2 ^ 20) + 2 ^ 384 * sat 64 c.reloc + 2 ^ 448 * sat 64 c.uncorr)

/-- A stack's counts change, and the health page shows it; a move of STATE is recorded (R415). -/
def changeCellar (s : State) (k : Nat) (f : Cellar → Cellar) : State :=
  let old := s.cellar k
  let s := showCellar (s.setCellar k (f old)) k
  if (f old).state = old.state then s else s.logBody 5 k 6 [k, (f old).state, (f old).spare]

/-- The bytes that a stack may program in a slice: 85⅓ GiB (R381). -/
def sliceCap : Nat := 2 ^ 41 / 24

/-- A Cellar stack's controller holds further bytes to program (R15, R309): it has spent its count for the interval, or holds earlier write-backs. -/
def State.spentWrites (s : State) (k : Nat) : Bool := s.arbiter.writes[k]? == some 0 || s.arbiter.held.any fun r => r.dev == 8 + k && r.write

/-- The bytes of a flash page that spans of stored bytes hold, as a mask. -/
def flashMask (f : Nat) (sp : List (Nat × Nat)) : BitVec 16384 :=
  sp.foldl (fun m x =>
    let lo := max x.1 (f * flashPage)
    let hi := min (x.1 + x.2) ((f + 1) * flashPage)
    if lo < hi then m ||| BitVec.ofNat 16384 ((2 ^ (hi - lo) - 1) * 2 ^ (lo - f * flashPage)) else m) 0

/-- Spans of stored bytes are programmed: the failing flash pages note which of their bytes are, and one whose every byte has been programmed since it
failed fails no more (R416). -/
def Cellar.mend (c : Cellar) (sp : List (Nat × Nat)) : Cellar :=
  let got := fun f : Nat => sget 0 c.mended f ||| flashMask f sp
  let left := c.failed.filter fun f => got f != BitVec.allOnes 16384
  { c with failed := left, mended := left.foldl (fun t f => sput 0 t f (got f)) [] }

/-- Stored bytes in spans, as they stand, are programmed on a Cellar stack (R210, R381, R416, R417): none where the slice's cap or the
interval's count makes them wait. -/
def programSpans (s : State) (k : Nat) (sp : List (Nat × Nat)) : Option State :=
  let r := (s.cellar k).write (fun a => s.bytes a blockBytes) sp
  if s.spentWrites k || decide (sliceCap < r.1.slice + r.2) then none
  else
    let s := { s with arbiter := { s.arbiter with writes := s.arbiter.writes.set k (s.arbiter.writes.getD k 0 - r.2) } }
    some (changeCellar s k fun _ => { r.1.mend sp with prog := r.1.prog + r.2, slice := r.1.slice + r.2 })

/-! ### Write-backs (R192, R196, R210, R280, R281) -/

/-- The entries of a write queue (R280). -/
def queueEntries : Nat := 64

/-- The entries of one write queue. -/
def State.queueLength (s : State) (dev ch : Nat) : Nat := (s.writeQ.filter fun q => q.stack == dev && q.chan == ch).length

/-- Whether the write queues of a stack that some bursts need are not full (R281). -/
def queueRoom (s : State) (dev : Nat) (bursts : List Nat) : Bool :=
  bursts.all fun a => decide (s.queueLength dev (Config.pseudoChannel dev (64 * a)) < queueEntries)

/-- Takes the first entries of a list that pass a test, so many of them: those, and what is left. -/
def takeSome {α : Type} (p : α → Bool) : Nat → List α → List α × List α
  | 0, l => ([], l)
  | _, [] => ([], [])
  | k + 1, x :: t =>
    if p x then ((x :: (takeSome p k t).1), (takeSome p k t).2) else ((takeSome p (k + 1) t).1, x :: (takeSome p (k + 1) t).2)

/-- A drain batch of a write queue (R281): its oldest entries are applied until 16 are left. -/
def State.drainBatch (s : State) (dev ch : Nat) : State :=
  let r := takeSome (fun q : Burst => q.stack == dev && q.chan == ch) (s.queueLength dev ch - 16) s.writeQ
  { s with mem := r.1.foldl Burst.apply s.mem, writeQ := r.2 }

/-- A burst enters its write queue (R280). The drain that began at 48 entries has run where the queue is full (R281, log 22). -/
def acceptBurst (s : State) (b : Burst) : State :=
  let s := if s.queueLength b.stack b.chan < queueEntries then s else s.drainBatch b.stack b.chan
  { s with writeQ := s.writeQ ++ [b] }

/-- The entry of a burst (R280): the bytes as a state has them, and the mask of those that the spans hold. -/
def burstOf (s : State) (sp : List (Nat × Nat)) (dev a : Nat) : Burst :=
  { stack := dev, chan := Config.pseudoChannel dev (64 * a), addr := 64 * a, data := BitVec.ofNat 512 (s.num (64 * a) 64)
    mask := BitVec.ofNat 64 ((List.range 64).foldl (fun m i => if sp.any (meets (64 * a + i, 1)) then m + 2 ^ i else m) 0) }

/-- The blocks of 2 KiB that hold a byte of some spans (R196). -/
def comprBlocks (sp : List (Nat × Nat)) : List Nat := (burstsIn sp).map (· / 32) |>.eraseDups

/-- The compression states of blocks of a compressed page that are written: all zero, or the smallest that holds the block, which is free
(R196, log 12). -/
def setCompr (s : State) (blocks : List Nat) : State :=
  blocks.foldl (fun s b =>
    let zero := (s.bytes (2048 * b) 2048).all (· == 0)
    { s with compr := sput 0 s.compr b (if zero then 3 else BitVec.ofNat 2 (s.pickAt 8705 b 0 % 3)) }) s

/-- Wakes the records whose watched words a merge has changed and which now meet their conditions (R195, R321). -/
def wakeChanged (old s : State) : State :=
  wakeRecords s ((s.waiting.filter fun w => match w.on with
    | .word n _ _ _ obj off _ _ => locBytes old obj off n 0 != locBytes s obj off n 0 && watchMet s w.on
    | _ => false).map fun w => (w, 2, none))

/-- Whether a line's page can take it: the line stands at the page's home, and the page is resident in a legal format (R183, R209, R211). -/
def lineGoes (e : ObjEnt) (pe : PageEnt) (l : Line) : Bool :=
  e.valid && pe.resident e.page && pe.pairOk && l.home == pe.home l.obj (256 * l.line)

/-- The delivered bytes of the encoding units that a line holds a part of: its own, or its GQ4 group's. -/
def unitSpan (e : ObjEnt) (pe : PageEnt) (l : Line) : Nat × Nat :=
  let n := if pe.sf = 12 then 16384 * (codeBits pe.df / 8) else 256
  (l.page e + (256 * l.line - l.page e) / n * n, n)

/-- Whether writes that R194 has checked have still to perform in the units of a line of a page with the fault policy: the rest of a commit, or the rows of a
command of which one has performed. Their write-back waits, so that it holds no partial unit (R193). -/
def writesDue (s : State) (e : ObjEnt) (pe : PageEnt) (l : Line) : Bool :=
  pe.converts && pe.pbp && s.cores.any fun x =>
    (x.2.ctx.any fun c => c.porch.any fun h => (h.due || !h.cover.isEmpty) && h.obj == l.obj && h.spans.any (meets (unitSpan e pe l)))
      || x.2.cp.any fun y => y.held && y.spans.any fun p => p.1 == l.obj && meets (unitSpan e pe l) (p.2.1, p.2.2)

/-- A LINE GOES BACK TO ITS STACK (R192): its bursts into the write queues of HBM (R280), or its bytes to the Cellar's translation layer (R210,
R417); with whether it did. One that must wait stays (R15, R193, R281, R381), and a controller that has spent its count holds it (R309). A Cellar
stack that takes no writes refuses it, and the page is lost (R416). -/
def sendLine (s : State) (e : ObjEnt) (pe : PageEnt) (l : Line) : State × Bool :=
  let dev := deviceOf pe.base
  let r := writeBackLine s e pe l
  let sp := r.2.1
  let bursts := burstsIn sp
  let held := s.holdReq ⟨dev, l.obj, 256 * l.line, true⟩
  if writesDue s e pe l then (s, false)
  else if dev < 8 then
    -- a merge, and a compressed page's block, is read first
    let rd := r.2.2 ++ if pe.cmp then (comprBlocks sp).map fun b => (2048 * b, 2048) else []
    if s.spent dev then (held, false)
    else if !queueRoom s dev bursts then (s, false)
    else
      let s' := (s.serveRead rd).spend dev (64 * (bursts.length + (burstsIn rd).length))
      let t := if pe.cmp then setCompr r.1 (comprBlocks sp) else r.1
      let q := (bursts.map (burstOf r.1 sp dev)).foldl acceptBurst s'
      (wakeChanged s { t with mem := q.mem, arbiter := q.arbiter, writeQ := q.writeQ }, true)
  else if 2 ≤ (s.cellar (dev - 8)).state then (markLost s l.obj (256 * l.line), true)
  else if s.spent dev && !r.2.2.isEmpty || s.spentWrites (dev - 8) then (held, false)
  else match programSpans r.1 (dev - 8) sp with
    | some t => (wakeChanged s (t.spend dev (64 * (burstsIn r.2.2).length)), true)
    | none => (s, false)

/-- The lines that stand dirty in the buffers of their agents are written through as soon as they may (R209). -/
def writeThrough (s : State) : State :=
  (s.lines.filter fun l => l.place == .buffer && l.dirty != 0).foldl (fun s l =>
    let e := s.objEnt l.obj
    let pe := s.pageEnt e (256 * l.line)
    if lineGoes e pe l then (sendLine s e pe l).1 else s) s

/-! ### Writes that perform -/

/-- Writes bytes as one performing event. -/
def performBytes (s : State) (obj salt : Nat) (data : List (Nat × Byte)) : State :=
  writeThrough (afterWrite (putBytes s obj salt data) obj (data.map (·.1)) salt)

/-- Writes bytes as one performing event of an access that leaves no trace in the page entries (R264, R360). -/
def performQuiet (s : State) (obj salt : Nat) (data : List (Nat × Byte)) : State :=
  writeThrough (afterWrite (placeBytes s obj salt false data) obj (data.map (·.1)) salt)

/-! ### Atomics (Table 13.2) -/

/-- The new value of an atomic on a word of `n` bytes. -/
def atomicNew (aop : Nat) (bf2 : Bool) (n old v cmp : Nat) : Nat :=
  let m := 256 ^ n
  let sg := fun x : Nat => signed (8 * n) x
  if aop = 0 then (old + v) % m
  else if aop = 1 then (old + 1) % m
  else if aop = 2 then old &&& v
  else if aop = 3 then old ||| v
  else if aop = 4 then old ^^^ v
  else if aop = 5 then (if sg v < sg old then v else old)
  else if aop = 6 then (if sg old < sg v then v else old)
  else if aop = 7 then min old v
  else if aop = 8 then max old v
  else if aop = 9 then v
  else if aop = 10 then (if old = cmp then v else old)
  else if bf2 then fadd .bf16 (old % 65536) (v % 65536) + 65536 * fadd .bf16 (old / 65536) (v / 65536)
  else fadd .fp32 old v

/-- An atomic at the point of order of its word, as one event (R226): the state after, and the old value. -/
def performAtomic (s : State) (obj o n aop : Nat) (bf2 : Bool) (v cmp salt : Nat) : State × Nat :=
  let s := fillSpan s obj o n salt
  let old := ofBytes (partyBytes s obj o n salt)
  (performBytes s obj salt (atOffsets o (toBytes n (atomicNew aop bf2 n old (v % 256 ^ n) (cmp % 256 ^ n)))), old)

end Sys2Proof.Machine
end

