-- ==== Sys2Proof/Machine/Porch.lean ====
section
/-! DEFINITION. The porch (R232 to R235), folds (R305, R326), the ring slots that spawns take (R318, R319), and the commit. -/

namespace Sys2Proof.Machine
open Sys2Proof

/-! ### Tile entries (Table 2.17) -/

/-- A tile entry. -/
abbrev Tile := BitVec 128
/-- OFFSET. -/
def Tile.offset (t : Tile) : Nat := bits t 0 22
/-- OWNER. -/
def Tile.owner (t : Tile) : Nat := bits t 22 9
/-- SPACE. -/
def Tile.space (t : Tile) : Nat := bits t 31 2
/-- The rows, 1 to 256. -/
def Tile.rows (t : Tile) : Nat := bits t 33 8 + 1
/-- The row bytes, 32 to 512. -/
def Tile.rowBytes (t : Tile) : Nat := 32 * (bits t 41 4 + 1)
/-- The pitch in bytes. -/
def Tile.pitch (t : Tile) : Nat := 32 * bits t 45 12
/-- FMTC. -/
def Tile.fmtc (t : Tile) : Nat := bits t 57 4
/-- The fold, where one is named. -/
def Tile.fold (t : Tile) : Option Nat := if t.getLsbD 74 then some (bits t 64 10) else none
/-- The handle, where one is bound. -/
def Tile.handle (t : Tile) : Option Nat := if t.getLsbD 91 then some (bits t 75 16) else none
/-- STATE. -/
def Tile.state (t : Tile) : Nat := bits t 92 3
/-- ERR. -/
def Tile.err (t : Tile) : Nat := bits t 96 8
/-- The tile's own offset of byte b of its row r. -/
def Tile.at (t : Tile) (r b : Nat) : Nat := t.offset + t.pitch * r + b
/-- One past the footprint's last byte. -/
def Tile.stop (t : Tile) : Nat := t.at (t.rows - 1) t.rowBytes
/-- The object of the tile's space. -/
def Tile.obj (t : Tile) : Nat := (if t.space < 2 then 0xFF8000 else 0xFF9000) + t.owner
/-- The object offset of byte i of the tile's stream: the row bytes of its rows, in order, without the gaps (R167). -/
def Tile.stream (t : Tile) (i : Nat) : Nat := t.at (i / t.rowBytes) (i % t.rowBytes)
/-- The bytes of the stream. -/
def Tile.size (t : Tile) : Nat := t.rows * t.rowBytes

/-- Whether an `mma` of any core that has not read its last operand byte holds a byte of a span of an object (R169). -/
def mmaHolds (s : State) (obj o n : Nat) : Bool :=
  s.cores.any fun x => x.2.mx.any fun m => m.kind == 1 && decide (m.done < m.rows) && m.tiles.any fun t =>
    Tile.obj t == obj && decide (Tile.offset t < o + n) && decide (o < Tile.stop t)

/-! ### Folds (Table 17.5) -/

/-- A fold's state. -/
abbrev Fold := BitVec 128
/-- PENDING. -/
def Fold.pending (f : Fold) : Int := signed 32 (bits f 96 32)
/-- MEMBERS. -/
def Fold.members (f : Fold) : Nat := bits f 80 16
/-- ARRIVED. -/
def Fold.arrived (f : Fold) : Nat := bits f 64 16
/-- ERRS. -/
def Fold.errs (f : Fold) : Bool := f.getLsbD 61
/-- PHASE. -/
def Fold.phase (f : Fold) : Bool := f.getLsbD 60
/-- LVL. -/
def Fold.lvl (f : Fold) : Nat := bits f 57 3
/-- DOMAIN. -/
def Fold.domain (f : Fold) : Nat := bits f 32 16
/-- WAITERS. -/
def Fold.waiters (f : Fold) : Nat := bits f 16 16
/-- VALID. -/
def Fold.valid (f : Fold) : Bool := f.getLsbD 0
/-- The fold with another PENDING. -/
def Fold.setPending (f : Fold) (v : Int) : Fold := setBits f 96 32 (v % 2 ^ 32).toNat

/-- A fold of the hub. -/
def State.fold (s : State) (fid : Nat) : Fold := sget 0 s.folds fid
/-- Replaces a fold's state. -/
def State.setFold (s : State) (fid : Nat) (f : Fold) : State := { s with folds := sput 0 s.folds fid f }

/-- The status word of a wake by a fold (Table 18.1). -/
def foldStatus (fid cause : Nat) : Nat := fid * 65536 + cause

/-- A tile entry with another STATE. -/
def tileState (t : BitVec 128) (st : Nat) : BitVec 128 := setBits t 92 3 st

/-- A fold's completion (R305): PHASE flips, ARRIVED becomes 0, the records parked on the phase that ended return with CAUSE 5, and tiles
that waited for the completion become `READY` (R260). -/
def completeFold (s : State) (fid : Nat) : State :=
  let f := s.fold fid
  let parked := s.waiting.filter fun w => match w.on with | .fold g ph _ => g == fid && ph == f.phase | _ => false
  let f' := setBits (setBits (setBits f 60 1 (b2n (!f.phase))) 64 16 0) 16 16 (f.waiters - parked.length)
  let s := s.setFold fid f'
  let s := wakeRecords s (parked.map fun w => (w, foldStatus fid 5, match w.on with | .fold _ _ i => some i | _ => none))
  { s with cores := s.cores.map fun c => (c.1, { c.2 with
      tiles := (c.2.marks.filter fun m => m.2 == fid).foldl (fun t m => sput 0 t m.1 (tileState (sget 0 t m.1) 2)) c.2.tiles
      marks := c.2.marks.filter fun m => m.2 != fid }) }

/-- Completes a fold at the first moment at which ARRIVED = MEMBERS and PENDING = 0, unless ERRS is set (R305). -/
def settleFold (s : State) (fid : Nat) : State :=
  let f := s.fold fid
  if f.valid && f.arrived == f.members && f.pending == 0 && !f.errs then completeFold s fid else s

/-- The shepherd a fold notice is told to (R390). -/
def foldShepherd (f : Fold) : Nat :=
  if f.lvl = 0 then f.domain / 12 else if f.lvl = 1 then f.domain else if f.lvl = 2 then 3 * f.domain else 0

/-- A notice of a unit (R389, Table 25.9): the fields that do not apply are zero. -/
def noticeOf (s : State) (unit kind core addrObj addrOff : Nat) : TrapEv :=
  { unit := unit, kind := kind, reason := 0, slot := 0, hdr := false, paddock := 0, codeObj := 0, base := 0, deltas := [], frameObj := 0, frameOff := 0,
    addrObj := addrObj, addrOff := addrOff, arg := 0, seq := 0, core := core, time := s.time }

/-- `n` bytes land for a fold (R242, R305): each subtracts 1; the fold completes where PENDING passes 0 with every member arrived; below
−2³¹ it is held with ERRS and the shepherd is told. -/
def landBytes (s : State) (fid n : Nat) : State :=
  let f := s.fold fid
  if !f.valid ∨ n = 0 then s
  else if f.arrived = f.members ∧ 0 < f.pending ∧ f.pending ≤ n ∧ !f.errs then
    let left := n - f.pending.toNat
    let s := completeFold (s.setFold fid (f.setPending 0)) fid
    s.setFold fid ((s.fold fid).setPending (- (left : Int)))
  else if f.pending - n < -(2 ^ 31) then
    (s.setFold fid (setBits (f.setPending (-(2 ^ 31))) 61 1 1)).tell (foldShepherd f) 0 (noticeOf s 3 kFoldNote 0 0 0)
  else settleFold (s.setFold fid (f.setPending (f.pending - n))) fid

/-- An entry of a `FOLDM` (Table 2.13): V, LVL and FID. -/
def foldmEntry (m : Word) (i : Nat) : Bool × Nat × Nat := (m.getLsbD (16 * i + 15), bits m (16 * i + 12) 3, bits m (16 * i) 10)

/-- The lowest `FOLDM` entry that names a fold (R325). -/
def foldmFind (m : Word) (fid : Nat) : Option Nat :=
  (List.range 4).find? fun i => (foldmEntry m i).1 && (foldmEntry m i).2.2 == fid

/-! ### Performing held writes -/

/-- A span of an object that does not cover whole units of a page with the fault policy (R194): the first such offset. -/
def partialUnit (s : State) (obj o n : Nat) : Option Nat :=
  if isLocal obj then none else
    let e := s.seenObj obj 0
    (pagesOf e.page o n).findSome? fun pg =>
      let pe := pageFor s obj e pg 0
      let lo := max o pg
      let hi := min (o + n) (pg + e.page)
      if pe.converts && pe.pbp && pe.tier != 2 && !coversUnits pe (lo - pg) (hi - lo) then some lo else none

/-- A fatal event of the checks of a commit. -/
def atCommit {α : Type} : Except Stop α → Except Stop α
  | .error (.fatal f) => .error (.fatal { f with commit := true })
  | r => r

/-- The checks of a held write at commit or spill (R235): the memory port's, the tier of a spawn's ring (R12), and the partial-block policy
(R194) over all that the write's command writes: for a part of a group drain the group's 256 rows of 1,024 bytes (R254). -/
def heldCheck (s : State) (core : Nat) (c : Ctx) (h : Held) : Except Stop Unit := do
  let w := whoOf core c
  let port := fun obj gen o n wr => atCommit (portCheck s w gen obj o n wr 0)
  let whole := fun (obj : Nat) (l : List (Nat × Nat)) => match (if h.cover.isEmpty then l else h.cover).findSome? fun x => partialUnit s obj x.1 x.2 with
    | some f => .error (.fatal { kind := kFormat, reason := 0, addr := some (obj, f), arg := 0, commit := true })
    | none => .ok ()
  match h.op with
  | .spawn pid =>
    port h.cap.obj (some h.cap.gen) (h.cap.base + h.off) 64 false
    let d := s.pasture pid
    atCommit (tierCheck s core (ringObj d) (ringSlot d (tailOf d)) 64 0)
    atCommit (portCheck s ⟨0, true⟩ none (ringObj d) (ringSlot d (tailOf d)) 64 true 0)
  | .arrive _ _ => .ok ()
  | .remote _ _ _ _ _ _ _ d =>
    port h.cap.obj (some h.cap.gen) (h.cap.base + h.off) d.length true
    whole h.cap.obj [(h.cap.base + h.off, d.length)]
  | .other obj _ => do
    -- R245: check 1 is against the named scratchpad, checks 2 and 3 against the written one
    if h.cap.gen != bits (s.desc h.cap.obj) 0 16 then
      .error (.fatal { kind := kRevoked, reason := 0, addr := some (h.cap.obj, h.cap.base + h.off), arg := 0, commit := true })
    h.spans.forM fun sp => port obj none sp.1 sp.2 true
  | .wake _ _ => port h.cap.obj (some h.cap.gen) (h.cap.base + h.off) h.len false
  | .part _ _ _ _ pitch => do
    h.spans.forM fun sp => port h.cap.obj (some h.cap.gen) sp.1 sp.2 true
    whole h.cap.obj (mergeSpans ((List.range 256).map fun r => (h.cap.base + h.off + r * pitch, 1024)))
  | _ =>
    h.spans.forM fun sp => port h.cap.obj (some h.cap.gen) sp.1 sp.2 true
    whole h.cap.obj h.spans

/-- One element of a reducing copy (Table 14.5): the operation as an atomic. -/
def ropAtomic : Nat → Nat × Bool
  | 0 => (11, false) | 1 => (11, true) | 2 => (0, false) | 3 => (6, false) | _ => (8, false)

/-- Where a remote page leads: the connection and the peer's object offset of a byte (R361). -/
def remoteTarget (e : ObjEnt) (pe : PageEnt) (o : Nat) : Nat × Nat := (bits pe 30 14, 65536 * bits pe 0 30 + o % e.page)

/-- A connection before it is used: up, on port 0. -/
def Conn.initial : Conn :=
  { up := false, port := 0, peer := 0, reported := false, attested := false, nextSeq := 0, unacked := [], expected := 0, window := [], landed := 0, lease := 0,
    failed := false, answer := none, begun := [] }
/-- A connection. -/
def State.conn (s : State) (i : Nat) : Conn := sget Conn.initial s.conns i
/-- A port before its link is up and its configuration is applied. -/
def Port.initial : Port := ⟨false, 0, 0, 0, 0, 0, 0⟩
/-- A port. -/
def State.portOf (s : State) (i : Nat) : Port := sget Port.initial s.ports i
/-- Replaces a port. -/
def State.setPort (s : State) (i : Nat) (p : Port) : State := { s with ports := sput Port.initial s.ports i p }
/-- Replaces a connection. -/
def State.setConn (s : State) (i : Nat) (c : Conn) : State := { s with conns := sput Conn.initial s.conns i c }

/-- A frame of an address is dropped by the peer table, counted and recorded (R381, Tables 25.7, 25.10). -/
def dropFrame (s : State) (port addr : Nat) : State :=
  let p := s.portOf port
  ((s.setPort port { p with dropped := p.dropped + 1 }).bump (0x400 + 64 * port + 16) 1).logBody 6 port 8 [port, addr]

/-- Sends a message on a connection: its number is assigned once and kept until it is acknowledged (R250, R284). The landing count of the
peer rises with the permits that a PERMIT grants it (R253). A frame to a peer that the table does not hold is dropped at the port. -/
def sendMessage (s : State) (cn : Nat) (m : Message) : State :=
  let c := s.conn cn
  let c := if m.kind = 3 then { c with landed := c.landed + m.len, lease := max c.lease (s.time / 1024 + ofBytes m.data) } else c
  let s := s.setConn cn
    { c with nextSeq := (c.nextSeq + 1) % 2 ^ 32, unacked := c.unacked ++ [{ m with seq := c.nextSeq, sent := s.time, order := s.acts.length }] }
  if (s.peers[c.peer]?).isNone then dropFrame s c.port ((s.portOf c.port).ipv4) else s

/-- The unacknowledged messages that a connection may hold (R283). -/
def sendLimit : Nat := 4096

/-- Splits a span at multiples of 4,096 bytes from its start and of 64 KiB of the object (R214, R361): starts and lengths. -/
def splitSpan : Nat → Nat → Nat → List (Nat × Nat)
  | 0, _, _ => []
  | k + 1, o, n =>
    if n = 0 then [] else
      let m := min n (min 4096 (65536 - o % 65536))
      (o, m) :: splitSpan k (o + m) (n - m)

/-- Changes a tracked command. -/
def State.track (s : State) (core cmd : Nat) (f : Tracked → Tracked) : State :=
  { s with tracked := s.tracked.map fun t => if t.core = core ∧ t.cmd = cmd then f t else t }

/-- The messages that a row still waits for, with so many more. -/
def Tracked.expect (t : Tracked) (row n : Nat) : Tracked := { t with rows := sput 0 t.rows row (sget 0 t.rows row + n) }

/-- The status word of a command (R252). -/
def Tracked.word (t : Tracked) : Nat := t.code + 256 * t.reason + 2 ^ 32 * (if t.kind = 1 then t.good - t.bad.length else t.good)

/-- A core's context ends by a fatal event (R3): what its commit had reserved is released. Where a commit or spill has performed some of its writes it first
performs every one, and nothing else (R232, R406, R408). -/
def dropContext (s : State) (core : Nat) (t : TrapEv) : State :=
  match s.ctxOf core with
  | none => s
  | some c =>
    if c.committing && c.porch.any (·.due) then
      if c.doomed.isSome then s
      else (s.recordEvent 0 t).setCore core { s.core core with mx := [], cp := [], ctx := some { c with doomed := some t, mode := .run, pend := [], ringWait := none } }
    else (releaseSlots s c.reserved).endContext core t

/-- Writes a command's status word where SV asked for one, and forgets it, once nothing of it is outstanding (R252). The write is checked at its port (R351):
it waits while the scratchpad is being cleared (R350) or an `mma` holds the bytes (R169). -/
def settleTracked (s : State) (core cmd : Nat) : State :=
  match s.tracked.find? fun t => t.core == core && t.cmd == cmd with
  | none => s
  | some t =>
    let obj := 0xFF8000 + core
    if t.rows.isEmpty && t.unsent == 0 then
      let done := { s with tracked := s.tracked.filter fun x => !(x.core == core && x.cmd == cmd) }
      if !t.sv then done
      else match s.ctxOf core with
        | none => done
        | some c =>
          if (c.record.frameObj, c.record.frameOff) != t.owner then done
          else match portCheck s (whoOf core c) none obj t.soff 8 true 0 with
            | .error (.fatal f) => dropContext done core (fatalTrap done core c Slot.xc.idx false f)
            | .error _ => s
            | .ok () => if mmaHolds s obj t.soff 8 then s else performBytes done obj 0 (atOffsets t.soff (toBytes 8 t.word))
    else s

/-- The status words that a core still has to write (R252). -/
def settleAll (s : State) (core : Nat) : State :=
  (s.tracked.filter fun t => t.core == core && t.rows.isEmpty && t.unsent == 0).foldl (fun s t => settleTracked s core t.cmd) s

/-- The fold whose count a landing of a held write decrements (R242). -/
def landFor (s : State) (fold : Option Nat) (n : Nat) : State := match fold with
  | some f => landBytes s f n
  | none => s

/-- Adds elements of a row into memory (R247, R251): the bytes of the operands, 4 to an element. -/
def addElems (a : Nat × Bool) (obj : Nat) : Nat → List Byte → State → State
  | o, b0 :: b1 :: b2 :: b3 :: t, s => addElems a obj (o + 4) t (performAtomic s obj o 4 a.1 a.2 (ofBytes [b0, b1, b2, b3]) 0 0).1
  | _, _, s => s

/-- Permits arrive at a permit word (R253): COUNT is added, saturating; LEASE becomes the later one. -/
def grantPermits (s : State) (obj o count dur : Nat) : State :=
  let s := fillSpan s obj o 8 0
  let w := ofBytes (locBytes s obj o 8 0)
  performBytes s obj 0 (atOffsets o (toBytes 8
    (min 65535 (w % 65536 + count) + 65536 * (max (w / 65536) (s.time / 1024 + dur) % 2 ^ 48))))

/-- The row of a command with no message outstanding has performed (R252). -/
def Tracked.rowDone (t : Tracked) (row : Nat) : Tracked :=
  if t.kind = 1 ∧ sget 0 t.rows row = 0 ∧ !t.stopped then { t with good := t.good + 1 } else t

/-- Whether a byte of an object is reached on the package (R361). -/
def onPackage (s : State) (obj o : Nat) : Bool :=
  isLocal obj || (let e := s.seenObj obj 0
                  (pageFor s obj e (o / e.page * e.page) 0).tier != 2)

/-- A part of a held row of a remote command performs (R250, R251, R253): its messages are sent; elements on the package are added there. With PV each
PUT first tests the captured `PMT`; once one has stopped the command, CODE 1 carries reason 0 (R411). -/
def sendRow (s : State) (core : Nat) (h : Held) (kind cmd row : Nat) (pv : Bool) (pmt : Word) (count dur : Nat) (data : List Byte) : State :=
  let e := s.seenObj h.cap.obj 0
  let o := h.cap.base + h.off
  let parts := splitSpan (data.length + 1) o data.length
  parts.foldl (fun s p =>
    let stop := (s.tracked.find? fun t => t.core == core && t.cmd == cmd).any (·.stopped)
    if stop then s
    else if pv && (bits pmt 0 16 == 0 || decide (1024 * bits pmt 16 48 ≤ s.time)) then
      s.track core cmd fun t => { t with code := 1, reason := 0, stopped := true }
    else if onPackage s h.cap.obj p.1 then
      -- the elements of an addition, and the writes to a page that has come onto the package since the issue
      let part := (data.drop (p.1 - o)).take p.2
      landFor (if kind = 0 then performBytes s h.cap.obj 0 (atOffsets p.1 part)
        else if kind = 3 then grantPermits s h.cap.obj p.1 count dur
        else addElems (11, kind == 2) h.cap.obj p.1 part s) h.fold p.2
    else
      let tgt := remoteTarget e (pageFor s h.cap.obj e (p.1 / e.page * e.page) 0) p.1
      let m : Message :=
        { seq := 0, kind := kind, obj := e.robj, off := tgt.2, gen := e.rgen, right := if kind = 0 then rightW else rightA, len := (if kind = 3 then count else p.2),
          data := (if kind = 3 then toBytes 4 dur else (data.drop (p.1 - o)).take p.2), core := core, cmd := cmd, row := row, col := p.1 - o, sent := 0 }
      (sendMessage s tgt.1 m).track core cmd fun t => t.expect row 1) s

/-- `spawn` performs (R318). -/
def performSpawn (s : State) (c : Ctx) (h : Held) (pid : Nat) : State :=
  let d := s.pasture pid
  let s := fillSpan (touch s h.cap.obj (h.cap.base + h.off) 64 0) h.cap.obj (h.cap.base + h.off) 64 0
  let r : Rec := BitVec.ofNat 512 (ofBytes (locBytes s h.cap.obj (h.cap.base + h.off) 64 0))
  -- WAIT, PINF, SRV and the reserved fields of CTL and PLACE become zero
  let r := setBits (setBits r 192 64 0) 257 2 0
  let r := setBits (setBits (setBits r 259 5 0) 267 5 0) 300 4 0
  let r := Rec.sealed (setBits (setBits r 272 16 c.paddock) 288 12 pid)
  let s := performBytes s (ringObj d) 0 (atOffsets (ringSlot d (tailOf d)) (toBytes 64 r.toNat))
  let s := s.hubWrite (s.pastureAddr pid + 16) 8 (tailOf d + 1)
  let s := setResv s pid (resv d - 1)
  s.seeTail pid

/-- `wakew` performs (R324): the oldest records whose watches name a word in the same aligned 8-byte block wake with CAUSE 3. -/
def performWake (s : State) (obj off n : Nat) : State :=
  let hit := s.waiting.filter fun w => match w.on with
    | .word _ _ _ _ o x _ _ => o == obj && x / 8 == off / 8
    | _ => false
  wakeRecords s ((if n = 0 then hit else hit.take n).map fun w => (w, 3, none))

/-- `fold.arrive` performs (R326). -/
def performArrive (s : State) (core : Nat) (i fid : Nat) : Except Stop State :=
  match s.ctxOf core with
  | none => .ok s
  | some c =>
    let f := s.fold fid
    if (c.farm.getLsbD i && c.farm.getLsbD (4 + i) == f.phase) || f.arrived == f.members then
      .error (.fatal { kind := kFold, reason := 0, addr := none, arg := 0, commit := true })
    else
      let s := s.setFold fid (setBits f 64 16 (f.arrived + 1))
      let farm := (c.farm ||| ((1 : BitVec 8) <<< i)) &&& ~~~((1 : BitVec 8) <<< (4 + i)) ||| ((BitVec.ofNat 8 (b2n f.phase)) <<< (4 + i))
      .ok (settleFold (s.setCtx core { c with farm := farm }) fid)

/-- Whether a message is a write or an add that a core's context has sent, of some classes: a GET's message (kind 4) writes nothing, and those of a context
that has ended are nobody's (R79). -/
def sentBy (s : State) (core : Nat) (x : Ctx) (p : Nat → Bool) (m : Message) : Bool :=
  m.core == core && m.kind != 4
    && ((s.tracked.find? fun t => t.core == core && t.cmd == m.cmd).any fun t => t.owner == (x.record.frameObj, x.record.frameOff) && p t.cls)
/-- Whether a write or add of some classes that a core's context has sent is still unacknowledged (R223, R272). -/
def awaitsAckOf (s : State) (core : Nat) (p : Nat → Bool) : Bool :=
  (s.ctxOf core).any fun x => s.conns.any fun c => c.2.unacked.any (sentBy s core x p)
/-- Whether a write or add that a core's context has sent is still unacknowledged (R223). -/
def awaitsAck (s : State) (core : Nat) : Bool := awaitsAckOf s core fun _ => true

/-- Stages a part of a group drain in its quad (R254). A part that disagrees with the first one, a core's second part under an open
GID, or one that comes more than 100 µs after the first, ends the whole GID with status 3. -/
def stagePart (s : State) (core : Nat) (h : Held) (d : List (Nat × Byte)) (gid cmd cls pitch : Nat) : State :=
  let q := quadOf core
  let ps := sget [] s.parts q
  let mine : GroupPart := ⟨core, gid, cmd, d, s.time, h.cap, h.off, cls, pitch, h.fold, false⟩
  let openHere := ps.filter fun p => p.gid == gid && !p.closed
  let clash := match openHere with
    | [] => false
    | p :: _ => p.cap.obj != h.cap.obj || p.off != h.off || p.pitch != pitch || p.cls != cls || openHere.any (·.core == core) || decide (p.since + 100000 < s.time)
  let ps := ps ++ [mine]
  if clash then
    let bad := ps.filter fun p => p.gid == gid && !p.closed
    let s := { s with parts := sput [] s.parts q (ps.map fun p => if p.gid = gid then { p with closed := true } else p) }
    bad.foldl (fun s p => s.track p.core p.cmd fun t => { t with code := 3 }) s
  else { s with parts := sput [] s.parts q ps }

/-- The part of a core's command in its quad's group buffer. -/
def partOf (s : State) (core cmd : Nat) : Option GroupPart := (sget [] s.parts (quadOf core)).find? fun p => p.core == core && p.cmd == cmd

/-- Whether a held write is a part of a row of a remote command. -/
def Held.ofRow (h : Held) (cmd row : Nat) : Bool := match h.op with
  | .remote _ c r _ _ _ _ _ => c == cmd && r == row
  | _ => false

/-- A part of a held row of a remote command performs; with the last one the row counts as sent. -/
def performRow (s : State) (core : Nat) (h : Held) (kind cmd row : Nat) (pv : Bool) (pmt : Word) (count dur : Nat) (d : List Byte) (last : Bool) : State :=
  let s := sendRow s core h kind cmd row pv pmt count dur d
  if last then settleTracked (s.track core cmd fun t => { t.rowDone row with unsent := t.unsent - 1 }) core cmd else s

/-- Whether the connections of a held row may take its messages (R283): none may hold more than 4,096 unacknowledged ones. -/
def roomToSend (s : State) (h : Held) (n : Nat) : Bool :=
  let e := s.seenObj h.cap.obj 0
  let o := h.cap.base + h.off
  let l := ((splitSpan (n + 1) o n).filter fun p => !isLocal h.cap.obj && (pageFor s h.cap.obj e (p.1 / e.page * e.page) 0).tier == 2).map
    fun p => (remoteTarget e (pageFor s h.cap.obj e (p.1 / e.page * e.page) 0) p.1).1
  l.all fun cn => decide ((s.conn cn).unacked.length + l.count cn ≤ sendLimit)

/-- The single-copy atomic units of some bytes (Table 15.2): the aligned blocks of 16 bytes that they lie in, or pieces of a size, or all. -/
def unitsOf (unit : Nat) (d : List (Nat × Byte)) : List (List (Nat × Byte)) :=
  if unit = 0 then [d]
  else if unit = 16 then ((d.map fun x => x.1 / 16).eraseDups).map fun b => d.filter fun x => x.1 / 16 == b
  else chunks ((d.length + unit - 1) / unit) unit d

/-- The parts of a row of a remote command from an offset, which perform one by one: a message each; on the package the elements of an addition, or the units
of a write (Table 15.2). With their offsets. -/
def rowParts (s : State) (h : Held) (kind : Nat) (d : List Byte) : List (Nat × List Byte) :=
  let o := h.cap.base + h.off
  if kind = 3 then [(o, d)] else
  (splitSpan (d.length + 1) o d.length).flatMap fun p =>
    let part := atOffsets p.1 ((d.drop (p.1 - o)).take p.2)
    let us := if !onPackage s h.cap.obj p.1 then [part] else unitsOf (if kind = 0 then h.unit else 4) part
    us.map fun u => ((u.head?.map (·.1)).getD p.1, u.map (·.2))

/-- The units of a held write, each of which performs as an event of its own (R269). -/
def Held.pieces (s : State) (h : Held) : List Held := match h.op with
  | .bytes d => (unitsOf h.unit d).map fun u => { h with op := .bytes u }
  | .other o d => (unitsOf h.unit d).map fun u => { h with op := .other o u }
  | .elems r d => d.map fun x => { h with op := .elems r [x] }
  | .remote kind cmd row pv pmt count dur d => (rowParts s h kind d).map fun u =>
    { h with off := u.1 - h.cap.base, len := u.2.length, op := .remote kind cmd row pv pmt count dur u.2 }
  | _ => [h]

/-- What is left of a held write, given the units that have not performed. -/
def Held.rest (h : Held) (l : List Held) : List Held :=
  let data := l.flatMap fun x => match x.op with | .bytes d | .other _ d => d | _ => []
  if l.isEmpty then []
  else match h.op with
    | .bytes _ => [{ h with op := .bytes data }]
    | .other o _ => [{ h with op := .other o data }]
    | .elems r _ => [{ h with op := .elems r (l.flatMap fun x => match x.op with | .elems _ d => d | _ => []) }]
    | _ => l

/-- A held write's act on a span of an object. -/
def Held.actOn (h : Held) (core : Nat) (c : Ctx) (obj o n : Nat) : Act := { h.act core c 0 with obj := obj, off := o, len := n }
/-- A held write is recorded as it performs, once for each run of its bytes. -/
def recordHeld (s : State) (core : Nat) (c : Ctx) (h : Held) (obj : Nat) : State :=
  h.spans.foldl (fun s sp => s.record ((h.actOn core c obj sp.1 sp.2).over s)) s
/-- An atomic of a held write is recorded (R275): the element steps of a copy have scope `.pkg`. -/
def recordAtomic (s : State) (core : Nat) (c : Ctx) (h : Held) (o n scope : Nat) : State :=
  s.recordRead (Act.over { h.actOn core c h.cap.obj o n with scope := scope, kind := .atomic false [] } s)
/-- A part of a remote command's row is recorded as it performs (R275): an element step has scope `.pkg` on the package and `.fab` elsewhere. -/
def recordRow (s : State) (core : Nat) (c : Ctx) (h : Held) (kind : Nat) (d : List Byte) : State :=
  let o := h.cap.base + h.off
  let on := onPackage s h.cap.obj o
  if kind = 0 then s.record (Act.over { h.actOn core c h.cap.obj o d.length with scope := if on then h.scope else 5 } s)
  else recordAtomic s core c h o d.length (if on then 4 else 5)

/-- Whether a held write is the arrival of a `fold.sync`, the last write of its commit (R328): it stands after its whole bundle. -/
def Held.closing (h : Held) : Bool := match h.op with
  | .arrive _ _ => h.slot == .cf
  | _ => false

/-- Whether a read that a held write makes as it performs waits for a fill (R15): a reduction's, an element's, a permit's, a spawned record's. -/
def heldReads (s : State) (h : Held) : List (Nat × Nat) :=
  let o := h.cap.base + h.off
  match h.op with
  | .red _ _ n _ => [(o, n)]
  | .elems _ d => d.map fun x => (x.1, 4)
  | .spawn _ => [(o, 64)]
  | .remote kind _ _ _ _ _ _ d => if kind != 0 && onPackage s h.cap.obj o then [(o, if kind = 3 then 8 else d.length)] else []
  | _ => []

/-- A held write, or a unit of one, performs at its point of order (R232); `.wait` where its commit must wait before it. `last`: no other part of its row is
left. -/
def performHeld (s : State) (core : Nat) (h : Held) (last : Bool) : Except Stop State :=
  match s.ctxOf core with
  | none => .ok s
  | some c =>
    let fv := fun (s : State) (n : Nat) => landFor s h.fold n
    let noted := recordHeld s core c h h.obj
    if (h.closing || h.rel && h.scope == 5) && awaitsAck s core then .error .wait
    else if h.path == .x && h.touches.any fun sp => mmaHolds s h.obj sp.1 sp.2 then .error .wait
    else if (heldReads s h).any fun sp => fillHeld s h.cap.obj sp.1 sp.2 0 then
      .error (.later ((heldReads s h).foldl (fun s sp => holdFills s h.cap.obj sp.1 sp.2 0) s))
    else match h.op with
    | .bytes d | .tile d | .other _ d => .ok (fv (performBytes noted h.obj 0 d) d.length)
    | .cap k =>
      let o := h.cap.base + h.off
      let s := performBytes noted h.cap.obj 0 (atOffsets o (toBytes 16 k.val.toNat))
      .ok (if k.tag && carriesTag s h.cap.obj o 0 then s.tagBlock (locAddr s h.cap.obj o 0) else s)
    | .red aop bf2 n v =>
      let o := h.cap.base + h.off
      .ok (performAtomic (recordAtomic s core c h o n h.scope) h.cap.obj o n aop.toNat bf2 v.toNat 0 0).1
    | .elems rop d =>
      let a := ropAtomic rop
      .ok (fv (d.foldl (fun s x => (performAtomic (recordAtomic s core c h x.1 4 4) h.cap.obj x.1 4 a.1 a.2 x.2 0 0).1) s) (4 * d.length))
    | .spawn pid =>
      let d := s.pasture pid
      .ok ((performSpawn (s.record ((h.actOn core c (ringObj d) (ringSlot d (tailOf d)) 64).over s)) c h pid).modCtx core fun c => { c with reserved := c.reserved.erase pid })
    | .arrive i fid => performArrive (s.record (h.actOn core c (foldPseudo fid) 0 1)) core i fid
    | .wake n _ =>
      let o := h.cap.base + h.off
      .ok (performWake (s.record (h.actOn core c (wakePseudo h.cap.obj) (o / 8 * 8) 8)) h.cap.obj o n)
    | .remote kind cmd row pv pmt count dur d =>
      if roomToSend s h d.length then .ok (performRow (recordRow s core c h kind d) core h kind cmd row pv pmt count dur d last) else .error .wait
    | .part d gid cmd cls pitch =>
      match partOf s core cmd with
      | none => .error (.later (stagePart s core h d gid cmd cls pitch))
      | some p =>
        if p.closed then
          let q := quadOf core
          let s := { s with parts := sput [] s.parts q ((sget [] s.parts q).filter fun x => !(x.core == core && x.cmd == cmd)) }
          .ok (settleTracked (s.track core cmd fun t => { t with unsent := 0 }) core cmd)
        else .error .wait

/-! ### Commit and spill -/

/-- The offsets of the bytes that a held write touches. -/
def Held.offsets (h : Held) : List Nat := match h.op with
  | .remote _ _ _ _ _ _ _ d => (List.range d.length).map (h.cap.base + h.off + ·)
  | _ => h.spans.flatMap fun sp => (List.range sp.2).map (sp.1 + ·)

/-- Whether a held write performs before a later one of the same porch (R232), `i` and `k` their numbers: they touch a common byte, local order relates
them (R271), a `wakew` or a `spawn` follows every write (R318, R324), as the arrival of a `fold.sync` does those of its whole bundle (R328), and a release
of scope `.fab` every remote one (R223). -/
def heldBefore (s : State) (core : Nat) (c : Ctx) (i k : Nat) (w v : Held) : Bool :=
  let n := s.acts.length
  let held := porchActs s core c
  let a := { w.act core c (n + i) with off := 0 }
  (w.obj == v.obj && w.offsets.any fun o => v.offsets.contains o)
    || localOrder (held ++ s.segActs core c) a (v.act core c (n + k))
    || v.closing
    || (w.act core c 0).before (v.act core c 1) && ((match v.op with | .wake _ _ | .spawn _ => true | _ => false)
        || (v.rel && v.scope == 5 && match w.op with | .remote _ _ _ _ _ _ _ _ => true | _ => false))

/-- The held write of a commit that performs next: one that no other must come before, else free (R232). -/
def nextDue (s : State) (core : Nat) (c : Ctx) : Option Held :=
  let due := c.porch.zipIdx.filter (·.1.due)
  let free := (due.filter fun x => !due.any fun w => decide (w.2 < x.2) && heldBefore s core c w.2 x.2 w.1 x.1).map (·.1)
  free[s.chooses 5600 due.length free.length]?

/-- Replaces a held write of a list by what is left of it. -/
def replaceHeld (h : Held) (r : List Held) : List Held → List Held
  | [] => []
  | x :: t => if x = h then r ++ t else x :: replaceHeld h r t

/-- Whether a unit of a held write is the last part of its row that the porch holds. -/
def lastPart (c : Ctx) (h : Held) (n : Nat) : Bool := match h.op with
  | .remote _ cmd row _ _ _ _ _ => n == 1 && c.porch.countP (fun x => x.ofRow cmd row) == 1
  | _ => n == 1

/-- The held writes of a commit or spill perform, as separate events (R279): unit by unit, in an order that R232 allows. Where an input says so
another party's step comes before the next (log 11). -/
def performDue (core : Nat) : Nat → State → Except Stop State
  | 0, s => .error (.later s)
  | k + 1, s => match s.ctxOf core with
    | none => .ok s
    | some c => match nextDue s core c with
      | none => .ok s
      | some h =>
        let l := h.pieces s
        let i := if h.ordered then 0 else s.chooses 5602 k l.length
        match performHeld s core (l.getD i h) (lastPart c h l.length) with
        | .ok s' =>
          let s' := s'.modCtx core fun c => { c with porch := replaceHeld h (h.rest (l.eraseIdx i)) c.porch, committing := true }
          if s.pause = 1 ∧ (s'.ctxOf core).any (fun c => c.porch.any (·.due)) then .error (.later { s' with pause := 0 })
          else performDue core k { s' with pause := s.pause - 1 }
        | .error .wait => .error (.later s)
        | .error (.fatal f) => if c.committing then .error (.after s f) else .error (.fatal f)
        | .error e => .error e

/-- The events that the held writes of a commit make at most. -/
def dueEvents (s : State) (c : Ctx) : Nat := (c.porch.map fun h => (h.pieces s).length).foldl (· + ·) 1

/-- The pastures of held spawns, in program order. -/
def spawnsOf (l : List Held) : List Nat := l.filterMap fun h => match h.op with | .spawn p => some p | _ => none

/-- Whether a commit's next spawn finds its ring full (R319). -/
def ringShort (s : State) (c : Ctx) : Bool :=
  !c.committing && ((spawnsOf c.porch).drop c.reserved.length).head?.any fun p => !ringRoom (s.pasture p)

/-- Reserves the ring slots of the spawns that a commit holds and has not reserved yet (R319): the slots reserved, and whether one still
lacks room. -/
def reserveAll : List Nat → List Nat → State → State × List Nat × Bool
  | [], done, s => (s, done, true)
  | p :: t, done, s => if ringRoom (s.pasture p) then reserveAll t (done ++ [p]) (reserveSlot s p) else (s, done, false)

/-- The bytes that a held write lands for its fold as it performs (R242). -/
def Held.landing (h : Held) : Nat := match h.op with
  | .bytes d | .tile d | .other _ d => d.length
  | .elems _ d => 4 * d.length
  | _ => 0

/-- The arrivals of a commit, one after the other with the landings between them, on the folds as they stand: the check of R326. -/
def arrivalsCheck (core : Nat) : List Held → State → Except Stop Unit
  | [], _ => .ok ()
  | h :: t, s => match h.op with
    | .arrive i fid => match performArrive s core i fid with
      | .ok s => arrivalsCheck core t s
      | .error e => .error e
    | _ => arrivalsCheck core t (landFor s h.fold h.landing)

/-- Whether a release of scope `.fab` of a list comes after a remote command that its engine has still to read (R223): its commit waits. -/
def relWaits (s : State) (core : Nat) (l : List Held) : Bool :=
  l.any fun h => h.rel && h.scope == 5 && (s.core core).cp.any fun y =>
    (y.kind == 9 || y.kind == 10) && (decide (y.pos < h.pos) || (y.pos == h.pos && decide (Slot.xc.idx < h.slot.idx)))

/-- The folds with the arrivals that other contexts' begun commits have still to perform: those are counted already (R326, log 92). -/
def withArrivals (s : State) (core : Nat) : State :=
  (s.cores.filter fun x => x.1 != core).foldl (fun t x =>
    (x.2.ctx.elim [] fun c => c.porch.filter (·.due)).foldl (fun t h => match h.op with
      | .arrive _ fid => t.setFold fid (setBits (t.fold fid) 64 16 ((t.fold fid).arrived + 1))
      | _ => t) t) s

/-- What a commit or spill checks and reserves before its first write performs (R235, R319, R326, R408): nothing where it must wait. -/
def beginWrites (s : State) (core : Nat) (c : Ctx) (l : List Held) : Except Stop State := do
  if relWaits s core l then .error .wait
  l.forM fun h => heldCheck s core c h
  arrivalsCheck core l (withArrivals s core)
  let (s, done, ok) := reserveAll ((spawnsOf l).drop c.reserved.length) c.reserved s
  let s := s.modCtx core fun c => { c with reserved := done }
  if !ok then .error (.later s)
  .ok s

/-- The held writes of a commit or spill that has not performed any are again only held. -/
def unmark (core : Nat) (s : State) : State :=
  s.modCtx core fun c => if c.committing then c else { c with spilling := false, porch := c.porch.map fun h => { h with due := false } }

/-- The end of a commit or spill. -/
def endWrites (core : Nat) (s : State) : State := s.modCtx core fun c => { c with committing := false, reserved := [], ringWait := none }

/-- The writes marked `due` perform. -/
def runWrites (s : State) (core : Nat) : Except Stop State :=
  match performDue core ((s.ctxOf core).elim 1 (dueEvents s)) s with
  | .ok s => .ok (endWrites core s)
  | .error (.later s) => .error (.later (unmark core s))
  | .error e => .error e

/-- The end of a spill (R233): SPILLED is set and REPLAY cleared. -/
def endSpill (s : State) (core : Nat) : State := s.modCtx core fun c => { c with spilling := false, spilled := true, replay := false }

/-- A spill of the held writes that pass a test (R231, R233, R235): one that has begun goes on; else all are checked before the first performs; a commit in progress
comes first. Without such a write it leaves the porch and `SEGF` as they are. -/
def spill (s : State) (core : Nat) (p : Held → Bool) : Except Stop State :=
  match s.ctxOf core with
  | none => .ok s
  | some c =>
    if c.spilling then do .ok (endSpill (← runWrites s core) core)
    else if !c.porch.any p then .ok s
    else if c.committing then .error .wait
    else do
      let s ← beginWrites s core c (c.porch.filter p)
      .ok (endSpill (← runWrites (s.modCtx core fun c =>
        { c with spilling := true, porch := c.porch.map fun h => { h with due := p h } }) core) core)

/-- A spill in progress goes on (R233). -/
def goOnSpill (s : State) (core : Nat) : Except Stop State := if (s.ctxOf core).any (·.spilling) then spill s core fun _ => false else .ok s

/-- The writes of a commit (R232, R235, R319, R408): a spill in progress first; checks, reservations, then every write that is held. A commit
that has performed some goes on with the rest. -/
def commitWrites (s : State) (core : Nat) : Except Stop State := do
  let s ← goOnSpill s core
  match s.ctxOf core with
  | none => .ok s
  | some c =>
    if c.committing then runWrites s core
    else do
      let s ← beginWrites s core c c.porch
      runWrites (s.modCtx core fun c => { c with porch := c.porch.map fun h => { h with due := true } }) core

/-- Whether the earlier accesses of a core's engines that a fence orders have performed: their commands are complete. -/
def fenceReady (s : State) (core : Nat) (c : Ctx) (f : Act) : Bool :=
  let x := s.core core
  let act := fun (path : Path) (cls : Nat) => readAct core c .c path cls 0 0 0
  x.cp.all (fun y => !(decide (y.pos < f.prog.2.1) && f.orders (act .x y.cls)))
    && x.mx.all fun y => !(decide (y.pos < f.prog.2.1) && y.kind != 2 && f.orders (act .m 15))

/-- The held writes that the early spill of a fence performs (R231): where the porch holds a write that a fence wider than `.core` orders, every earlier one. -/
def fenceSpills (core : Nat) (c : Ctx) (f : Act) (h : Held) : Bool :=
  (h.act core c 0).before f && f.scope != 0
    && c.porch.any fun x => (x.act core c 0).before f && f.orders (x.act core c 0)

/-- The early spill that a fence wider than `.core` makes (R231). -/
def fenceSpill (s : State) (core : Nat) (f : Act) : Except Stop State := do
  let s ← goOnSpill s core
  match s.ctxOf core with
  | none => .ok s
  | some c => spill s core (fenceSpills core c f)

/-- Whether the spill of a fence that has issued waits for room in a ring: the core runs nothing else (R319). -/
def fenceShort (s : State) (core : Nat) (c : Ctx) : Bool :=
  !c.committing && c.fencing.any fun f => fenceReady s core c f
    && ((spawnsOf (c.porch.filter (fenceSpills core c f))).drop c.reserved.length).head?.any fun p => !ringRoom (s.pasture p)

/-- A fence completes (R229 to R231, R272): what it orders before it has performed at its scope. -/
def completeFence (s : State) (core : Nat) (f : Act) : Except Stop State :=
  match s.ctxOf core with
  | none => .ok s
  | some c =>
    if !fenceReady s core c f then .error .wait
    else do
      let s ← fenceSpill s core f
      if f.scope = 5 ∧ awaitsAckOf s core (fun cls => f.orders (readAct core c .c .x cls 0 0 0)) = true then .error (.later s)
      .ok ((s.record f).modCtx core fun c => { c with fencing := c.fencing.filter fun x => x.prog != f.prog })

/-- The fences of a core's context complete, as far as they may. -/
def runFences (core : Nat) : List Act → State → Except Stop State
  | [], s => .ok s
  | f :: t, s => match completeFence s core f with
    | .ok s => runFences core t s
    | .error .wait => runFences core t s
    | .error (.later s) => runFences core t s
    | .error e => .error e

/-- The fences that a core's context has not completed go on. -/
def pumpFences (s : State) (core : Nat) : Except Stop State := runFences core ((s.ctxOf core).elim [] (·.fencing)) s

/-- Whether an access of a context waits at its issue for a fence that orders it (R229, R230). -/
def Ctx.fenced (c : Ctx) (a : Act) : Bool := c.fencing.any fun f => f.before a && f.orders a

/-- The commit of a core's porch (R232): complete when every write has performed at its point of order, a remote one when it is
acknowledged (R250, R272, R409); fences that waited for no more are complete then. -/
def commitPorch (s : State) (core : Nat) : Except Stop State := do
  let s ← commitWrites s core
  if awaitsAck s core then .error (.later (s.modCtx core fun c => { c with committing := true }))
  pumpFences s core

/-- The 64-byte blocks of a held write (R233). -/
def Held.blocks (h : Held) : List Nat := match h.op with
  | .bytes d | .tile d | .part d _ _ _ _ | .other _ d => (d.map fun x => x.1 / 64).eraseDups
  | .elems _ d => (d.map fun x => x.1 / 64).eraseDups
  | .remote _ _ _ _ _ _ _ d => ((List.range d.length).map fun i => (h.cap.base + h.off + i) / 64).eraseDups
  | _ => [(h.cap.base + h.off) / 64]

/-- Whether a held write is an atomic (R233, R276): a `red`, or the element steps of a copy. -/
def Held.atomic (h : Held) : Bool := match h.op with
  | .red _ _ _ _ | .elems _ _ => true
  | _ => false
/-- Whether writes on the two sides of a held write take different entries of the porch (R233): an `st.rel` or an atomic. -/
def Held.parts (h : Held) : Bool := h.atomic || (h.rel && match h.op with | .bytes _ => true | _ => false)

/-- How many entries of the porch some held writes use (R233): a write merges into the youngest entry of its block where the path, the class
and the side of every fence, `st.rel` and atomic agree. -/
def entryCount (l : List Held) : Nat :=
  (l.foldl (fun (a : List (Nat × Nat × Path × Nat × Nat)) h =>
    h.blocks.foldl (fun a b =>
      match a.find? fun x => x.1 == h.obj && x.2.1 == b with
      | some x => if x.2.2 = (h.path, h.cls, h.group) ∧ !h.parts then a else (h.obj, b, h.path, h.cls, h.group) :: a
      | none => (h.obj, b, h.path, h.cls, h.group) :: a) a) []).length

/-- The entries of the porch (R233). -/
def porchEntries : Nat := 8192

/-- Whether a held write may spill (R223, R232): no lagging slot has still to issue an earlier access of its path, nor, before a release of scope `.fab`, a
command of XC. -/
def Ctx.maySpill (c : Ctx) (h : Held) : Bool :=
  !c.pathLags h.pos h.slot.idx h.path && !(h.rel && h.scope == 5 && c.pathLags h.pos h.slot.idx .x)

/-- Of held writes with their numbers those that may spill, where the writes `back` may not: not those that wait, nor a release that waits for its engines
(R223), nor what must perform after one of these (R232). -/
def spillFrom (s : State) (core : Nat) (c : Ctx) : List (Held × Nat) → List (Held × Nat) → List Held
  | _, [] => []
  | back, x :: t =>
    if c.maySpill x.1 && !relWaits s core [x.1] && back.all (fun w => !heldBefore s core c w.2 x.2 w.1 x.1) then x.1 :: spillFrom s core c back t
    else spillFrom s core c (back ++ [x]) t

/-- The held writes that may spill now, oldest first (R233). -/
def spillable (s : State) (core : Nat) (c : Ctx) : List Held := spillFrom s core c [] c.porch.zipIdx

/-- The oldest held writes that may spill and that leave room for another write (R233), as few as do; all of them where none do. -/
def spillList (s : State) (core : Nat) (c : Ctx) (h : Held) : List Held :=
  if entryCount (c.porch ++ [h]) ≤ porchEntries then []
  else
    let old := spillable s core c
    let fits := fun k => decide (entryCount (c.porch.filter (fun x => !(old.take k).contains x) ++ [h]) ≤ porchEntries)
    old.take (((List.range (old.length + 1)).find? fits).getD old.length)

/-- Spills until a write fits (R233). Where the porch is full of writes that wait, the write enters beside them (log 91). -/
def spillFor (core : Nat) (h : Held) (s : State) : Except Stop State := do
  let s ← goOnSpill s core
  match s.ctxOf core with
  | none => .ok s
  | some c =>
    let l := spillList s core c h
    spill s core fun x => l.contains x

/-- Whether a held write stands after another in program order (R39): by position, then by slot. -/
def Held.later (a b : Held) : Bool := decide (b.pos < a.pos) || (a.pos == b.pos && decide (b.slot.idx < a.slot.idx))

/-- Puts a held write in its place in program order. -/
def insertHeld (h : Held) : List Held → List Held
  | [] => [h]
  | x :: t => if x.later h then h :: x :: t else x :: insertHeld h t

/-- Holds a write in the porch of a core's context (R232, R233). -/
def hold (s : State) (core : Nat) (h : Held) : Except Stop State :=
  if (s.ctxOf core).isNone then .ok s
  else do
    let s ← spillFor core h s
    .ok (s.modCtx core fun c => { c with porch := insertHeld h c.porch, group := if h.parts then c.group + 1 else c.group })

end Sys2Proof.Machine
end

