-- ==== Sys2Proof/Machine/Issue.lean ====
section
/-! DEFINITION. Issuing a bundle: its fetch, the check of the whole bundle (R61, R62), its joins (R41, R42), the budget (R29), the end
action of hardware loops (R77), and what every slot operation does around its meaning (R38 to R46). -/

namespace Sys2Proof.Machine
open Sys2Proof

/-! ### The check of the whole bundle -/

/-- The literal slots that an operation names as sources (R36). -/
def litSources (i : Instr) : List Nat :=
  ((Uses.scodes i ++ Uses.vcodes i).filter fun c => decide (0x30 ≤ c.toNat) && decide (c.toNat < 0x38)).map fun c => c.toNat - 0x30

/-- Whether an operation may issue on a core: its level (R14, R224, R236, R265, R333, R398) and the engines the core has (R14). -/
def levelOk (core : Nat) (i : Instr) : Bool :=
  let lv := levelOf core
  match i with
  | .rfe | .ctxResumeRun _ _ | .ctxResumePark _ _ | .ctxResumePre _ _ | .ctxKill _ | .ctxKillRun _
  | .kmint _ _ | .xlatSync | .pgReform _ _ _ => lv == .s
  | .halt => lv != .u
  | .park _ _ | .spawn _ _ _ | .whWait _ | .bktJmp _ _ _ _ => lv == .u
  | .segMark | .foldArrive _ | .foldWait _ | .foldSync _ | .foldBytes _ _ | .waitw _ _ _ _ _ _ _ | .wakew _ _ _ _ _ => lv != .h
  | .trap _ _ | .brk _ | .ldk _ _ _ | .phase _ _ => lv == .u
  | .mma _ _ _ _ _ _ | .maccClr _ _ _ | .maccLd _ _ _ | .maccSt _ _ _ | .mcancel _ | .fmtSet _ _ _ _ _ | .lendMx _ | .lendVec _ => lv == .u
  | .ttDef _ _ _ | .ttFree _ | .ttBind _ _ | .ttUnbind _ | .ttMark _ _ | .ttMarkWait _ _ | .ttMarkNofold _ | .ttRd _ _ _ => lv == .u
  | j => j.slot != some .xc || isNop j || lv == .u

/-- Whether a slot's word is legal on its own: a literal, or an operation of the slot at its level, whose literals stand in slots with LIT
set, whose extension slot is named once in the bundle (R37, Table 3.19), and whose guard is zero on a `nop` (R36, R38). -/
def wordOk (core : Nat) (b : BitVec 256) (sl : Slot) : Bool :=
  if litBit b sl.idx then guardOf b sl.idx == 0 else
    match opAt b sl with
    | none => false
    | some i =>
      (!isNop i || guardOf b sl.idx == 0) && levelOk core i
        && (litSources i).all (fun k => litBit b k)
        && (match i.extSlot with
          | some x => litBit b x.toNat && !(litSources i).contains x.toNat && Slot.all.all fun o => o == sl || litBit b o.idx ||
              (match opAt b o with
               | some j => !(litSources j).contains x.toNat && j.extSlot != some x
               | none => true)
          | none => true)
        && (litSources i).all fun k => Slot.all.all fun o => o == sl || litBit b o.idx ||
              (match opAt b o with
               | some j => j.extSlot != some (BitVec.ofNat 3 k)
               | none => true)

/-- The registers that the operation of a slot writes (R47). -/
def writesAt (b : BitVec 256) (sl : Slot) : List Name :=
  if litBit b sl.idx then [] else
    match opAt b sl with
    | some i => Uses.writes i
    | none => []

/-- Whether a slot writes a register that a lower-numbered slot of the bundle writes (R47). -/
def collides (b : BitVec 256) (sl : Slot) : Bool :=
  (writesAt b sl).any fun n => (Slot.all.filter fun o => decide (o.idx < sl.idx)).any fun o => (writesAt b o).contains n

/-- The check of the whole bundle (R62): none where it is legal, else the lowest-numbered illegal slot, or the header (8) when only the
header is illegal or the bundle is a data bundle. -/
def checkBundle (core : Nat) (b : BitVec 256) : Option Nat :=
  if bkind b = 0xF then some 8
  else
    match Slot.all.find? fun sl => !wordOk core b sl || collides b sl with
    | some sl => some sl.idx
    | none => if b.toNat % 2 ^ 20 ≠ 0 ∨ bkind b ≠ 0 then some 8 else none

/-! ### Starting a bundle -/

/-- Whether an operation of the C slot joins all slots (Table 3.3). -/
def joinsAll : Instr → Bool
  | .br _ | .jmp _ | .call _ | .callr _ | .ret | .loop _ _ _ | .bktJmp _ _ _ _ | .trap _ _ | .brk _ | .rfe | .halt
  | .park _ _ | .exit | .waitw _ _ _ _ _ _ _ | .foldWait _ | .foldSync _ | .whWait _ | .probe _ _ _ _ | .segMark
  | .fence _ _ _ | .fenceX _ _ => true
  | _ => false

/-- Whether an operation of the C slot that can raise no fault at its issue acts after the other slots have issued the bundle: suspension
points, traps and the supervisor's transfers (R310, R373, R374, R398). The others are checked in slot order first (R393). -/
def actsLast : Instr → Bool
  | .park _ _ | .exit | .segMark | .trap _ _ | .brk _ | .rfe | .halt => true
  | _ => false

/-- Whether a bundle at an offset is the end bundle of an active loop (R77). -/
def Ctx.atEnd (c : Ctx) : Bool := (c.lc0.active && c.lc0.stop == c.pc) || (c.lc1.active && c.lc1.stop == c.pc)

/-- The slots that a bundle's join covers (R41, R42). -/
def joinSet (c : Ctx) (b : BitVec 256) : List Slot :=
  let all := c.atEnd || (!litBit b 0 && (opAt b .c).any joinsAll)
  if all then Slot.all else Slot.all.filter fun sl => joinBit b sl.idx

/-- The slots with an operation to issue, in slot order (R39), the C slot last where its operation acts after the others. -/
def pendingOf (b : BitVec 256) : List Slot :=
  let ops := Slot.all.filter fun sl => !litBit b sl.idx && !(opAt b sl).any isNop
  if ops.contains .c && (opAt b .c).any actsLast then (ops.filter (· != .c)) ++ [.c]
  else if ops.isEmpty then [.c] else ops

/-- The slots that a bundle's join brings to it by an operation, or by a `nop` where the slots that it covers hold nothing else (R41). -/
def pendingIn (c : Ctx) (b : BitVec 256) : List Slot :=
  match joinSet c b with
  | x :: y :: t => if (x :: y :: t).any (pendingOf b).contains then pendingOf b else x :: pendingOf b
  | _ => pendingOf b

/-- The slots of a bundle with a literal or a `nop`, but for one that comes to it for all. -/
def idleIn (c : Ctx) (b : BitVec 256) : List Slot := Slot.all.filter fun sl => !(pendingIn c b).contains sl

/-- Writes far enough back become the register's value (R27). -/
def foldQ {α : Type} (base : α) (lag pos : Nat) (q : List (Nat × α)) : α × List (Nat × α) :=
  (stickyAt base lag pos q, q.filter fun x => !decide (x.1 + lag ≤ pos))

/-- The context's sticky registers brought up to a position that every slot has reached. -/
def Ctx.stickies (c : Ctx) : Ctx :=
  let f := foldQ c.fmt 4 c.pos c.fmtQ
  let t := foldQ c.vtype 4 c.pos c.vtypeQ
  let w := foldQ c.vwin 1 c.pos c.vwinQ
  let a := foldQ c.vact 1 c.pos c.vactQ
  let p := foldQ c.fpc 1 c.pos c.fpcQ
  let r := foldQ c.trapRet 1 c.pos c.trapRetQ
  { c.foldRaised with fmt := f.1, fmtQ := f.2, vtype := t.1, vtypeQ := t.2, vwin := w.1, vwinQ := w.2, vact := a.1, vactQ := a.2, fpc := p.1, fpcQ := p.2,
                      trapRet := r.1, trapRetQ := r.2 }

/-- A bundle as it stands before any slot has come to it. -/
def Issue.start (c : Ctx) (b : BitVec 256) : Issue :=
  { bits := b, left := c.budget, pending := pendingIn c b, idle := idleIn c b, join := joinSet c b, here := [], guards := 0, target := none,
    jumped := false, waiting := false, alone := false, caught := [], suspended := none }

/-- A core's owners of banks brought up to a position that every slot has reached (R175). -/
def Core.ownStickies (x : Core) (pos : Nat) : Core :=
  let q := foldQ x.accOwn 1 pos x.accOwnQ
  { x with accOwn := q.1, accOwnQ := q.2 }

/-- A bundle of a context may issue: no earlier one is left. -/
def startBundle (s : State) (core : Nat) (b : BitVec 256) : State :=
  match s.ctxOf core with
  | none => s
  | some c => s.setCore core { (s.core core).ownStickies c.pos with ctx := some { c.stickies with issue := some (Issue.start c b) } }

/-- A guard (Table 3.2): bit 2 negates the predicate that bits 1:0 select. -/
def guardNow (s : State) (c : Ctx) (sl : Slot) : Bool :=
  let g := guardOf c.bundle sl.idx
  readP s c sl (g.toNat % 4) != g.getLsbD 2

/-- A guard, as its slot has read it when it came to the bundle (R38). -/
def guardHolds (c : Ctx) (sl : Slot) : Bool := c.issue.any fun i => i.guards.getLsbD sl.idx

/-- Whether a write of a sticky register governs the bundles `lag` positions after it and later (R27): the lag, where an operation is one. -/
def stickyLag : Instr → Option Nat
  | .fmtSet _ _ _ _ _ | .vtSet _ => some 4
  | .vwinSet _ _ | .vactSet _ | .fpcSet _ _ _ _ _ _ _ | .fpcSetC _ _ _ _ => some 1
  | _ => none

/-- Whether an operation is a `lend`, which governs every slot's later positions (R175). -/
def isLend : Instr → Bool
  | .lendMx _ | .lendVec _ => true
  | _ => false

/-- Whether an operation of XC or CF at an earlier position, which has still to issue, meets a test. -/
def Ctx.beforeIt (c : Ctx) (p : Instr → Bool) : Bool :=
  (c.bundles.filter fun b => decide (b.pos < c.pos)).any fun b =>
    [Slot.xc, .cf].any fun y => b.issue.awaits y && (issuing b.issue.bits y).any p

/-- Whether slots may come to the bundle in issue (R27, R40, R41, R175): they have issued every earlier position, the slots that joined them there
too; no bundle 16 positions before is left; and the CF slot has issued the writes of sticky registers that govern the bundle and
every earlier `lend` (R175). -/
def Ctx.mayArrive (c : Ctx) (js : List Slot) : Bool :=
  (c.bundles.filter fun b => decide (b.pos < c.pos)).all fun b =>
    js.all (fun y => !b.issue.awaits y && (!(b.issue.together y).contains y || (b.issue.together y).all fun z => !b.issue.awaits z))
      && decide (c.pos < b.pos + 16)
      && !(b.issue.awaits .cf && (issuing b.issue.bits .cf).any fun i => isLend i || (stickyLag i).any fun lag => decide (b.pos + lag ≤ c.pos))

/-- Slots come to the bundle in issue in the same cycle: the first counts it against the budget (R29), the join is recorded (R41), the results
whose position has come enter their rings in the order of R44, the operations' interlocks end (R45, R46), the literals and `nop`s issue, and
the guards are read (R38). -/
def Ctx.arrive (s : State) (core : Nat) (c : Ctx) (js : List Slot) : Ctx :=
  let first := c.issue.any fun i => i.here.isEmpty
  let left := if first && levelOf core == Level.u then c.budget - 1 else c.budget
  let joined := decide (1 < js.length)
  let c : Ctx := { c with
    budget := left,
    joins := if joined then joinSlots c.pos js c.joins else c.joins,
    issue := c.issue.map fun i : Issue =>
      { i with here := i.here ++ js, left := if first then left else i.left, idle := i.idle.filter fun x => !(joined && js.contains x) } }
  let c := c.complete fun w => !w.var && js.contains w.slot && decide (w.due ≤ c.pos)
  let c := js.foldl (fun c y => match issuing c.bundle y with
    | some i => c.interlock y i
    | none => c) c
  let held := js.foldl (fun g y => g ||| (if guardNow s c y then 2 ^ y.idx else 0)) 0
  { c with issue := c.issue.map fun i : Issue => { i with guards := i.guards ||| BitVec.ofNat 8 held } }

/-- A slot of the moving core comes to the bundle in issue, where it has not; none where it must wait for other slots. At a join of all slots
the results that have landed go into the registers (R46, R47). -/
def arriveSlot (s : State) (sl : Slot) : Option State :=
  match s.cur with
  | none => some s
  | some c =>
    match c.issue with
    | none => some s
    | some i =>
      if i.here.contains sl then some s
      else
        let js := i.together sl
        if !c.mayArrive js then none
        else
          let s := s.setCtx s.turn (Ctx.arrive s s.turn c js)
          some (if js.length = 8 then s.retire s.turn fun w => w.landed c.pos else s)

/-- The trap record of the bundle check (R62, R391): each slot stands at the bundle or up to 16 before it. -/
def checkTrap (s : State) (core : Nat) (c : Ctx) (pc slot : Nat) : TrapEv :=
  { trapOf s core c kIllegal 0 (if slot = 8 then 0 else slot) pc (deltasAt c pc []) none 0 with hdr := slot == 8 }

/-- Whether the operation that a slot is about to issue waits for accesses that lagging slots have still to issue (R271, R272). -/
def heldUp (s : State) (sl : Slot) : Bool := s.cur.any fun c => guardHolds c sl && c.memWaits sl

/-- A free-value counter that has moved on: every step does it (log 4). -/
def State.tick (s : State) : State := { s with free := s.free + 1 }

/-- A result that writes a loop counter in C (R76, R77). -/
def lcWrite (c : Ctx) (n : Nat) (v : BitVec 32) : Fly :=
  { Fly.nil .c c.pos 1 with dst := some (.lc n, .word (v.setWidth 64) (BitVec.allOnes 64)) }

/-- The end action for one counter (R77): the context after it, and whether it has chosen the next bundle. -/
def endActionOf (s : State) (n : Nat) (c : Ctx) : Ctx × Bool :=
  let l := if n = 0 then c.lc0 else c.lc1
  if l.active && l.stop == c.pc then
    let v := readLc s c .c n - 1
    let c := c.launch (lcWrite c n v)
    if v != 0 then ({ c with issue := c.issue.map fun i => { i with target := some l.start } }, true)
    else (if n = 0 then { c with lc0 := { c.lc0 with active := false } } else { c with lc1 := { c.lc1 with active := false } }, false)
  else (c, false)

/-- The end action (R77): `lc1` first, then `lc0`; a transfer that has chosen the next bundle leaves none. -/
def endAction (s : State) (c : Ctx) : Ctx :=
  if (c.issue.any (·.jumped)) then c
  else
    let r := endActionOf s 1 c
    if r.2 then r.1 else (endActionOf s 0 r.1).1

/-- Ends a core's context by a fatal event of a slot (R3). -/
def fatalIn (s : State) (core : Nat) (sl : Nat) (f : FaultInfo) : State :=
  let s := if f.commit then s.modCtx core (endAction s) else s
  match s.ctxOf core with
  | none => s
  | some c => dropContext s core (fatalTrap s core c sl false f)

/-- Ends a core's context by a fatal event of the commit of an earlier fence (R231, R235, R391). -/
def fatalLate (s : State) (core : Nat) (f : FaultInfo) : State :=
  match s.ctxOf core with
  | none => s
  | some c => dropContext s core (trapOf s core c f.kind f.reason 0 (c.nextOf .c).2 (deltasAt c (c.nextOf .c).2 [.c]) f.addr 1)

/-- The tier check of a fetch (R12): an offset past the end of the code object raises R72's bounds fault instead. -/
def fetchTier (s : State) (core obj pc : Nat) : Except Stop Unit :=
  if s.isTable obj && decide ((s.seenObj obj 0).size < pc + 32) then .ok () else tierCheck s core obj pc 32 0

/-- The bytes of the bundle at a context's next offset, through the checks of its code object (R12, R72, R291). -/
def fetch (s : State) (core : Nat) (c : Ctx) : Except Stop (State × BitVec 256) := do
  fetchTier s core c.codeObj c.pc
  portCheck s (whoOf core c) none c.codeObj c.pc 32 false 0
  match flashIn s c.codeObj c.pc 32 0 with
  | some f => fatalAt kLostPage c.codeObj f
  | none => .ok ()
  if fillHeld s c.codeObj c.pc 32 0 then .error (.later (holdFills s c.codeObj c.pc 32 0))
  let s := fillSpan (touch s c.codeObj c.pc 32 0) c.codeObj c.pc 32 0
  .ok (s, BitVec.ofNat 256 (ofBytes (locBytes s c.codeObj c.pc 32 0)))

/-- The first slot reaches the bundle at an offset of a core's code object: it is fetched and checked, or the context ends with the fault
(R62, R72): the words of the bundle, or none where the state is all there is. A fetch that must wait reaches nothing. -/
def reach (s : State) (core : Nat) (c : Ctx) (pc : Nat) : State × Option (BitVec 256) :=
  match fetch s core { c with pc := pc } with
  | .error (.fatal f) => (dropContext s core (trapOf s core c f.kind f.reason 0 pc (deltasAt c pc []) f.addr f.arg), none)
  | .error (.later s) => (s, none)
  | .error _ => (s, none)
  | .ok (s, b) =>
    match checkBundle core b with
    | some k => (dropContext s core (checkTrap s core c pc k), none)
    | none => (s, some b)

/-- The first slot reaches the next bundle of a core's context, with no bundle left before it. -/
def reachBundle (s : State) (core : Nat) : State :=
  match s.ctxOf core with
  | none => s
  | some c =>
    match reach s core c c.pc with
    | (s, some b) => startBundle s core b
    | (s, none) => s

/-! ### The end of a bundle -/

/-- The bundle has issued in every slot: the next one on the path (R39, R77). -/
def endBundle (s : State) (c : Ctx) : Ctx :=
  let c := endAction s c
  { c with pc := c.nextBundle, pos := c.pos + 1, issue := none }

/-- Where a context stands once the cycle is over in which its C slot has issued a joined bundle: the slots that the join covers have issued it too, and
its end action has been taken (R41, R77, R391). -/
def Ctx.afterCycle (s : State) (c : Ctx) : Ctx := match c.issue with
  | none => c
  | some i =>
    if i.join.contains .c && decide (1 < i.join.length) && i.here.contains .c && !i.awaits .c then
      let i := { i with pending := i.pending.filter fun y => !i.join.contains y, idle := i.idle.filter fun y => !i.join.contains y }
      if i.pending.isEmpty && i.idle.isEmpty then endBundle s { c with issue := some i } else { c with issue := some i }
    else c

/-- A slot has issued its part of the bundle in issue. Literals and `nop`s of slots that no input has chosen issue with the last operation. -/
def Issue.issued (i : Issue) (sl : Slot) : Issue :=
  { i with pending := i.pending.filter (· != sl), idle := i.idle.filter (· != sl), waiting := false, caught := i.caught.filter fun e => e.1 != sl.idx }

/-- Whether every slot has issued the bundle. -/
def Issue.done (i : Issue) : Bool := i.pending.isEmpty && (!i.alone || i.idle.isEmpty)

/-- A slot has issued its operation: the bundle ends with the last one. -/
def finishSlot (sl : Slot) (s : State) : State :=
  match s.cur with
  | none => s
  | some c =>
    match c.issue with
    | none => s
    | some i =>
      let i := i.issued sl
      let c := { c with issue := some i }
      s.setCtx s.turn (if !i.done then c.settle else if c.slip.isEmpty then endBundle s c else { c with issue := none }.settle)

/-- Marks the bundle in issue as waiting (R43). -/
def markWaiting (s : State) : State := s.modCur fun c => Ctx.settle { c with issue := c.issue.map fun i : Issue => { i with waiting := true } }

/-- Runs the meaning of a slot operation on the core that moves: its interlocks first (R45), its slot's issue after it. A fatal event ends
the context (R3); an operation that must wait leaves the machine as it is (R43). -/
def slotOp (i : Instr) (f : Ctx → State → Except Stop State) (s : State) : Host.Outcome State Fault Refusal :=
  match s.cur with
  | none => .fault .noContext
  | some c =>
    match c.mode, c.issue with
    | .run, some _ =>
      let sl := i.slot.getD .c
      let c := c.interlock sl i
      match f c (s.setCtx s.turn c) with
      | .ok s' => .next (finishSlot sl s').tick
      | .error (.fatal k) => .next (fatalIn s s.turn sl.idx k).tick
      | .error (.after s' k) => .next (fatalIn s' s.turn sl.idx k).tick
      | .error .wait => .next (markWaiting s).tick
      | .error (.later s') => .next (markWaiting s').tick
    | _, _ => .fault .noContext

/-- How a step of the hardware that acts for a core's context ends: as the operation of a slot, but with no slot that waits. -/
def stopEvent (s : State) (core sl : Nat) : Stop → Host.Outcome State Fault Refusal
  | .fatal f => .next (fatalIn s core sl f).tick
  | .after t f => .next (fatalIn t core sl f).tick
  | .wait => .next s.tick
  | .later t => .next t.tick

/-- A check after a part of an operation has performed: its fatal event keeps that part. -/
def checkAfter (s : State) (r : Except Stop Unit) : Except Stop Unit := match r with
  | .error (.fatal f) => .error (.after s f)
  | .error .wait => .error (.later s)
  | r => r

/-- The operands that an operation keeps while it waits (R43). -/
def Ctx.caught (c : Ctx) (sl : Slot) : Option (List Nat) := c.issue.bind fun i => (i.caught.find? fun e => e.1 == sl.idx).map (·.2)

/-- Keeps the operands of an operation that may wait. -/
def keepOperands (s : State) (core : Nat) (sl : Slot) (l : List Nat) : State :=
  s.modCtx core fun c => { c with issue := c.issue.map fun i =>
    { i with caught := (i.caught.filter fun e => e.1 != sl.idx) ++ [(sl.idx, l)] } }

/-- A result that a context launches from the moving core. -/
def State.launch (s : State) (w : Fly) : State := s.modCur fun c => c.launch w

/-! ### A context before its first bundle -/

/-- A loop that is not active. -/
def Loop.off : Loop := ⟨0, 0, 0, false⟩

/-- The saved registers at first-pickup values (Table 2.1). -/
def Saved.fresh : Saved :=
  { next := 0, status := 0, waitv := 0, fmt := 0x1122, vtype := 0, vwin := 0, vact := 0, fpctl := 0, amax := 0, budget := 0, smask := 0, foldm := 0,
    pmt := 0, pred := 0, farm := 0, lc0 := Loop.off, lc1 := Loop.off, sregs := [], keys := [], masks := [] }

/-- A context with every register at its first-pickup value (Table 2.1), without a record. -/
def freshCtx : Ctx :=
  { record := 0, hasRecord := false, frameGen := 0, paddock := 0, codeObj := 0, pc := 0, pos := 0, mode := .run, issue := none, slip := [], pend := [], s := [], p := 0,
    lc0 := Loop.off, lc1 := Loop.off, k := [], m := [], bA := List.replicate 4 (.bits 0), bB := List.replicate 4 (.bits 0),
    wA := List.replicate 4 (.bits 0), wB := List.replicate 4 (.bits 0), stage := [], fmt := 0x1122, fmtQ := [], vtype := 0, vtypeQ := [],
    vwin := 0, vwinQ := [], vact := 0, vactQ := [], fpc := 0, fpcQ := [], flags := 0, flagsFrom := 0, amax := 0, amaxNan := false,
    amaxFrom := 0, raised := [], budget := 0, foldm := 0, farm := 0, replay := false, spilled := false, pmt := 0, hstat := 0, foldSel := 0, foldLo := none,
    tvec := 0, trapRet := 0, trapRetQ := [], held := false, fly := [], joins := [], porch := [], group := 0, fencing := [], segNo := 0, committing := false, spilling := false, doomed := none,
    reserved := [], ringWait := none, parkAsked := false, start := Saved.fresh, firstSeg := true }

/-- The budget trap of a context whose LEFT is zero (R29, R391). -/
def budgetTrap (s : State) (core : Nat) (c : Ctx) : State :=
  s.takeResumable core 0 (trapOf s core c kBudget 0 0 c.pc (List.replicate 8 0) none 0)

end Sys2Proof.Machine
end

