-- ==== Sys2Proof/Machine/Load.lean ====
section
/-! DEFINITION. The memory family of IB, the fences of C and `phase` (13_memory, R109, R356). -/

namespace Sys2Proof.Machine
open Sys2Proof

/-! ### Loads and stores -/

/-- The capability and the offset of an access of the memory family (R216). -/
def memOperand (s : State) (c : Ctx) (k : BitVec 3) (o : BitVec 6) : Cap × Nat := (readK s c .ib k.toNat, (readInt s c .ib o).toNat)

/-- A result of variable latency in a register of IB that enters its ring (R45, R219). -/
def loadFly (c : Ctx) (r : BitVec 5) (v : Word) : Fly :=
  { Fly.nil .ib c.pos 1 with var := true, dst := some (.s r.toNat, .word v (BitVec.allOnes 64)), ring := .b (.bits v) }

/-- A read by an operation of a slot through a capability: the object and its generation, a value of the operation's own, and the units are those
that it has kept, or those that it finds at its issue. Units left for later are checked again for their tier and at their port (R12, R351). It completes once every
unit has been read (R217, R269). -/
def readIn (sl : Slot) (r : Act) (start : Ctx → State → Except Stop (Cap × Nat × List RUnit)) (c : Ctx) (s : State) :
    Except Stop (State × Nat × List Byte) := do
  let (s, obj, gen, x, l) ← match c.caught sl with
    | some k => do
      let l := unitsFrom (k.drop 3)
      l.forM fun u => if u.2.2 = 0 then do
        tierCheck s s.turn (k.headD 0) u.1 u.2.1 0
        portCheck s (whoOf s.turn c) (some (k.getD 1 0)) (k.headD 0) u.1 u.2.1 false 0
      else .ok ()
      .ok (s, k.headD 0, k.getD 1 0, k.getD 2 0, l)
    | none => do
      let (cap, x, l) ← start c s
      .ok (l.foldl (fun s u => touch s cap.obj u.1 u.2.1 0) s, cap.obj, cap.gen, x, l)
  let (s, l) := readUnits s s.turn c { r with obj := obj } 0 l
  if unitsRead l then .ok (s, x, unitsBytes l) else .error (.later (keepOperands s s.turn sl (obj :: gen :: x :: unitsFlat l)))

/-- An access of path P in IB. -/
def accessP (s : State) (c : Ctx) (cls : Nat) : Act := readAct s.turn c .ib .p cls 0 0 0

/-- A load (R216, R217, R219, R220): checked, then read through the porch. -/
def load (r : BitVec 5) (k : BitVec 3) (o : BitVec 6) (n : Nat) (aligned : Bool) (act : Act → Act) (ext : Nat → Word) (c : Ctx) (s : State) :
    Except Stop State := do
  let a := act (accessP s c 0)
  let (s, _, l) ← readIn .ib a (fun c s => do
    let (cap, off) := memOperand s c k o
    if c.fenced a then .error .wait
    checkAccess s s.turn c cap off n rightR aligned false 0
    .ok (cap, 0, unitsAt (off % n == 0) (cap.base + off) n)) c s
  .ok (s.launch (loadFly c r (ext (ofBytes l))))

/-- The access of a load of a class. -/
def plainLoad (cls : BitVec 4) (a : Act) : Act := { a with cls := cls.toNat }
/-- The access of an `ld.acq` of a scope (R221, R222). -/
def acquireLoad (scope : BitVec 3) (a : Act) : Act := { a with cls := 16, scope := scope.toNat, kind := .read true [] }

/-- A held write of path P (R232). -/
def heldP (c : Ctx) (cls : Nat) (rel : Bool) (scope : Nat) (cap : Cap) (off n : Nat) (op : HeldOp) : Held :=
  { path := .p, cls := cls, rel := rel, scope := scope, group := c.group, slot := .ib, pos := c.pos, cap := cap, off := off, len := n,
    fold := none, cmd := none, tile := none, op := op }

/-- Holds a write, once no fence makes it wait (R229, R230). -/
def holdFenced (s : State) (c : Ctx) (h : Held) : Except Stop State := if c.fenced (h.act s.turn c 0) then .error .wait else hold s s.turn h

/-- A store (R216, R217, R219, R232): checked, then held. Whether its page may be written is checked at its commit (R348). -/
def store (r : BitVec 5) (k : BitVec 3) (o : BitVec 6) (n : Nat) (cls : Nat) (rel : Bool) (scope : Nat) (c : Ctx) (s : State) :
    Except Stop State := do
  let (cap, off) := memOperand s c k o
  checkAccess s s.turn c cap off n rightW rel false 0
  let s := touch s cap.obj (cap.base + off) n 0
  holdFenced s c { heldP c cls rel scope cap off n (.bytes (atOffsets (cap.base + off) (toBytes n (readS s c .ib r.toNat).toNat))) with
    unit := if off % n = 0 then 0 else 1 }

/-- Zero extension of a loaded value. -/
def zx (v : Nat) : Word := BitVec.ofNat 64 v
/-- Sign extension of a loaded value of `n` bytes. -/
def sx (n v : Nat) : Word := BitVec.ofInt 64 (signed (8 * n) v)

/-- `ldU8` (R219). -/
def execLdU8 (r : BitVec 5) (k : BitVec 3) (o : BitVec 6) (cls : BitVec 4) (s : State) : Host.Outcome State Fault Refusal :=
  slotOp (.ldU8 r k o cls) (load r k o 1 false (plainLoad cls) zx) s

/-- `ldS8` (R219). -/
def execLdS8 (r : BitVec 5) (k : BitVec 3) (o : BitVec 6) (cls : BitVec 4) (s : State) : Host.Outcome State Fault Refusal :=
  slotOp (.ldS8 r k o cls) (load r k o 1 false (plainLoad cls) (sx 1)) s

/-- `ldU16` (R219). -/
def execLdU16 (r : BitVec 5) (k : BitVec 3) (o : BitVec 6) (cls : BitVec 4) (s : State) : Host.Outcome State Fault Refusal :=
  slotOp (.ldU16 r k o cls) (load r k o 2 false (plainLoad cls) zx) s

/-- `ldS16` (R219). -/
def execLdS16 (r : BitVec 5) (k : BitVec 3) (o : BitVec 6) (cls : BitVec 4) (s : State) : Host.Outcome State Fault Refusal :=
  slotOp (.ldS16 r k o cls) (load r k o 2 false (plainLoad cls) (sx 2)) s

/-- `ldU32` (R219). -/
def execLdU32 (r : BitVec 5) (k : BitVec 3) (o : BitVec 6) (cls : BitVec 4) (s : State) : Host.Outcome State Fault Refusal :=
  slotOp (.ldU32 r k o cls) (load r k o 4 false (plainLoad cls) zx) s

/-- `ldS32` (R219). -/
def execLdS32 (r : BitVec 5) (k : BitVec 3) (o : BitVec 6) (cls : BitVec 4) (s : State) : Host.Outcome State Fault Refusal :=
  slotOp (.ldS32 r k o cls) (load r k o 4 false (plainLoad cls) (sx 4)) s

/-- `ld64` (R219). -/
def execLd64 (r : BitVec 5) (k : BitVec 3) (o : BitVec 6) (cls : BitVec 4) (s : State) : Host.Outcome State Fault Refusal :=
  slotOp (.ld64 r k o cls) (load r k o 8 false (plainLoad cls) zx) s

/-- `ld.acq` (R221, R222): aligned; later accesses of the context perform after it. -/
def execLdAcq (r : BitVec 5) (k : BitVec 3) (o : BitVec 6) (scope : BitVec 3) (s : State) : Host.Outcome State Fault Refusal :=
  slotOp (.ldAcq r k o scope) (load r k o 8 true (acquireLoad scope) zx) s

/-- `st8` (R219). -/
def execSt8 (r : BitVec 5) (k : BitVec 3) (o : BitVec 6) (cls : BitVec 4) (s : State) : Host.Outcome State Fault Refusal :=
  slotOp (.st8 r k o cls) (store r k o 1 cls.toNat false 0) s

/-- `st16` (R219). -/
def execSt16 (r : BitVec 5) (k : BitVec 3) (o : BitVec 6) (cls : BitVec 4) (s : State) : Host.Outcome State Fault Refusal :=
  slotOp (.st16 r k o cls) (store r k o 2 cls.toNat false 0) s

/-- `st32` (R219). -/
def execSt32 (r : BitVec 5) (k : BitVec 3) (o : BitVec 6) (cls : BitVec 4) (s : State) : Host.Outcome State Fault Refusal :=
  slotOp (.st32 r k o cls) (store r k o 4 cls.toNat false 0) s

/-- `st64` (R219). -/
def execSt64 (r : BitVec 5) (k : BitVec 3) (o : BitVec 6) (cls : BitVec 4) (s : State) : Host.Outcome State Fault Refusal :=
  slotOp (.st64 r k o cls) (store r k o 8 cls.toNat false 0) s

/-- `st.rel` (R221, R223): aligned, of every class (R218). -/
def execStRel (r : BitVec 5) (k : BitVec 3) (o : BitVec 6) (scope : BitVec 3) (s : State) : Host.Outcome State Fault Refusal :=
  slotOp (.stRel r k o scope) (store r k o 8 16 true scope.toNat) s

/-! ### Capabilities from the paddock key table (R224, R356) -/

/-- The entry of a paddock in the paddock table: its key table's object, offset and length; length 0 where it is not valid. -/
def keyTable (s : State) (pad : Nat) : Nat × Nat × Nat :=
  let a := bits (s.tab 3 s.padtab) 0 60 / 4096 * 4096 + 16 * pad
  let kt := s.num a 8
  (kt / 2 ^ 40, kt % 2 ^ 40, if s.num (a + 12) 1 % 2 = 1 then s.num (a + 8) 4 else 0)

/-- A read of a block and its tag, as one event, through the porch (R220, R367); one that the Cellar cannot bring fails (R416). -/
def readBlock (s : State) (c : Ctx) (r : Act) : Except Stop (State × Cap) := do
  if let some f := flashIn s r.obj r.off 16 0 then fatalAt kLostPage r.obj f
  if fillHeld s r.obj r.off 16 0 then .error (.later (holdFills s r.obj r.off 16 0))
  let s := (fillSpan (touch s r.obj r.off 16 0) r.obj r.off 16 0).recordRead r
  .ok (s, ⟨BitVec.ofNat 128 (ofBytes (readBytes s s.turn c r r.obj r.off 16 0)), porchTag s s.turn c r r.obj r.off 0⟩)

/-- `ldk` (R224, R356): variable latency, the ring unchanged. It sees the context's own held writes of the entry (R220). -/
def execLdk (kd : BitVec 4) (o : BitVec 6) (cls : BitVec 4) (s : State) : Host.Outcome State Fault Refusal :=
  slotOp (.ldk kd o cls) (fun c s => do
    let idx := (readInt s c .ib o).toNat
    let (obj, off, len) := keyTable s c.paddock
    let r := { accessP s c cls.toNat with obj := obj, off := off + 16 * idx, len := 16 }
    if c.fenced r then .error .wait
    need (decide (idx < len)) kBounds
    tierCheck s s.turn obj r.off 16 0
    portCheck s ⟨c.paddock, true⟩ none obj r.off 16 false 0
    let (s, v) ← readBlock s c r
    .ok (s.launch { Fly.nil .ib c.pos 1 with var := true, dst := some (.k kd.toNat, .cap v) })) s

/-! ### Atomics (R225 to R227) -/

/-- The bytes of an atomic's word by WIDTH (R225). -/
def amoBytes (w : BitVec 2) : Nat := if w = 1 then 8 else 4

/-- A commit of the porch in the middle of a segment, by an operation of a slot: it clears REPLAY (R227, R30). While it waits for room in a ring, the
core runs nothing else (R319). -/
def commitNow (sl : Slot) (s : State) : Except Stop State := match commitPorch s s.turn with
  | .ok s => .ok (s.modCur fun c => { c with replay := false })
  | .error (.later s) => .error (.later (s.modCur fun c => { c with ringWait := if ringShort s c then some sl else none }))
  | .error e => .error e

/-- The operands of an atomic, read at issue: the capability's value and tag, the offset, the operand and the comparison value. -/
def amoOperands (k : BitVec 3) (v cmp : State → Ctx → Word) (c : Ctx) (s : State) : List Nat :=
  let cap := readK s c .ib k.toNat
  [cap.val.toNat, b2n cap.tag, (readS s c .ib 0).toNat, (v s c).toNat, (cmp s c).toNat]

/-- `amo` (R226, R227): checked, the porch commits, the atomic performs, the old value returns. DESIGN CHOICE: a partial unit of a page with the fault policy
is no fault here, since R194 does not list the access (log 95). -/
def amo (aop : Nat) (r : BitVec 5) (k : BitVec 3) (w : BitVec 2) (scope : BitVec 3) (cls : BitVec 4) (v cmp : State → Ctx → Word) (c : Ctx)
    (s : State) : Except Stop State := do
  let l := (c.caught .ib).getD (amoOperands k v cmp c s)
  let cap : Cap := ⟨BitVec.ofNat 128 (l.getD 0 0), l.getD 1 0 == 1⟩
  let off := l.getD 2 0
  let n := amoBytes w
  let o := cap.base + off
  let a := { accessP s c cls.toNat with scope := scope.toNat, obj := cap.obj, off := o, len := n, kind := .atomic true [] }
  if (c.caught .ib).isNone then
    if c.fenced a then .error .wait
    checkAccess s s.turn c cap off n rightA true true 0
  let s ← commitNow .ib (keepOperands s s.turn .ib l)
  checkAfter s (do tierCheck s s.turn cap.obj o n 0; portCheck s (whoOf s.turn c) (some cap.gen) cap.obj o n true 0)
  if fillHeld s cap.obj o n 0 then .error (.later (holdFills s cap.obj o n 0))
  let (s, old) := performAtomic ((touch s cap.obj o n 0).recordRead (a.over s)) cap.obj o n aop (w == 2) (l.getD 3 0) (l.getD 4 0) 0
  .ok (s.launch (loadFly c r (zx old)))

/-- `red` (R226, R227): checked, then held. -/
def red (aop : Nat) (k : BitVec 3) (w : BitVec 2) (scope : BitVec 3) (cls : BitVec 4) (v : State → Ctx → Word) (c : Ctx) (s : State) :
    Except Stop State := do
  let cap := readK s c .ib k.toNat
  let off := (readS s c .ib 0).toNat
  let n := amoBytes w
  checkAccess s s.turn c cap off n rightA true false 0
  let x := v s c
  let s := touch s cap.obj (cap.base + off) n 0
  holdFenced s c (heldP c cls.toNat false scope.toNat cap off n (.red (BitVec.ofNat 4 aop) (w == 2) n x))

/-- An operand of an atomic that is not read. -/
def noOperand (_ : State) (_ : Ctx) : Word := 0
/-- A scalar source of IB. -/
def ibSource (v : BitVec 6) (s : State) (c : Ctx) : Word := readInt s c .ib v

/-- `amo.add` (R226). -/
def execAmoAdd (r : BitVec 5) (k xs : BitVec 3) (w : BitVec 2) (scope : BitVec 3) (cls : BitVec 4) (v : BitVec 6) (s : State) :
    Host.Outcome State Fault Refusal :=
  slotOp (.amoAdd r k xs w scope cls v) (amo 0 r k w scope cls (ibSource v) noOperand) s

/-- `amo.inc` (R226). -/
def execAmoInc (r : BitVec 5) (k xs : BitVec 3) (w : BitVec 2) (scope : BitVec 3) (cls : BitVec 4) (s : State) :
    Host.Outcome State Fault Refusal :=
  slotOp (.amoInc r k xs w scope cls) (amo 1 r k w scope cls noOperand noOperand) s

/-- `amo.and` (R226). -/
def execAmoAnd (r : BitVec 5) (k xs : BitVec 3) (w : BitVec 2) (scope : BitVec 3) (cls : BitVec 4) (v : BitVec 6) (s : State) :
    Host.Outcome State Fault Refusal :=
  slotOp (.amoAnd r k xs w scope cls v) (amo 2 r k w scope cls (ibSource v) noOperand) s

/-- `amo.or` (R226). -/
def execAmoOr (r : BitVec 5) (k xs : BitVec 3) (w : BitVec 2) (scope : BitVec 3) (cls : BitVec 4) (v : BitVec 6) (s : State) :
    Host.Outcome State Fault Refusal :=
  slotOp (.amoOr r k xs w scope cls v) (amo 3 r k w scope cls (ibSource v) noOperand) s

/-- `amo.xor` (R226). -/
def execAmoXor (r : BitVec 5) (k xs : BitVec 3) (w : BitVec 2) (scope : BitVec 3) (cls : BitVec 4) (v : BitVec 6) (s : State) :
    Host.Outcome State Fault Refusal :=
  slotOp (.amoXor r k xs w scope cls v) (amo 4 r k w scope cls (ibSource v) noOperand) s

/-- `amo.smin` (R226). -/
def execAmoSmin (r : BitVec 5) (k xs : BitVec 3) (w : BitVec 2) (scope : BitVec 3) (cls : BitVec 4) (v : BitVec 6) (s : State) :
    Host.Outcome State Fault Refusal :=
  slotOp (.amoSmin r k xs w scope cls v) (amo 5 r k w scope cls (ibSource v) noOperand) s

/-- `amo.smax` (R226). -/
def execAmoSmax (r : BitVec 5) (k xs : BitVec 3) (w : BitVec 2) (scope : BitVec 3) (cls : BitVec 4) (v : BitVec 6) (s : State) :
    Host.Outcome State Fault Refusal :=
  slotOp (.amoSmax r k xs w scope cls v) (amo 6 r k w scope cls (ibSource v) noOperand) s

/-- `amo.umin` (R226). -/
def execAmoUmin (r : BitVec 5) (k xs : BitVec 3) (w : BitVec 2) (scope : BitVec 3) (cls : BitVec 4) (v : BitVec 6) (s : State) :
    Host.Outcome State Fault Refusal :=
  slotOp (.amoUmin r k xs w scope cls v) (amo 7 r k w scope cls (ibSource v) noOperand) s

/-- `amo.umax` (R226). -/
def execAmoUmax (r : BitVec 5) (k xs : BitVec 3) (w : BitVec 2) (scope : BitVec 3) (cls : BitVec 4) (v : BitVec 6) (s : State) :
    Host.Outcome State Fault Refusal :=
  slotOp (.amoUmax r k xs w scope cls v) (amo 8 r k w scope cls (ibSource v) noOperand) s

/-- `amo.swap` (R226). -/
def execAmoSwap (r : BitVec 5) (k xs : BitVec 3) (w : BitVec 2) (scope : BitVec 3) (cls : BitVec 4) (v : BitVec 6) (s : State) :
    Host.Outcome State Fault Refusal :=
  slotOp (.amoSwap r k xs w scope cls v) (amo 9 r k w scope cls (ibSource v) noOperand) s

/-- `amo.cas` (R226). -/
def execAmoCas (r : BitVec 5) (k xs : BitVec 3) (w : BitVec 2) (scope : BitVec 3) (cls : BitVec 4) (v : BitVec 6) (cmp : BitVec 5) (s : State) :
    Host.Outcome State Fault Refusal :=
  slotOp (.amoCas r k xs w scope cls v cmp) (amo 10 r k w scope cls (ibSource v) (fun s c => readS s c .ib cmp.toNat)) s

/-- `amo.fadd` (R226, R109). -/
def execAmoFadd (r : BitVec 5) (k xs : BitVec 3) (w : BitVec 2) (scope : BitVec 3) (cls : BitVec 4) (v : BitVec 6) (s : State) :
    Host.Outcome State Fault Refusal :=
  slotOp (.amoFadd r k xs w scope cls v) (amo 11 r k w scope cls (ibSource v) noOperand) s

/-- `red.add` (R227). -/
def execRedAdd (k xs : BitVec 3) (w : BitVec 2) (scope : BitVec 3) (cls : BitVec 4) (v : BitVec 6) (s : State) :
    Host.Outcome State Fault Refusal :=
  slotOp (.redAdd k xs w scope cls v) (red 0 k w scope cls (ibSource v)) s

/-- `red.inc` (R227). -/
def execRedInc (k xs : BitVec 3) (w : BitVec 2) (scope : BitVec 3) (cls : BitVec 4) (s : State) :
    Host.Outcome State Fault Refusal :=
  slotOp (.redInc k xs w scope cls) (red 1 k w scope cls noOperand) s

/-- `red.and` (R227). -/
def execRedAnd (k xs : BitVec 3) (w : BitVec 2) (scope : BitVec 3) (cls : BitVec 4) (v : BitVec 6) (s : State) :
    Host.Outcome State Fault Refusal :=
  slotOp (.redAnd k xs w scope cls v) (red 2 k w scope cls (ibSource v)) s

/-- `red.or` (R227). -/
def execRedOr (k xs : BitVec 3) (w : BitVec 2) (scope : BitVec 3) (cls : BitVec 4) (v : BitVec 6) (s : State) :
    Host.Outcome State Fault Refusal :=
  slotOp (.redOr k xs w scope cls v) (red 3 k w scope cls (ibSource v)) s

/-- `red.xor` (R227). -/
def execRedXor (k xs : BitVec 3) (w : BitVec 2) (scope : BitVec 3) (cls : BitVec 4) (v : BitVec 6) (s : State) :
    Host.Outcome State Fault Refusal :=
  slotOp (.redXor k xs w scope cls v) (red 4 k w scope cls (ibSource v)) s

/-- `red.smin` (R227). -/
def execRedSmin (k xs : BitVec 3) (w : BitVec 2) (scope : BitVec 3) (cls : BitVec 4) (v : BitVec 6) (s : State) :
    Host.Outcome State Fault Refusal :=
  slotOp (.redSmin k xs w scope cls v) (red 5 k w scope cls (ibSource v)) s

/-- `red.smax` (R227). -/
def execRedSmax (k xs : BitVec 3) (w : BitVec 2) (scope : BitVec 3) (cls : BitVec 4) (v : BitVec 6) (s : State) :
    Host.Outcome State Fault Refusal :=
  slotOp (.redSmax k xs w scope cls v) (red 6 k w scope cls (ibSource v)) s

/-- `red.umin` (R227). -/
def execRedUmin (k xs : BitVec 3) (w : BitVec 2) (scope : BitVec 3) (cls : BitVec 4) (v : BitVec 6) (s : State) :
    Host.Outcome State Fault Refusal :=
  slotOp (.redUmin k xs w scope cls v) (red 7 k w scope cls (ibSource v)) s

/-- `red.umax` (R227). -/
def execRedUmax (k xs : BitVec 3) (w : BitVec 2) (scope : BitVec 3) (cls : BitVec 4) (v : BitVec 6) (s : State) :
    Host.Outcome State Fault Refusal :=
  slotOp (.redUmax k xs w scope cls v) (red 8 k w scope cls (ibSource v)) s

/-- `red.fadd` (R227, R109). -/
def execRedFadd (k xs : BitVec 3) (w : BitVec 2) (scope : BitVec 3) (cls : BitVec 4) (v : BitVec 6) (s : State) :
    Host.Outcome State Fault Refusal :=
  slotOp (.redFadd k xs w scope cls v) (red 11 k w scope cls (ibSource v)) s

/-! ### Fences (R229 to R231) -/

/-- A fence of the moving core issues: it completes now or later, and what comes after it is in another group (R229 to R231). -/
def openFence (s : State) (f : Act) : Except Stop State :=
  pumpFences (s.modCur fun c => { c with fencing := c.fencing ++ [f], group := c.group + 1 }) s.turn

/-- `fence` (R229, R231). -/
def execFence (scope xs : BitVec 3) (cmask : BitVec 16) (s : State) : Host.Outcome State Fault Refusal :=
  slotOp (.fence scope xs cmask) (fun c s => openFence s (fenceAct s.turn c scope.toNat cmask 0 false)) s

/-- `fence.x` (R230, R231). -/
def execFenceX (scope : BitVec 3) (paths : BitVec 6) (s : State) : Host.Outcome State Fault Refusal :=
  slotOp (.fenceX scope paths) (fun c s => openFence s (fenceAct s.turn c scope.toNat 0xFFFF paths true)) s

/-! ### Placement (R206, R236) -/

/-- `phase` (R236). DESIGN CHOICE: with `PHASEST.TGT` and TGT both 0 the range is empty, and the capability must still reach from at most its start to at
least its end (log 97). -/
def execPhase (k : BitVec 3) (t : BitVec 4) (s : State) : Host.Outcome State Fault Refusal :=
  slotOp (.phase k t) (fun c s => do
    let v := s.turn
    let cap := readK s c .cf k.toNat
    let p := s.phaseOf v
    need (cap.tag && cap.obj == 0xFF9000 + v && cap.has rightW) kRights
    let lo := 0x380000 - 0x40000 * max p.tgt t.toNat
    need (decide (cap.base ≤ lo) && decide (0x380000 ≤ cap.base + cap.len)) kBounds
    if p.busy then .error .wait
    if t.toNat = p.tgt then .ok s
    else .ok { s with phases := sput Phase.initial s.phases v ⟨t.toNat, max p.cur t.toNat, true⟩ }) s

end Sys2Proof.Machine
end

