-- ==== Sys2Proof/Machine/Caps.lean ====
section
/-! DEFINITION. The capability operations of CF (R363 to R367), `xlat.sync` and `pg.reform` (R357, R368 to R370). -/

namespace Sys2Proof.Machine
open Sys2Proof

/-! ### Registers (R363 to R366) -/

/-- A staging register `xs` as CF captures it (R26). -/
def readXsCf (s : State) (c : Ctx) (n : Nat) : Word := readStage s c .cf (8 + n)

/-- A capability result of CF, with latency 1. -/
def capFly (c : Ctx) (d : BitVec 4) (v : Cap) : Fly := { Fly.nil .cf c.pos 1 with dst := some (.k d.toNat, .cap v) }

/-- A scalar result of CF, with latency 1; it enters no ring (R365). -/
def cfFly (c : Ctx) (d : BitVec 5) (v : Word) : Fly := { Fly.nil .cf c.pos 1 with dst := some (.s d.toNat, .word v (BitVec.allOnes 64)) }

/-- `kmov` (R364). -/
def execKmov (d src : BitVec 4) (s : State) : Host.Outcome State Fault Refusal :=
  slotOp (.kmov d src) (fun c s => .ok (s.launch (capFly c d (readK s c .cf src.toNat)))) s

/-- What `kderive` makes of a capability (R364): the window moves and narrows; the tag stays only where the narrowing is allowed. -/
def deriveCap (k : Cap) (w0 w1 : Word) : Cap :=
  let off := bits w0 0 40
  let n := bits w1 0 40
  ⟨setBits (setBits k.val 56 40 (k.base + off)) 16 40 n,
    k.tag && k.has rightD && decide (off + n ≤ k.len) && bits w0 40 24 == 0 && bits w1 40 24 == 0⟩

/-- `kderive` (R364). -/
def execKderive (d src xb : BitVec 4) (s : State) : Host.Outcome State Fault Refusal :=
  slotOp (.kderive d src xb) (fun c s =>
    .ok (s.launch (capFly c d (deriveCap (readK s c .cf src.toNat) (readXsCf s c xb.toNat) (readXsCf s c (xb.toNat + 1)))))) s

/-- What `krestrict` makes of a capability (R364): L stays. -/
def restrictCap (k : Cap) (keep : BitVec 7) : Cap :=
  ⟨setBits k.val 96 7 (k.rights % 128 &&& keep.toNat), k.tag && k.has rightD⟩

/-- `krestrict` (R364). -/
def execKrestrict (d src : BitVec 4) (keep : BitVec 7) (s : State) : Host.Outcome State Fault Refusal :=
  slotOp (.krestrict d src keep) (fun c s => .ok (s.launch (capFly c d (restrictCap (readK s c .cf src.toNat) keep)))) s

/-- `kget.obj` (R365). -/
def execKgetObj (d : BitVec 5) (src : BitVec 4) (s : State) : Host.Outcome State Fault Refusal :=
  slotOp (.kgetObj d src) (fun c s => .ok (s.launch (cfFly c d (BitVec.ofNat 64 (readK s c .cf src.toNat).obj)))) s

/-- `kget.base` (R365). -/
def execKgetBase (d : BitVec 5) (src : BitVec 4) (s : State) : Host.Outcome State Fault Refusal :=
  slotOp (.kgetBase d src) (fun c s => .ok (s.launch (cfFly c d (BitVec.ofNat 64 (readK s c .cf src.toNat).base)))) s

/-- `kget.len` (R365). -/
def execKgetLen (d : BitVec 5) (src : BitVec 4) (s : State) : Host.Outcome State Fault Refusal :=
  slotOp (.kgetLen d src) (fun c s => .ok (s.launch (cfFly c d (BitVec.ofNat 64 (readK s c .cf src.toNat).len)))) s

/-- The word of `kget.rgt` (R365): rights, GEN and the tag. -/
def rightsWord (k : Cap) : Word := BitVec.ofNat 64 (b2n k.tag * 2 ^ 63 + k.gen * 65536 + k.rights)

/-- `kget.rgt` (R365). -/
def execKgetRgt (d : BitVec 5) (src : BitVec 4) (s : State) : Host.Outcome State Fault Refusal :=
  slotOp (.kgetRgt d src) (fun c s => .ok (s.launch (cfFly c d (rightsWord (readK s c .cf src.toNat))))) s

/-- The test of `kcheck` (R366). -/
def capHolds (k : Cap) (w0 w1 : Word) (rights : BitVec 8) : Bool :=
  k.tag && k.rights &&& rights.toNat == rights.toNat && decide (bits w0 0 40 + bits w1 0 40 ≤ k.len)

/-- `kcheck` (R366). -/
def execKcheck (p : BitVec 2) (src xb : BitVec 4) (rights : BitVec 8) (s : State) : Host.Outcome State Fault Refusal :=
  slotOp (.kcheck p src xb rights) (fun c s =>
    let v := capHolds (readK s c .cf src.toNat) (readXsCf s c xb.toNat) (readXsCf s c (xb.toNat + 1)) rights
    .ok (s.launch { Fly.nil .cf c.pos 1 with dst := some (.p p.toNat, .bit v) })) s

/-- `kclr` (R364). -/
def execKclr (d : BitVec 4) (s : State) : Host.Outcome State Fault Refusal :=
  slotOp (.kclr d) (fun c s => .ok (s.launch (capFly c d Cap.null))) s

/-- What `kmint` makes of two staging words (R364). -/
def mintCap (w0 w1 : Word) : Cap := ⟨w1 ++ w0, Cap.sound ⟨w1 ++ w0, false⟩⟩

/-- `kmint` (R364), at level S. -/
def execKmint (d xb : BitVec 4) (s : State) : Host.Outcome State Fault Refusal :=
  slotOp (.kmint d xb) (fun c s => .ok (s.launch (capFly c d (mintCap (readXsCf s c xb.toNat) (readXsCf s c (xb.toNat + 1)))))) s

/-! ### Capabilities in memory (R367) -/

/-- The checks of `kst` and `kld` (R367): `CheckAccess` over 16 bytes, and a block's own alignment. -/
def blockAccess (s : State) (c : Ctx) (cap : Cap) (off right : Nat) : Except Stop Unit := do
  need (cap.tag && cap.has right) kRights
  if (cap.base + off) % 16 != 0 then fatalAt kAlign cap.obj ((cap.base + off) % 2 ^ 40)
  checkAccess s s.turn c cap off 16 right true false 0

/-- `kst` (R367): held, the 16 bytes and the tag as one unit. -/
def execKst (k : BitVec 3) (src : BitVec 4) (o : BitVec 11) (s : State) : Host.Outcome State Fault Refusal :=
  slotOp (.kst k src o) (fun c s => do
    let cap := readK s c .cf k.toNat
    let off := 16 * o.toNat
    blockAccess s c cap off rightW
    let s := touch s cap.obj (cap.base + off) 16 0
    holdFenced s c { heldP c 0 false 0 cap off 16 (.cap (readK s c .cf src.toNat)) with slot := .cf }) s

/-- `kld` (R367): variable latency; the block's bytes and tag as one unit, through the porch. -/
def execKld (d : BitVec 4) (k : BitVec 3) (o : BitVec 11) (s : State) : Host.Outcome State Fault Refusal :=
  slotOp (.kld d k o) (fun c s => do
    let cap := readK s c .cf k.toNat
    let off := 16 * o.toNat
    let r := readAct s.turn c .cf .p 0 cap.obj (cap.base + off) 16
    if c.fenced r then .error .wait
    blockAccess s c cap off rightR
    let (s, v) ← readBlock s c r
    .ok (s.launch { capFly c d v with var := true })) s

/-! ### Translations (R353, R368) -/

/-- The commit that begins an `xlat.sync` or a `pg.reform`: that of a `fence .pkg, all` in its place (R231, R368, R369). -/
def syncCommit (s : State) (c : Ctx) : Except Stop State :=
  fenceSpill s s.turn { readAct s.turn c .cf .p 16 0 0 0 with scope := 4, kind := .fence 0xFFFF 0 false }

/-- Whether a core has begun a commit or spill of which some writes, checked already, are still to perform. -/
def committingOn (s : State) (core : Nat) : Bool := (s.ctxOf core).any fun c => c.committing && c.porch.any (·.due)

/-- What was checked under the entries that a shootdown invalidates and has not performed (R368): the other cores' commits that have begun (0, the core, 0),
and the messages that are not acknowledged (1, the connection, the number). -/
def syncMarks (s : State) : List Nat :=
  (s.cores.filter fun x => x.1 != s.turn && committingOn s x.1).flatMap (fun x => [0, x.1, 0])
    ++ s.conns.flatMap fun x => x.2.unacked.flatMap fun m => [1, x.1, m.seq]

/-- Whether a shootdown still waits for one of its marks. -/
def syncWaits (s : State) : List Nat → Bool
  | 0 :: core :: _ :: t => committingOn s core || syncWaits s t
  | _ :: cn :: q :: t => (s.conn cn).unacked.any (fun m => m.seq == q) || syncWaits s t
  | _ => false

/-- `xlat.sync` (R368), at level S: the porch commits, every cached entry is invalidated, and what was checked under one performs. Copies and tile
commands check their translations and generations again at each row (R354, log 74). -/
def execXlatSync (s : State) : Host.Outcome State Fault Refusal :=
  slotOp .xlatSync (fun c s => match c.caught .cf with
    | none => do
      let s ← syncCommit s c
      let s := { s with xlat := [] }
      let l := syncMarks s
      if syncWaits s l then .error (.later (keepOperands s s.turn .cf l))
      .ok s
    | some l => if syncWaits s l then .error .wait else .ok s) s

/-! ### `pg.reform` (R357, R369) -/

/-- The page entry that a reform would write: SF, DF, CMP and PBP of the second staging word, RF clear. -/
def reformed (pe : PageEnt) (w : Word) : PageEnt :=
  setBits (setBits (setBits (setBits (setBits pe 54 4 (bits w 0 4)) 50 4 (bits w 4 4)) 49 1 (bits w 8 1)) 48 1 (bits w 9 1)) 47 1 0

/-- Writes back and invalidates the L2 lines of a page (R357 step 2); with whether every one could go (R210, R281). -/
def flushPage (s : State) (obj : Nat) (e : ObjEnt) (pg : Nat) : State × Bool :=
  let mine := fun l : Line => l.obj == obj && l.page e == pg
  let r := (s.lines.filter mine).foldl (fun r l => match r.1.lineOf obj l.line l.home with
    | some l =>
      let pe := r.1.pageEnt e pg
      if l.dirty != 0 && l.home == pe.home obj (256 * l.line) then
        let x := sendLine r.1 e pe l
        (x.1, r.2 && x.2)
      else r
    | none => r) (s, true)
  (if r.2 then { r.1 with lines := r.1.lines.filter fun l => !mine l } else r.1, r.2)

/-- Clears the tags of a span of addresses. -/
def clearTags (s : State) (a n : Nat) : State := { s with tags := s.tags.filter fun t => !(decide (a ≤ 16 * t) && decide (16 * t < a + n)) }

/-- Whether another page's image covers the frame at an address: level S does not own it for this page (R370, log 83). -/
def frameShared (s : State) (obj pg a : Nat) : Bool :=
  (List.range s.objCount).any fun x =>
    let e := s.objEnt x
    s.isTable x && e.valid && (List.range ((e.size + e.page - 1) / e.page)).any fun i =>
      let pe := s.pageEnt e (i * e.page)
      !(x == obj && i * e.page == pg) && pe.resident e.page && meets (a, 65536) (pe.base, pe.image e.page)

/-- The frames of a new image past the old one that level S does not own take free bytes (R370). -/
def strayFrames (s : State) (obj : Nat) (e : ObjEnt) (pg : Nat) (pe new : PageEnt) : State :=
  let old := (pe.image e.page + 65535) / 65536
  let n := (new.image e.page + 65535) / 65536
  ((List.range (n - old)).map fun i => new.base + 65536 * (old + i)).foldl (fun t a =>
    if frameShared s obj pg a then t.pokes a ((List.range (min 65536 (new.base + new.image e.page - a))).map fun i => BitVec.ofNat 8 (s.pickAt 5501 (a + i) 0)) else t) s

/-- Writes a whole page from its delivered bytes under an entry (R357 step 4, R188 to R190): the compression states of its blocks with it
(R196), and on a Cellar stack its programming, none where that must wait (R210, R417). -/
def writePage (s : State) (e : ObjEnt) (pe : PageEnt) (data : List Byte) : Option State :=
  let s := if !pe.converts then s.pokes pe.base data
    else
      let rd := fun o => data.getD o 0
      let wd := codeBits pe.df / 8
      let n := e.page / wd
      let u := if pe.sf = 12 then 16384 else unitElems pe.sf
      (List.range (n / u)).foldl (fun s i =>
        if pe.sf = 12 then storeGroup s pe i (valuesAt rd pe.df (16384 * i) 16384) else storeUnit s pe (u * i) (valuesAt rd pe.df (u * i) u)) s
  let dev := deviceOf pe.base
  if 8 ≤ dev then programSpans s (dev - 8) [(pe.base, pe.image e.page)]
  else some (if pe.cmp then setCompr s (comprBlocks [(pe.base, e.page)]) else s)

/-- Steps 3 to 5 of R357, of a page whose lines have gone: none where its new image must wait. -/
def reformPage (s : State) (obj : Nat) (e : ObjEnt) (pg : Nat) (pe new : PageEnt) : Option State := do
  let data := (List.range e.page).map fun i => objByte s obj e pe (pg + i)
  let blocks := comprBlocks [(pe.base, pe.image e.page)]
  let s ← writePage (clearTags { s with compr := s.compr.filter fun x => !blocks.contains x.1 } pe.base (max (pe.image e.page) (new.image e.page))) e new data
  some (setPageEnt (strayFrames s obj e pg pe new) e pg new)

/-- The statuses of Table 22.2 that apply to a page other than 0; where several do, the one written is free (log 23). -/
def reformRefusals (e : ObjEnt) (pe new : PageEnt) (w : Word) : List Nat :=
  (if pe.resident e.page then [] else [1]) ++ (if new.pairOk && bits w 10 54 == 0 then [] else [2]) ++ (if pe.rf then [3] else [])

/-- The checks of `pg.reform` at issue (R369): tag and right W, the object, and the window over a whole page. -/
def reformCheck (s : State) (cap : Cap) (pg : Nat) : Except Stop Unit := do
  need (cap.tag && cap.has rightW && s.isTable cap.obj) kRights
  let e := s.objEnt cap.obj
  if !e.valid || cap.gen != e.gen then fatalAt kRevoked cap.obj pg
  need (pg % e.page == 0 && decide (cap.base ≤ pg) && decide (pg + e.page ≤ cap.base + cap.len) && decide (pg + e.page ≤ e.size)) kBounds

/-- The entry of a reform (R357 step 1, R369), after its commit: RF is tested and set in one step; a refused one ends with its status. A page whose
present formats no unit can decode raises the format fault (R94, R183). `l` its operands. -/
def reformBegin (s : State) (c : Ctx) (d : BitVec 5) (l : List Nat) (obj pg : Nat) (w : Word) : Except Stop State := do
  let e := s.objEnt obj
  let pe := s.pageEnt e pg
  let bad := reformRefusals e pe (reformed pe w) w
  if !bad.isEmpty then return s.launch (cfFly c d (BitVec.ofNat 64 (bad.getD (s.pick 5500 % bad.length) 0)))
  if !pe.pairOk then checkAfter s (fatalAt kFormat obj pg)
  let s := setPageEnt (wakeSpan s obj pg e.page) e pg (setBits pe 47 1 1)
  let s : State := { s with xlat := s.xlat.filter fun x => !(x.obj == obj && x.page == some (pg / e.page)) }
  .error (.later (keepOperands s s.turn .cf (l ++ 1 :: syncMarks s)))

/-- The rest of a reform (R357 steps 2 to 5), when what was checked under the old entry has performed. A page that its own write-back, or the writing of its
new image, finds on a stack that takes no writes is lost (R416): status 1. -/
def reformRun (s : State) (c : Ctx) (d : BitVec 5) (marks : List Nat) (obj pg : Nat) (w : Word) : Except Stop State := do
  if syncWaits s marks then .error .wait
  let e := s.objEnt obj
  let r := flushPage s obj e pg
  if !r.2 then .error (.later r.1)
  let s := r.1
  let pe := s.pageEnt e pg
  let dev := deviceOf pe.base
  if !pe.resident e.page then return s.launch (cfFly c d 1)
  if decide (8 ≤ dev) && decide (2 ≤ (s.cellar (dev - 8)).state) then return (markLost s obj pg).launch (cfFly c d 1)
  match reformPage s obj e pg pe (reformed pe w) with
  | some s => .ok (s.launch (cfFly c d 0))
  | none => .error (.later s)

/-- `pg.reform` (R369), at level S: the operands kept are the capability's value and tag, the page and the attributes; then, after its entry, the marks of its
shootdown. -/
def execPgReform (k xb : BitVec 4) (d : BitVec 5) (s : State) : Host.Outcome State Fault Refusal :=
  slotOp (.pgReform k xb d) (fun c s => do
    let l := (c.caught .cf).getD (let cap := readK s c .cf k.toNat
      [cap.val.toNat, b2n cap.tag, bits (readXsCf s c xb.toNat) 0 40, (readXsCf s c (xb.toNat + 1)).toNat])
    let cap : Cap := ⟨BitVec.ofNat 128 (l.getD 0 0), l.getD 1 0 == 1⟩
    let w := BitVec.ofNat 64 (l.getD 3 0)
    if (c.caught .cf).isNone then reformCheck s cap (l.getD 2 0)
    if 4 < l.length then reformRun s c d (l.drop 5) cap.obj (l.getD 2 0) w
    else reformBegin (← syncCommit (keepOperands s s.turn .cf l) c) c d l cap.obj (l.getD 2 0) w) s

end Sys2Proof.Machine
end

