-- ==== Sys2Proof/Machine/Control.lean ====
section
/-! DEFINITION. Control flow: transfers, hardware loops and the bucket dispatch (R72 to R77, R331, R332). -/

namespace Sys2Proof.Machine
open Sys2Proof

/-- `CheckTarget` (R72): the target is a bundle's offset within the code object. -/
def targetOk (s : State) (c : Ctx) (t : Int) : Bool :=
  decide (0 ≤ t) && decide (t % 32 = 0) && decide (t < ((s.seenObj c.codeObj 0).size : Nat))

/-- A transfer has chosen the next bundle, so that no end action applies (R77). -/
def choose (s : State) (t : Nat) : State :=
  s.modCur fun c => { c with issue := c.issue.map fun i => { i with target := some t, jumped := true } }

/-- A transfer to a target (R72, R77): the bounds fault, or the next bundle is chosen and no end action applies. -/
def goTo (c : Ctx) (s : State) (t : Int) : Except Stop State := do
  need (targetOk s c t) kBounds
  .ok (choose s t.toNat)

/-- A target that a displacement gives (Table 4.6). -/
def relative (c : Ctx) (disp : Int) : Int := c.pc + 32 * disp

/-- The link that a call writes: `s31`, with latency 1 in C (R74). -/
def linkFly (c : Ctx) : Fly :=
  { Fly.nil .c c.pos 1 with dst := some (.s 31, .word (BitVec.ofNat 64 (c.pc + 32)) (BitVec.allOnes 64)) }

/-- A call (R74): the target is checked before the link is written. -/
def callTo (c : Ctx) (s : State) (t : Int) : Except Stop State := do
  .ok ((← goTo c s t).launch (linkFly c))

/-- `nop` (R73). -/
def execNop (sl : Slot) (s : State) : Host.Outcome State Fault Refusal := slotOp (.nop sl) (fun _ s => .ok s) s

/-- `br` (R74). -/
def execBr (disp : BitVec 18) (s : State) : Host.Outcome State Fault Refusal :=
  slotOp (.br disp) (fun c s => goTo c s (relative c disp.toInt)) s

/-- `jmp` (R74). -/
def execJmp (src : BitVec 6) (s : State) : Host.Outcome State Fault Refusal :=
  slotOp (.jmp src) (fun c s => goTo c s (readInt s c .c src).toNat) s

/-- `call` (R74). -/
def execCall (disp : BitVec 18) (s : State) : Host.Outcome State Fault Refusal :=
  slotOp (.call disp) (fun c s => callTo c s (relative c disp.toInt)) s

/-- `callr` (R74). -/
def execCallr (src : BitVec 6) (s : State) : Host.Outcome State Fault Refusal :=
  slotOp (.callr src) (fun c s => callTo c s (readInt s c .c src).toNat) s

/-- `ret` (R75). -/
def execRet (s : State) : Host.Outcome State Fault Refusal :=
  slotOp .ret (fun c s => goTo c s (readS s c .c 31).toNat) s

/-- Replaces the loop of a counter. -/
def Ctx.setLoop (c : Ctx) (l : Bool) (f : Loop → Loop) : Ctx := if l then { c with lc1 := f c.lc1 } else { c with lc0 := f c.lc0 }

/-- `loop` (R76). -/
def execLoop (l : Bool) (cnt : BitVec 6) (e : BitVec 11) (s : State) : Host.Outcome State Fault Refusal :=
  slotOp (.loop l cnt e) (fun c s =>
    let n := (readInt s c .c cnt).setWidth 32
    let stop := c.pc + 32 * e.toNat
    if n = 0 then do
      let s ← goTo c s (stop + 32 : Nat)
      .ok ((s.launch (lcWrite c (b2n l) 0)).modCur fun c => c.setLoop l fun x => { x with active := false })
    else
      .ok (choose ((s.launch (lcWrite c (b2n l) n)).modCur fun x =>
        x.setLoop l fun y => { y with start := c.pc + 32, stop := stop, active := true }) (c.pc + 32))) s

/-- A table bundle of `bkt.jmp`, at a byte offset of the code object (R332): the bounds fault where it lies outside, the illegal-bundle
fault where it is no data bundle. -/
def tableBundle (s : State) (core : Nat) (c : Ctx) (o : Int) : Except Stop (State × BitVec 256) := do
  need (targetOk s c o) kBounds
  let r ← fetch s core { c with pc := o.toNat }
  need (bkind r.2 == 0xF) kIllegal
  .ok r

/-- The table bundles of `bkt.jmp` from the first, so many. -/
def tableBundles (core : Nat) (c : Ctx) (t : Int) : Nat → State → Except Stop (State × List (BitVec 256))
  | 0, s => .ok (s, [])
  | n + 1, s => do
    let (s, l) ← tableBundles core c t n s
    let (s, b) ← tableBundle s core c (t + 32 * n)
    .ok (s, l ++ [b])

/-- Pair p of a bucket table (R332): BOUND and TARGET. -/
def bucket (l : List (BitVec 256)) (p : Nat) : Nat × Nat :=
  let b := l.getD (p / 3) 0
  (bits b (64 + 64 * (p % 3)) 32, bits b (96 + 64 * (p % 3)) 32)

/-- `bkt.jmp` (R331, R332). -/
def execBktJmp (cnt : BitVec 6) (xs : BitVec 3) (tdisp : BitVec 20) (np : BitVec 4) (s : State) : Host.Outcome State Fault Refusal :=
  slotOp (.bktJmp cnt xs tdisp np) (fun c s => do
    let n := (readInt s c .c cnt).toNat % 2 ^ 32
    let (s, l) ← tableBundles s.turn c (relative c tdisp.toInt) (np.toNat / 3 + 1) s
    match ((List.range (np.toNat + 1)).map (bucket l)).find? fun p => decide (n ≤ p.1) with
    | some p => goTo c s (32 * p.2 : Nat)
    | none => .ok (choose s (c.pc + 32))) s

end Sys2Proof.Machine
end

