-- ==== Sys2Proof/Machine/Suspend.lean ====
section
/-! DEFINITION. Suspension points and what wakes them (18_suspend, R79, R400): the common sequence, the save area, `park`, `seg.mark`,
`exit`, `spawn`, `waitw`, `wakew`, the fold operations and `probe`. -/

namespace Sys2Proof.Machine
open Sys2Proof

/-! ### The save area (Table 18.3) -/

/-- The last write of a sticky register: every write has taken effect at a suspension point (R48). -/
def lastOf {α : Type} (base : α) (q : List (Nat × α)) : α := (q.head?.map (·.2)).getD base

/-- The saved registers of a context whose operations have all completed. -/
def Ctx.toSaved (c : Ctx) (smask : BitVec 24) (status waitv : Word) : Saved :=
  { next := c.pc, status := status, waitv := waitv, fmt := lastOf c.fmt c.fmtQ, vtype := lastOf c.vtype c.vtypeQ, vwin := lastOf c.vwin c.vwinQ,
    vact := lastOf c.vact c.vactQ
    fpctl := BitVec.ofNat 32 (b2n c.amaxNanAll * 4096 + c.flagsAll.toNat * 128 + (lastOf c.fpc c.fpcQ).toNat)
    amax := c.amaxAll, budget := c.budget, smask := smask, foldm := c.foldm, pmt := c.pmt, pred := c.p, farm := c.farm, lc0 := c.lc0, lc1 := c.lc1
    sregs := c.s.filter fun e => decide (8 ≤ e.1) && smask.getLsbD (e.1 - 8)
    keys := c.k, masks := c.m }

/-- The fields of a save area after the record's copy, from byte 64 to 831; LINK belongs to the return lane and is not written (log 17). -/
def Saved.fields (v : Saved) : List (Nat × Nat × Nat) :=
  [(64, 8, v.next), (80, 8, v.status.toNat), (88, 8, v.waitv.toNat), (96, 4, v.fmt.toNat), (100, 4, v.vtype.toNat), (104, 4, v.vwin.toNat),
   (108, 4, v.vact.toNat), (112, 4, v.fpctl.toNat), (116, 4, v.amax.toNat), (120, 4, v.budget.toNat), (124, 4, v.smask.toNat),
   (128, 8, v.foldm.toNat), (136, 8, v.pmt.toNat), (144, 1, v.pred.toNat / 2 * 2), (145, 1, b2n v.lc0.active + 2 * b2n v.lc1.active),
   (146, 1, v.farm.toNat), (147, 1, 0), (148, 4, v.lc0.count.toNat), (152, 4, v.lc1.count.toNat), (156, 4, 0), (160, 8, v.lc0.start),
   (168, 8, v.lc0.stop), (176, 8, v.lc1.start), (184, 8, v.lc1.stop)]
  ++ (List.range 24).map (fun i => (192 + 8 * i, 8, (sget 0 v.sregs (8 + i)).toNat))
  ++ (List.range 16).map (fun i => (384 + 16 * i, 16, (sget Cap.null v.keys i).val.toNat))
  ++ (List.range 3).map (fun j => (640 + 64 * j, 64, (sget 0 v.masks (j + 1)).toNat))
  ++ [(832, 192, 0)]

/-- The check that the write of a save area makes (R12, R312). -/
def saveCheck (s : State) (core : Nat) (c : Ctx) : Except Stop Unit := do
  tierCheck s core c.record.frameObj c.record.frameOff 1024 0
  portCheck s (whoOf core c) (some c.frameGen) c.record.frameObj c.record.frameOff 1024 true 0

/-- Whether the write of a save area must wait: its page is in reform, or its space is being cleared. -/
def saveWaits (s : State) (core : Nat) : Bool := match s.ctxOf core with
  | some c => c.hasRecord && (match saveCheck s core c with | .error .wait => true | _ => false)
  | none => false

/-- The fault that the write of a save area meets (R312); none where it passes. -/
def saveFault (s : State) (core : Nat) (c : Ctx) : Option FaultInfo :=
  match saveCheck s core c with
  | .error (.fatal f) => some f
  | _ => none

/-- Writes a save area: the record's copy, every field, and the tags of the key area (R313). -/
def writeSave (s : State) (r : Rec) (v : Saved) : State :=
  let obj := r.frameObj
  let o := r.frameOff
  let s := performBytes s obj 0 (atOffsets o (toBytes 64 r.toNat))
  let s := v.fields.foldl (fun s f => performBytes s obj 0 (atOffsets (o + f.1) (toBytes f.2.1 f.2.2))) s
  (List.range 16).foldl (fun s i =>
    if (sget Cap.null v.keys i).tag && carriesTag s obj (o + 384 + 16 * i) 0 then s.tagBlock (locAddr s obj (o + 384 + 16 * i) 0) else s) s

/-- The record's copy as a suspension point writes it (R290, R424): FOLD01, WAIT, CTL, PERMITS, SEQ and a fresh CHECK. -/
def saveRecord (r : Rec) (foldm pmt : Word) (wait : Nat) (pinf : Bool) : Rec :=
  Rec.sealed (setBits (setBits (setBits (setBits r 160 32 foldm.toNat) 192 64 wait) 257 2 (1 + 2 * b2n pinf)) 384 64 pmt.toNat)

/-! ### The common sequence (R310, R311, R314) -/

/-- The course of a suspension point. -/
inductive Course
  /-- the context continues, with a status word -/
  | stay (status : Nat)
  /-- the record leaves the core: the WAIT field, PINF, and what it waits for; none: it goes to RETURNING at once -/
  | leave (wait : Nat) (pinf : Bool) (on : Option (WakeOn × Act))
  /-- the record is RETIRED (R79) -/
  | retire
  deriving DecidableEq, Repr

/-- Step 1 of R310: the engines are idle and no tile is `FILLING` or `DRAINING`. -/
def quiet (s : State) (core : Nat) : Bool :=
  let x := s.core core
  x.mx.isEmpty && x.cp.isEmpty && x.tiles.all fun t => bits t.2 92 3 != 1 && bits t.2 92 3 != 3

/-- A context after a stay (R314, R30): the saved kind as it stands, the lost kind at first-pickup values; the segment begins here. -/
def Ctx.afterStay (c : Ctx) (v : Saved) : Ctx :=
  { freshCtx with
    record := saveRecord c.record c.foldm c.pmt 0 false, hasRecord := c.hasRecord, frameGen := c.frameGen, paddock := c.paddock, codeObj := c.codeObj
    pc := c.pc, mode := c.mode, pend := c.pend
    s := sput 0 (c.s.filter fun e => decide (8 ≤ e.1)) 0 v.status
    p := c.p, lc0 := c.lc0, lc1 := c.lc1, k := c.k, m := c.m, fmt := v.fmt, vtype := v.vtype, vwin := v.vwin, vact := v.vact
    fpc := (v.fpctl.setWidth 5), flags := c.flagsAll, amax := c.amaxAll, amaxNan := c.amaxNanAll, budget := c.budget, foldm := c.foldm, farm := c.farm
    replay := c.hasRecord && c.record.repl, pmt := c.pmt, tvec := c.tvec, trapRet := lastOf c.trapRet c.trapRetQ, held := c.held, parkAsked := c.parkAsked
    segNo := c.segNo + 1, start := v, firstSeg := false }

/-- A stay: the per-core state as after a switch (R314), the context with its status word. -/
def stayAt (s : State) (core : Nat) (c : Ctx) (v : Saved) : State :=
  s.setCore core { Core.vacate core (s.core core) with ctx := some (c.afterStay v) }

/-- A record that a fold has counted among its waiters does not come to wait. -/
def unwait (s : State) (on : Option (WakeOn × Act)) : State := match on with
  | some (.fold fid _ _, _) => s.setFold fid (setBits (s.fold fid) 16 16 ((s.fold fid).waiters - 1))
  | _ => s

/-- Steps 4 and 5 of R310 for a context whose check is done: the save area is written, and the course taken. A firmware context has no
save area and no record to wait with: it stays, with CAUSE 4 where it would have left (log 18). -/
def takeCourse (s : State) (core : Nat) (smask : BitVec 24) (waitv : Word) (course : Course) : Except Stop State :=
  match s.ctxOf core with
  | none => .ok s
  | some c =>
    match course with
    | .retire =>
      -- the loops become inactive (R78, R79); the status word of a retired record is open
      let c := { c with lc0 := { c.lc0 with active := false }, lc1 := { c.lc1 with active := false } }
      let gone := fun (s : State) => s.setCore core (Core.vacate core (s.core core))
      if !c.hasRecord then .ok (gone s)
      else match saveFault s core c with
        | some f => .error (.after s f)
        | none => .ok (gone (writeSave s (saveRecord c.record c.foldm c.pmt 0 false) (c.toSaved smask (BitVec.ofNat 64 (s.pick 7000)) waitv)))
    | .stay st =>
      let v := c.toSaved smask (BitVec.ofNat 64 st) waitv
      if !c.hasRecord then .ok (stayAt s core c v)
      else match saveFault s core c with
        | some f => .error (.after s f)
        | none => .ok (stayAt (writeSave s (saveRecord c.record c.foldm c.pmt 0 false) v) core c v)
    | .leave wait pinf on =>
      if !c.hasRecord then .ok (stayAt s core c (c.toSaved smask 4 waitv))
      else match saveFault s core c with
        | some f => .error (.after (unwait s on) f)
        | none =>
          -- STATUS is written by the wake (R313); until then its value is open
          let st := if on.isNone then 1 else BitVec.ofNat 64 (s.pick 7000)
          let s := writeSave s (saveRecord c.record c.foldm c.pmt wait pinf) (c.toSaved smask st waitv)
          let s := s.setCore core (Core.vacate core (s.core core))
          match on with
          | none => .ok { s with returning := s.returning ++ [⟨c.record.frameObj, c.record.frameOff, c.record.pasture, none, none⟩] }
          | some w => .ok { s with waiting := s.waiting ++ [⟨c.record.frameObj, c.record.frameOff, c.record.pasture, w.1, s.time, w.2⟩] }

/-- The context stands past the commit of its suspension point: its segment can no longer be aborted (R79, R310). -/
def pastCommit (s : State) (core : Nat) : State := s.modCtx core fun c => { c with committing := true }

/-- Step 3 after the commit (R310, R320): a fatal event ends the context as it stands, and a wait keeps what the commit performed. -/
def afterCommit {α : Type} (s : State) (core : Nat) (r : Except Stop α) : Except Stop α := match r with
  | .error (.fatal f) => .error (.after s f)
  | .error .wait => .error (.later (pastCommit s core))
  | r => r

/-- Whether a command of a core's context is complete but for its status word, whose write waits (R252). -/
def statusDue (s : State) (core : Nat) : Bool := (s.ctxOf core).any fun c =>
  s.tracked.any fun t => t.core == core && t.owner == (c.record.frameObj, c.record.frameOff) && t.rows.isEmpty && t.unsent == 0

/-- Steps 2 to 5 of R310 from the commit on: the save area must not be in reform or in a space that is being cleared, before the commit goes on
(so that the check of R328 is in the step of the last write) and after it. -/
def commitPoint (core : Nat) (s : State) : Except Stop State := do
  if saveWaits s core then .error (.later s)
  let s ← commitPorch s core
  if saveWaits s core || statusDue s core then .error (.later (pastCommit s core))
  .ok s

/-- The operands that a suspension operation caught at its issue. -/
def Ctx.suspended (c : Ctx) : Option (List Nat) := c.issue.bind (·.suspended)
/-- Keeps the operands of a suspension operation. -/
def keepSuspended (s : State) (core : Nat) (l : List Nat) : State :=
  s.modCtx core fun c => { c with issue := c.issue.map fun i => { i with suspended := some l } }
/-- Whether slots other than C have still to issue the bundle. -/
def othersPending (s : State) (core : Nat) : Bool :=
  (s.ctxOf core).any fun c => c.issue.any fun i => i.pending.any (· != .c)
/-- The C slot goes on after the other slots have issued the bundle. -/
def afterOthers (s : State) (core : Nat) : State :=
  s.modCtx core fun c => { c with issue := c.issue.map fun i => { i with pending := (i.pending.filter (· != .c)) ++ [.c] } }

/-- The suspension sequence of a context on a core, which takes effect once every slot has issued its bundle (R310): the operands `l` are
those read at issue. -/
def suspend (core : Nat) (l : List Nat) (smask : BitVec 24) (waitv : Word) (check : State → Except Stop (State × Course)) (s : State) :
    Except Stop State := do
  let s := keepSuspended s core l
  if othersPending s core then .error (.later (afterOthers s core))
  if !quiet s core then .error (.later s)
  -- the end action applies once (R77)
  let s := s.modCtx core fun c => { endAction s c with issue := (endAction s c).issue.map fun i => { i with jumped := true } }
  let s ← commitPoint core (s.drain core)
  let (s, course) ← afterCommit s core (check s)
  takeCourse (s.modCtx core (endBundle s)) core smask waitv course

/-- A suspension operation of the C slot: its checks at issue, made once, give the operands that it keeps. -/
def suspendOp (issueCheck : Ctx → State → Except Stop (List Nat)) (smask : BitVec 24) (waitv : List Nat → Word)
    (check : List Nat → State → Except Stop (State × Course)) (c : Ctx) (s : State) : Except Stop State := do
  let l ← match c.suspended with
    | some l => .ok l
    | none => issueCheck c s
  suspend s.turn l smask (waitv l) (check l) s

/-- Every `s8` to `s31` is saved. -/
def saveAll : BitVec 24 := 0xFFFFFF

/-- `park` (R316): always a switch to RETURNING. -/
def execPark (xs : BitVec 3) (mask : BitVec 24) (s : State) : Host.Outcome State Fault Refusal :=
  slotOp (.park xs mask) (suspendOp (fun _ _ => .ok []) mask (fun _ => 0) fun _ s => .ok (s, .leave 0 false none)) s

/-- `seg.mark` (R317): always a stay with CAUSE 9. -/
def execSegMark (s : State) : Host.Outcome State Fault Refusal :=
  slotOp .segMark (suspendOp (fun _ _ => .ok []) saveAll (fun _ => 0) fun _ s => .ok (s, .stay 9)) s

/-- `exit` (R79): the record is retired. -/
def execExit (s : State) : Host.Outcome State Fault Refusal :=
  slotOp .exit (suspendOp (fun _ _ => .ok []) saveAll (fun _ => 0) fun _ s => .ok (s, .retire)) s

/-- A forced park of a context that stands at a bundle boundary (R48, R302, R372): as `park all`. -/
def forcePark (s : State) (core : Nat) : Except Stop State := do
  if !quiet s core then .error .wait
  let s ← commitPoint core (s.drain core)
  takeCourse (s.modCtx core fun c => { c with parkAsked := false }) core saveAll 0 (.leave 0 false none)

/-! ### `spawn` (R318) -/

/-- `spawn`. -/
def execSpawn (k : BitVec 3) (o p : BitVec 6) (s : State) : Host.Outcome State Fault Refusal :=
  slotOp (.spawn k o p) (fun c s => do
    let cap := readK s c .c k.toNat
    let off := (readInt s c .c o).toNat
    let pid := (readInt s c .c p).toNat
    need (cap.tag && cap.has rightR) kRights
    if off % 64 != 0 then fatalAt kAlign cap.obj ((cap.base + off) % 2 ^ 40)
    if cap.len < off + 64 then fatalAt kBounds cap.obj ((cap.base + max off cap.len) % 2 ^ 40)
    tierCheck s s.turn cap.obj (cap.base + off) 64 0
    need (decide (pid ≤ 4095)) kBounds
    let d := s.pasture pid
    need (pastValid d && pastPaddock d == c.paddock && pastCmask d != 0) kRights
    holdFenced s c { heldP c 0 true 4 cap off 64 (.spawn pid) with slot := .c }) s

/-! ### `waitw` and `wakew` -/

/-- The tiers that `waitw` and `wakew` accept (R320, R324): a room of the die, or a page that is neither Cellar nor remote. -/
def watchTier (s : State) (core obj o n : Nat) : Except Stop Unit :=
  if isLocal obj then (if isRoom obj && reaches core obj then .ok () else fatalAt kTier obj o) else tierCheck s core obj o n 0

/-- The checks at issue of an operation on a watched word (R320, R324). -/
def watchCheck (s : State) (core : Nat) (cap : Cap) (off n right : Nat) : Except Stop Unit := do
  need (cap.tag && cap.has right) kRights
  if off % n != 0 then fatalAt kAlign cap.obj ((cap.base + off) % 2 ^ 40)
  if cap.len < off + n then fatalAt kBounds cap.obj ((cap.base + max off cap.len) % 2 ^ 40)
  watchTier s core cap.obj (cap.base + off) n

/-- The point of order of a word (R201, R209, Table 12.1): a room's vault port, or the home slice of the word's line on its page's die, numbered after
the ports. -/
def orderPoint (s : State) (obj o : Nat) : Nat :=
  if isLocal obj then spaceNo obj - 288
  else 288 + homeOf obj o (stackDie (deviceOf (pageFor s obj (s.seenObj obj 0) (o / (s.seenObj obj 0).page * (s.seenObj obj 0).page) 0).base))

/-- Whether the watch table of a word's point of order has an entry for it (R322): 256 entries, one for each word. -/
def watchRoom (s : State) (obj o n : Nat) : Bool :=
  let words := (s.waiting.filterMap fun w => match w.on with
    | .word m _ _ _ x off _ _ => if orderPoint s x off == orderPoint s obj o then some (x, off, m) else none
    | _ => none).eraseDups
  words.contains (obj, o, n) || decide (words.length < 256)

/-- The check of `waitw` (R320, R321): the word is read at its point of order, and the record stays or its watch is armed. -/
def waitCheck (core : Nat) (cond n scope : Nat) (cap : Cap) (off : Nat) (v : Word) (s : State) : Except Stop (State × Course) :=
  match s.ctxOf core with
  | none => .ok (s, .retire)
  | some c => do
    let o := cap.base + off
    portCheck s (whoOf core c) (some cap.gen) cap.obj o n false 0
    if fillHeld s cap.obj o n 0 then .error (.later (pastCommit (holdFills s cap.obj o n 0) core))
    let a := { readAct core c .c .p 16 cap.obj o n with scope := scope, kind := .read true [] }
    let s := (fillSpan (touch s cap.obj o n 0) cap.obj o n 0).recordRead a
    let w := ofBytes (partyBytes s cap.obj o n 0)
    if (cond = 0 ∧ w ≠ v.toNat) ∨ (cond = 1 ∧ w = v.toNat) then .ok (s, .stay 8)
    else if watchRoom s cap.obj o n then
      .ok (s, .leave (2 ^ 60) false (some (.word n cond v scope cap.obj o cap.gen c.paddock, a)))
    else .ok (s, .stay 4)

/-- A capability from operands that an operation has kept. -/
def keptCap (l : List Nat) : Cap := ⟨BitVec.ofNat 128 (l.getD 0 0), l.getD 1 0 == 1⟩

/-- `waitw` (R320, R321): the operands kept are the capability, the offset and the comparison value's low bytes. -/
def execWaitw (k xs : BitVec 3) (o : BitVec 6) (cond : BitVec 2) (w64 : Bool) (scope : BitVec 3) (v : BitVec 6) (s : State) :
    Host.Outcome State Fault Refusal :=
  let n := if w64 then 8 else 4
  slotOp (.waitw k xs o cond w64 scope v) (suspendOp (fun c s => do
      let cap := readK s c .c k.toNat
      let off := (readInt s c .c o).toNat
      watchCheck s s.turn cap off n rightR
      .ok [cap.val.toNat, b2n cap.tag, off, if cond = 2 then 0 else (readInt s c .c v).toNat % 256 ^ n])
    saveAll (fun l => BitVec.ofNat 64 (l.getD 3 0))
    fun l s => waitCheck s.turn cond.toNat n scope.toNat (keptCap l) (l.getD 2 0) (BitVec.ofNat 64 (l.getD 3 0)) s) s

/-- `wakew` (R324): held, after every earlier write. -/
def execWakew (k xs : BitVec 3) (o : BitVec 6) (scope : BitVec 3) (n : BitVec 16) (s : State) : Host.Outcome State Fault Refusal :=
  slotOp (.wakew k xs o scope n) (fun c s => do
    let cap := readK s c .c k.toNat
    let off := (readInt s c .c o).toNat
    watchCheck s s.turn cap off 4 rightW
    holdFenced s c { heldP c 16 true scope.toNat cap off 4 (.wake n.toNat scope.toNat) with slot := .c }) s

/-! ### Folds (R325 to R329) -/

/-- The `FOLDM` entry that a fold operation uses (R325). -/
def foldEntry (s : State) (c : Ctx) (fid : Nat) : Except Stop Nat :=
  match foldmFind c.foldm fid with
  | none => fatal kFold
  | some i => do
    need ((s.fold fid).valid && (s.fold fid).lvl == (foldmEntry c.foldm i).2.1) kFold
    .ok i

/-- Holds an arrival (R326): a release of the fold's scope. That of `fold.sync` follows its whole bundle (R328). -/
def holdArrive (s : State) (c : Ctx) (i fid : Nat) (slot : Slot) : Except Stop State :=
  holdFenced s c { heldP c 16 true ((s.fold fid).lvl + 1) Cap.null 0 0 (.arrive i fid) with slot := slot }

/-- `fold.arrive` (R326). -/
def execFoldArrive (fid : BitVec 10) (s : State) : Host.Outcome State Fault Refusal :=
  slotOp (.foldArrive fid) (fun c s => do holdArrive s c (← foldEntry s c fid.toNat) fid.toNat .c) s

/-- The check of `fold.wait` (R327), for entry i. -/
def foldCheck (fid : Nat) (i : Nat) (s : State) : Except Stop (State × Course) :=
  match s.cur with
  | none => .ok (s, .retire)
  | some c =>
    let f := s.fold fid
    let a := { readAct s.turn c .c .p 16 (foldPseudo fid) 0 1 with scope := f.lvl + 1, kind := .read true [] }
    let arm := c.farm.getLsbD i
    if arm && f.phase != c.farm.getLsbD (4 + i) then
      .ok ((s.recordRead a).modCur fun c => { c with farm := BitVec.ofNat 8 (clearArm i c.farm.toNat) }, .stay 8)
    else
      .ok (s.setFold fid (setBits f 16 16 (f.waiters + 1)),
        .leave (2 * 2 ^ 60 + b2n f.phase * 1024 + fid) false (some (.fold fid f.phase i, a)))

/-- `fold.wait` (R327): a suspension point. -/
def execFoldWait (fid : BitVec 10) (s : State) : Host.Outcome State Fault Refusal :=
  slotOp (.foldWait fid) (suspendOp (fun c s => do .ok [← foldEntry s c fid.toNat]) saveAll (fun _ => 0)
    fun l s => foldCheck fid.toNat (l.getD 0 0) s) s

/-- `fold.sync` (R328): the arrival is the last write of the commit, and the check follows it. -/
def execFoldSync (fid : BitVec 10) (s : State) : Host.Outcome State Fault Refusal :=
  slotOp (.foldSync fid) (fun c s => do
    let i ← match c.suspended with
      | some l => .ok (l.getD 0 0)
      | none => foldEntry s c fid.toNat
    let s ← if (c.caught .c).isSome || othersPending s s.turn then .ok s
      else .ok (keepOperands (← holdArrive s c i fid.toNat .cf) s.turn .c [])
    suspendOp (fun _ _ => .ok [i]) saveAll (fun _ => 0) (fun l s => foldCheck fid.toNat (l.getD 0 0) s) c s) s

/-- Adds a count to a fold's PENDING (R305, R329). -/
def foldAdd (s : State) (fid : Nat) (n : Int) : Except Stop State :=
  let f := s.fold fid
  let v := f.pending + n
  if 2 ^ 31 - 1 < v ∨ v < -(2 ^ 31) then .error (.after s ⟨kFold, 0, none, 0, false⟩)
  else .ok (settleFold (s.setFold fid (f.setPending v)) fid)

/-- `fold.bytes` (R329): the porch commits, REPLAY is cleared, and the count is added. -/
def execFoldBytes (n : BitVec 6) (fid : BitVec 10) (s : State) : Host.Outcome State Fault Refusal :=
  slotOp (.foldBytes n fid) (fun c s => do
    let l ← match c.caught .c with
      | some l => .ok l
      | none => do
        let _ ← foldEntry s c fid.toNat
        .ok [(readInt s c .c n).toNat % 2 ^ 32]
    foldAdd (← commitNow .c (keepOperands s s.turn .c l)) fid.toNat (signed 32 (l.getD 0 0))) s

/-! ### `probe` and the pinfold (R399, R400) -/

/-- Whether the slot of an entry is free: done, or never written (R399). -/
def pinFree (s : State) (cl seq : Nat) : Bool := decide (seq < 1023) || s.num (s.pinEntry cl seq + 13) 1 == 3

/-- Whether a page counts as resident for a probe (R400). -/
def probeOk (s : State) (e : ObjEnt) (wr : Bool) (pg : Nat) : Bool :=
  let pe := s.pageEnt e pg
  (pe.p && pe.tier == 2) || (pe.resident e.page && (!wr || pe.wr))

/-- Table 24.6. -/
def pinEntryBytes (s : State) (core : Nat) (c : Ctx) (cap : Cap) (e : ObjEnt) (wr : Bool) (seq off len pg : Nat) : List Byte :=
  let pe := s.pageEnt e pg
  let d := s.pasture c.record.pasture
  toBytes 8 seq ++ toBytes 2 core ++ toBytes 1 (min c.record.prio (pastPrio d))
    ++ toBytes 1 ((if pe.tier = 3 then 1 else if pe.resident e.page then 2 else 0) + 4 * b2n wr) ++ toBytes 1 e.tdef ++ toBytes 1 0 ++ toBytes 2 0
    ++ toBytes 8 (c.record.frameObj * 2 ^ 40 + c.record.frameOff) ++ toBytes 16 cap.val.toNat ++ toBytes 8 pg
    ++ toBytes 8 off ++ toBytes 4 len ++ toBytes 4 0

/-- The check of `probe` (R400). -/
def probeCheck (core : Nat) (wr : Bool) (cap : Cap) (off len : Nat) (s : State) : Except Stop (State × Course) :=
  match s.ctxOf core with
  | none => .ok (s, .retire)
  | some c =>
    if len = 0 then .ok (s, .stay 8) else do
    let o := cap.base + off
    let obj := cap.obj
    let free := levelOf core != .u
    if isLocal obj then
      let d := s.desc obj
      if cap.gen != bits d 0 16 then fatalAt kRevoked obj o
      if !free && c.paddock != bits d 16 16 then fatalAt kPaddock obj o
      if spaceSize obj < o + len then fatalAt kBounds obj (max o (spaceSize obj))
      -- a lost region behaves as a lost page (R407)
      .ok (s, .stay (if (pagesOf 65536 o len).any (s.lostRegion obj) then 13 else 8))
    else
      if !s.isTable obj then fatalAt kRights obj o
      let e := s.seenObj obj 0
      if !e.valid || cap.gen != e.gen then fatalAt kRevoked obj o
      if !free && !e.permits c.paddock then fatalAt kPaddock obj o
      if e.size < o + len then fatalAt kBounds obj (max o e.size)
      let pgs := pagesOf e.page o len
      match pgs.find? fun pg => !probeOk s e wr pg with
      | none => .ok (s, .stay 8)
      | some pg =>
        let cl := clusterOf core
        let seq := s.num (s.pinfold cl) 8
        if pgs.any fun pg => (s.pageEnt e pg).lost then .ok (s, .stay 13)
        else if !pinFree s cl seq then .ok (s, .stay 12)
        else
          let prio := min c.record.prio (pastPrio (s.pasture c.record.pasture))
          let s := s.hubWrite (s.pinEntry cl seq) 64 (ofBytes (pinEntryBytes s core c cap e wr seq o len pg))
          let s := s.hubWrite (s.pinfold cl) 8 (seq + 1)
          let s := s.tell cl 0 (noticeOf s (unitOf core) kPinfold core 0 seq)
          .ok (s, .leave 0 true (some (.pinfold cl seq prio 0, readAct core c .c .p 16 0 0 0)))

/-- `probe` (R400): the operands kept are the capability, the offset and the length. -/
def execProbe (k : BitVec 3) (w : Bool) (o l : BitVec 6) (s : State) : Host.Outcome State Fault Refusal :=
  slotOp (.probe k w o l) (suspendOp (fun c s => do
      let cap := readK s c .c k.toNat
      let off := (readInt s c .c o).toNat
      let len := (readInt s c .c l).toNat
      if len != 0 then
        need (cap.tag && cap.has (if w then rightW else rightR)) kRights
        if 67108864 < len ∨ cap.len < off + len then fatalAt kBounds cap.obj ((cap.base + max off (min cap.len (off + 67108864))) % 2 ^ 40)
      .ok [cap.val.toNat, b2n cap.tag, off, len])
    saveAll (fun _ => 0) fun l s => probeCheck s.turn w (keptCap l) (l.getD 2 0) (l.getD 3 0) s) s

end Sys2Proof.Machine
end

