-- ==== Sys2Proof/Machine/Tile.lean ====
section
/-! DEFINITION. The tile table: its entries (Table 2.17), the state gate (Table 2.18) and the tile operations of CF (R256 to R261). -/

namespace Sys2Proof.Machine
open Sys2Proof

/-! ### States and entries (Tables 2.17, 2.18) -/

/-- `EMPTY`. -/
def tEmpty : Nat := 0
/-- `FILLING`. -/
def tFilling : Nat := 1
/-- `READY`. -/
def tReady : Nat := 2
/-- `DRAINING`. -/
def tDraining : Nat := 3
/-- `FAILED`. -/
def tFailed : Nat := 4

/-- A tile entry of a core. -/
def State.tile (s : State) (core n : Nat) : Tile := sget 0 (s.core core).tiles n
/-- Replaces a tile entry. -/
def State.setTile (s : State) (core n : Nat) (t : Tile) : State := s.modCore core fun x => { x with tiles := sput 0 x.tiles n t }
/-- Sets a tile's state. -/
def State.tileTo (s : State) (core n st : Nat) : State := s.setTile core n (tileState (s.tile core n) st)

/-- The state gate (Table 2.18) on an operation that reads or writes a tile. -/
def tileGate (t : Tile) (write : Bool) : Except Stop Unit :=
  if t.state = tFilling then .error .wait
  else if t.state = tReady then .ok ()
  else if t.state = tDraining then (if write then .error .wait else .ok ())
  else fatalR kTile t.err

/-- Whether the gate makes an operation on a tile wait, and the fault that it raises else (Table 2.18), for checks in no stated order. -/
def tileWaits (t : Tile) (write : Bool) : Bool := t.state == tFilling || (write && t.state == tDraining)
/-- Whether the gate lets a tile that is not waited for pass. -/
def tileUsable (t : Tile) : Bool := t.state == tReady || t.state == tDraining

/-- The tiles that an operation of XC or CF names in its word (R239). -/
def namedTiles : Instr → List Nat
  | .cpFill t _ _ _ _ | .cpDrain t _ _ _ _ | .cpGath t _ _ _ | .cpScat t _ _ _ | .cpBcst t _ _ _ | .cpRedFadd t _ _ _ | .cpRedBf2Add t _ _ _
  | .cpRedIntAdd t _ _ _ | .cpRedSmax t _ _ _ | .cpRedUmax t _ _ _ | .cpSelr t _ _ _ | .cpSelc t _ _ _ | .cpRmaPut t _ _ _ | .cpRmaGet t _ _ _
  | .cpRamo t _ _ _ | .cpGdrain t _ _ _ | .cpCancel t | .ttDef t _ _ | .ttFree t | .ttBind t _ | .ttUnbind t | .ttMark t _ | .ttMarkWait t _
  | .ttMarkNofold t | .ttRd t _ _ => [t.toNat]
  | _ => []
/-- Whether an operation may name an index tile, which its staging word gives at its issue. -/
def mayIndex : Instr → Bool
  | .cpGath _ _ _ _ | .cpScat _ _ _ _ | .cpRmaPut _ _ _ _ | .cpRmaGet _ _ _ _ | .cpRamo _ _ _ _ | .cpCancelAll => true
  | _ => false

/-- Whether the tile gate's order makes an operation that names a tile wait (R239). -/
def Ctx.tileLater (c : Ctx) (n : Nat) : Bool := c.beforeIt fun i => (namedTiles i).contains n || mayIndex i

/-- A tile as an operation finds it, once those before it that name it have issued (R239). -/
def tileNow (s : State) (c : Ctx) (n : Nat) : Except Stop Tile := if c.tileLater n then .error .wait else .ok (s.tile s.turn n)

/-- Whether an `mma` that has not read its last operand byte holds a tile (R169). -/
def heldByMma (s : State) (core n : Nat) : Bool :=
  (s.core core).mx.any fun m => m.kind == 1 && decide (m.done < m.rows) && m.names.contains n

/-- The conditions under which `tt.def` and `tt.free` wait (R257, R258). -/
def tileBusy (s : State) (core n : Nat) : Bool :=
  let st := (s.tile core n).state
  st == tFilling || st == tDraining || heldByMma s core n

/-- A staging register `ts0` to `ts3` as CF captures it (R26, R132). -/
def readTs (s : State) (c : Ctx) (n : Nat) : Word := readStage s c .cf (24 + n)

/-- The conditions of `tt.def` on the entry (R257, check 2). -/
def tileOk (s : State) (core : Nat) (v : Word) (t : Tile) : Bool :=
  bits v 61 3 == 0 && t.offset % 32 == 0 && decide (t.rowBytes ≤ t.pitch) && decide (t.fmtc < 13)
    && (if t.space = 0 ∨ t.space = 2 then t.owner == core
        else if t.space = 1 then t.owner != core && clusterOf t.owner == clusterOf core
        else decide (t.owner / 144 = dieOf core))
    && decide (t.owner < 288)
    && decide (t.stop ≤ if t.space < 2 then 0x200000 else s.roomSize t.owner)

/-- `tt.def` (R257). -/
def execTtDef (t : BitVec 6) (ts : BitVec 2) (k : BitVec 3) (s : State) : Host.Outcome State Fault Refusal :=
  slotOp (.ttDef t ts k) (fun c s => do
    let n := t.toNat
    let old ← tileNow s c n
    if old.state = tFailed then fatalR kTile old.err
    if tileBusy s s.turn n then .error .wait
    let v := readTs s c ts.toNat
    let cap := readK s c .cf k.toNat
    let e : Tile := tileState (setBits (setBits (setBits (setBits old 0 61 v.toNat) 91 1 0) 74 1 0) 96 8 0) tReady
    need (cap.tag && cap.has rightT && cap.obj == e.obj) kRights
    if !tileOk s s.turn v e then fatalR kCopy 4
    need (decide (cap.base ≤ e.offset) && decide (e.stop ≤ cap.base + cap.len)) kBounds
    .ok (s.setTile s.turn n e)) s

/-- `tt.free` (R258). -/
def execTtFree (t : BitVec 6) (s : State) : Host.Outcome State Fault Refusal :=
  slotOp (.ttFree t) (fun c s =>
    if c.tileLater t.toNat || tileBusy s s.turn t.toNat then .error .wait else .ok (s.setTile s.turn t.toNat 0)) s

/-- The `FOLDM` check of a tile mark (R260). -/
def markCheck (c : Ctx) (fid : Nat) : Except Stop Unit :=
  if (foldmFind c.foldm fid).isSome then .ok () else fatalR kCopy 5

/-- A tile operation that needs a `READY` tile and waits while it is `FILLING` or `DRAINING` (R259, R260). -/
def readyTile (s : State) (c : Ctx) (n : Nat) : Except Stop Tile := do
  let t ← tileNow s c n
  tileGate t true
  .ok t

/-- `tt.mark` with a fold (R260). -/
def execTtMark (t : BitVec 6) (fid : BitVec 10) (s : State) : Host.Outcome State Fault Refusal :=
  slotOp (.ttMark t fid) (fun c s => do
    let e ← readyTile s c t.toNat
    markCheck c fid.toNat
    .ok (s.setTile s.turn t.toNat (setBits (setBits e 74 1 1) 64 10 fid.toNat))) s

/-- `tt.mark` with a fold and `wait` (R260): the tile is `FILLING` until the fold next completes. -/
def execTtMarkWait (t : BitVec 6) (fid : BitVec 10) (s : State) : Host.Outcome State Fault Refusal :=
  slotOp (.ttMarkWait t fid) (fun c s => do
    let e ← readyTile s c t.toNat
    markCheck c fid.toNat
    .ok ((s.setTile s.turn t.toNat (tileState (setBits (setBits e 74 1 1) 64 10 fid.toNat) tFilling)).modCore s.turn fun x =>
      { x with marks := x.marks ++ [(t.toNat, fid.toNat)] })) s

/-- `tt.mark` without a fold (R260). -/
def execTtMarkNofold (t : BitVec 6) (s : State) : Host.Outcome State Fault Refusal :=
  slotOp (.ttMarkNofold t) (fun c s => do
    let e ← readyTile s c t.toNat
    .ok (s.setTile s.turn t.toNat (setBits e 74 1 0))) s

/-- `tt.rd` (R261): latency 1 in CF, no ring, no gate. -/
def execTtRd (t : BitVec 6) (h : Bool) (d : BitVec 5) (s : State) : Host.Outcome State Fault Refusal :=
  slotOp (.ttRd t h d) (fun c s => do
    let e ← tileNow s c t.toNat
    .ok (s.launch { Fly.nil .cf c.pos 1 with
      dst := some (.s d.toNat, .word (BitVec.ofNat 64 (bits e (if h then 64 else 0) 64)) (BitVec.allOnes 64)) })) s

end Sys2Proof.Machine
end

