-- ==== Sys2Proof/Machine/Handle.lean ====
section
/-! DEFINITION. Weight handles and the Drovers: the `wh` operations, `wh.wait`, `tt.bind` and `tt.unbind`, and the Drovers' own steps
(R259, R262 to R264, R330). -/

namespace Sys2Proof.Machine
open Sys2Proof

/-! ### Handles -/

/-- A handle at reset. -/
def Handle.initial : Handle := ⟨0, 0, 0, 0⟩
/-- A handle's state. -/
def State.handle (s : State) (h : Nat) : Handle := sget Handle.initial s.handles h
/-- Replaces a handle's state. -/
def State.setHandle (s : State) (h : Nat) (x : Handle) : State := { s with handles := sput Handle.initial s.handles h x }
/-- `ABSENT`. -/
def hAbsent : Nat := 0
/-- `FETCHING`. -/
def hFetching : Nat := 1
/-- `RESIDENT`. -/
def hResident : Nat := 2
/-- `EVICTING`. -/
def hEvicting : Nat := 3
/-- `FAILED`. -/
def hFailed : Nat := 4

/-- A handle's descriptor (Table 14.10), byte 0 least significant, as memory holds it at each use. DESIGN CHOICE: R262 leaves open whether the
next fetch of a handle whose descriptor level S changes while it is not `ABSENT` uses the old descriptor or the new one; it uses the new one
(log 85). -/
def State.handleDesc (s : State) (h : Nat) : BitVec 256 := BitVec.ofNat 256 (s.num (bits (s.tab 2 s.htab) 0 60 / 4096 * 4096 + 32 * h) 32)
/-- SRC: object and offset. -/
def descSrc (d : BitVec 256) : Nat × Nat := (bits d 40 24, bits d 0 40)
/-- DST: object and offset. -/
def descDst (d : BitVec 256) : Nat × Nat := (bits d 104 24, bits d 64 40)
/-- LEN in bytes. -/
def descLen (d : BitVec 256) : Nat := 4096 * bits d 128 32
/-- PADDOCK. -/
def descPad (d : BitVec 256) : Nat := bits d 160 16
/-- VALID, with what makes a descriptor count as invalid (R262). -/
def descValid (d : BitVec 256) : Bool := d.getLsbD 176 && bits d 128 32 != 0 && bits d 177 7 == 0 && bits d 184 72 == 0
/-- The check of R262. -/
def handleOk (s : State) (pad h : Nat) : Bool := descValid (s.handleDesc h) && descPad (s.handleDesc h) == pad
/-- The die of a handle's destination (R263); where its page names no stack, free (log 19). -/
def handleDie (s : State) (h : Nat) : Nat :=
  let (obj, o) := descDst (s.handleDesc h)
  if isLocal obj then spaceNo obj % 288 / 144
  else
    let pe := s.pageEnt (s.objEnt obj) o
    if pe.p then stackDie (deviceOf pe.base) else s.pick 8000 % 2

/-- Whether a handle is bound to a tile of any core (R259). -/
def isBound (s : State) (h : Nat) : Bool :=
  s.cores.any fun c => c.2.tiles.any fun t => Tile.handle t.2 == some h

/-- The requests of a die's Drover. -/
def State.drover (s : State) (die : Nat) : List DroverReq := if die = 0 then s.drover0 else s.drover1
/-- Replaces the requests of a die's Drover. -/
def State.setDrover (s : State) (die : Nat) (l : List DroverReq) : State := if die = 0 then { s with drover0 := l } else { s with drover1 := l }
/-- Changes the requests of both Drovers. -/
def State.mapDrovers (s : State) (f : List DroverReq → List DroverReq) : State := { s with drover0 := f s.drover0, drover1 := f s.drover1 }
/-- The entries of a Drover queue (R263). -/
def droverEntries : Nat := 256

/-- A dropped access that is not architectural is counted (R360); the count saturates. -/
def countDrop (s : State) (core : Nat) : State :=
  s.modCore core fun x => { x with pfDrop := if x.pfDrop = BitVec.allOnes 64 then x.pfDrop else x.pfDrop + 1 }

/-- A handle whose predicted request is gone: `ABSENT`, but one that is being evicted still is (Table 14.11). -/
def State.unfetch (s : State) (h : Nat) : State :=
  s.setHandle h (if (s.handle h).state = hFetching then { s.handle h with state := hAbsent } else s.handle h)

/-- Enqueues a request (Table 14.12): none where the slot must wait. On a full queue a predicted request is dropped, and a demand
request displaces the youngest unsent predicted one. -/
def enqueue (s : State) (core pad h : Nat) (demand : Bool) (st : Nat) : Option State :=
  let die := handleDie s h
  let q := s.drover die
  let put := fun (s : State) (q : List DroverReq) =>
    (s.setDrover die (q ++ [⟨h, demand, false, core, pad⟩])).setHandle h { s.handle h with state := st, err := 0, landed := 0 }
  if q.length < droverEntries then some (put s q)
  else if !demand then some (countDrop s core)
  else match q.reverse.find? fun r => !r.demand && !r.sent with
    | none => none
    | some r => some (put (s.unfetch r.handle) (q.filter fun x => !(x == r)))

/-- `wh.fetch` of a handle by its state (Table 14.12); none where the slot must wait. -/
def fetchHandle (s : State) (core pad h : Nat) (demand : Bool) : Option State :=
  let x := s.handle h
  let queued := (s.drover0 ++ s.drover1).any fun r => r.handle == h
  if x.state = hAbsent then enqueue s core pad h demand hFetching
  else if x.state = hFetching ∨ (x.state = hEvicting ∧ queued) then
    some (s.mapDrovers fun l => l.map fun r => if r.handle = h ∧ demand then { r with demand := true } else r)
  else if x.state = hEvicting then enqueue s core pad h demand hEvicting
  else some s

/-! ### The `wh` operations -/

/-- The handle that a demand operation names (R262, R264): the copy-command fault above 65,535, the rights fault where its check fails. -/
def demandHandle (s : State) (c : Ctx) (y : Slot) (src : BitVec 6) : Except Stop Nat := do
  let h := (readInt s c y src).toNat
  if 65535 < h then fatalR kCopy 8
  need (handleOk s c.paddock h) kRights
  .ok h

/-- `wh.fetch` predicted (R262, R264): it never faults. -/
def execWhFetchPred (src : BitVec 6) (s : State) : Host.Outcome State Fault Refusal :=
  slotOp (.whFetchPred src) (fun c s =>
    let h := (readInt s c .xc src).toNat
    if 65535 < h ∨ !handleOk s c.paddock h then .ok (countDrop s s.turn)
    else match fetchHandle s s.turn c.paddock h false with
      | some s => .ok s
      | none => .error .wait) s

/-- `wh.fetch` demand (R264). -/
def execWhFetchDem (src : BitVec 6) (s : State) : Host.Outcome State Fault Refusal :=
  slotOp (.whFetchDem src) (fun c s => do
    let h ← demandHandle s c .xc src
    match fetchHandle s s.turn c.paddock h true with
    | some s => .ok s
    | none => .error .wait) s

/-- `wh.drop` (R263, Table 14.11). -/
def dropHandle (s : State) (h : Nat) : State :=
  let x := s.handle h
  if x.state = hFetching then
    if (s.drover0 ++ s.drover1).any fun r => r.handle == h && !r.sent then
      (s.mapDrovers fun l => l.filter fun r => r.handle != h).setHandle h { x with state := hAbsent }
    else s
  else if x.state = hResident ∧ x.pins = 0 ∧ !isBound s h then s.setHandle h { x with state := hEvicting }
  else s

/-- `wh.drop`. -/
def execWhDrop (src : BitVec 6) (s : State) : Host.Outcome State Fault Refusal :=
  slotOp (.whDrop src) (fun c s => do .ok (dropHandle s (← demandHandle s c .xc src))) s

/-- `wh.pin` (Table 14.12). -/
def execWhPin (src : BitVec 6) (s : State) : Host.Outcome State Fault Refusal :=
  slotOp (.whPin src) (fun c s => do
    let h ← demandHandle s c .xc src
    let x := s.handle h
    if x.pins = 65535 then fatalR kCopy 6
    .ok (s.setHandle h { x with pins := x.pins + 1 })) s

/-- `wh.unpin` (Table 14.12). -/
def execWhUnpin (src : BitVec 6) (s : State) : Host.Outcome State Fault Refusal :=
  slotOp (.whUnpin src) (fun c s => do
    let h ← demandHandle s c .xc src
    let x := s.handle h
    if x.pins = 0 then fatalR kCopy 7
    .ok (s.setHandle h { x with pins := x.pins - 1 })) s

/-- `HSTAT` of a handle (Table 2.16). -/
def hstatWord (s : State) (h : Nat) : Word :=
  let x := s.handle h
  BitVec.ofNat 64 (h * 2 ^ 48 + x.state * 2 ^ 45 + (if x.state = hFailed then x.err else 0) * 2 ^ 32 + x.pins * 65536)

/-- The result that writes `HSTAT`. -/
def hstatFly (sl : Slot) (c : Ctx) (v : Word) : Fly := { Fly.nil sl c.pos 1 with dst := some (.hstat, .word v (BitVec.allOnes 64)) }

/-- `wh.qry` (Table 14.12): variable latency. -/
def execWhQry (src : BitVec 6) (s : State) : Host.Outcome State Fault Refusal :=
  slotOp (.whQry src) (fun c s => do
    let h ← demandHandle s c .xc src
    .ok (s.launch { hstatFly .xc c (hstatWord s h) with var := true })) s

/-- The check of `wh.wait` at the Drover (R330): the record parks while the handle is being fetched, or stays with CAUSE 8. -/
def handleCheck (h : Nat) (s : State) : Except Stop (State × Course) :=
  let st := (s.handle h).state
  if st = hFetching ∨ (st = hEvicting ∧ (s.drover0 ++ s.drover1).any fun r => r.handle == h) then
    .ok (s, .leave (3 * 2 ^ 60 + h) false ((s.cur).map fun c => (.handle h, readAct s.turn c .c .p 16 0 0 0)))
  else .ok (s, .stay 8)

/-- `wh.wait` (R330), which is no command of the engine (log 96): no suspension point where the handle is `RESIDENT` or `FAILED` at issue. -/
def execWhWait (src : BitVec 6) (s : State) : Host.Outcome State Fault Refusal :=
  slotOp (.whWait src) (fun c s => do
    match c.suspended with
    | some l => suspend s.turn l saveAll 0 (handleCheck (l.getD 0 0)) s
    | none =>
      let h ← demandHandle s c .c src
      let st := (s.handle h).state
      if st = hResident ∨ st = hFailed then .ok (s.launch (hstatFly .c c (hstatWord s h)))
      else match fetchHandle s s.turn c.paddock h true with
        | none => .error .wait
        | some t => suspend s.turn [h] saveAll 0 (handleCheck h) (t.launch (hstatFly .c c (hstatWord s h)))) s

/-- `tt.bind` (R259). DESIGN CHOICE: reserved bits of the staging word fault before the handle's check of R262 does (log 47). -/
def execTtBind (t : BitVec 6) (ts : BitVec 2) (s : State) : Host.Outcome State Fault Refusal :=
  slotOp (.ttBind t ts) (fun c s => do
    let e ← readyTile s c t.toNat
    let v := readTs s c ts.toNat
    if bits v 16 48 != 0 then fatalR kCopy 1
    need (handleOk s c.paddock v.toNat) kRights
    .ok (s.setTile s.turn t.toNat (setBits (setBits e 91 1 1) 75 16 v.toNat))) s

/-- `tt.unbind` (R259). -/
def execTtUnbind (t : BitVec 6) (s : State) : Host.Outcome State Fault Refusal :=
  slotOp (.ttUnbind t) (fun c s => do
    let e ← readyTile s c t.toNat
    .ok (s.setTile s.turn t.toNat (setBits e 91 1 0))) s

/-! ### The Drovers' own steps (R263) -/

/-- Whether two handles' destinations overlap. -/
def overlaps (s : State) (a b : Nat) : Bool :=
  let x := descDst (s.handleDesc a)
  let y := descDst (s.handleDesc b)
  x.1 == y.1 && decide (x.2 < y.2 + descLen (s.handleDesc b)) && decide (y.2 < x.2 + descLen (s.handleDesc a))

/-- The handles that are not `ABSENT`. -/
def liveHandles (s : State) : List Nat := s.handles.map (·.1)

/-- Whether a request must stay queued: an overlapping handle is being fetched with its request sent, or is being evicted, or is held by
a pin or a tile; its own handle is still being evicted. -/
def blocked (s : State) (h : Nat) : Bool :=
  (s.handle h).state != hFetching ||
  (liveHandles s).any fun g => g != h && overlaps s h g &&
    (let x := s.handle g
     (x.state == hFetching && (s.drover0 ++ s.drover1).any fun r => r.handle == g && r.sent) || x.state == hEvicting
       || (x.state == hResident && (x.pins != 0 || isBound s g)))

/-- The overlapping handles that a request evicts first. -/
def toEvict (s : State) (h : Nat) : List Nat :=
  (liveHandles s).filter fun g => g != h && overlaps s h g && (s.handle g).state == hResident

/-- The first request of a queue, in the order in which it serves them, that nothing blocks and that no earlier one overlaps (R263). -/
def nextRequest (s : State) : List DroverReq → List DroverReq → Option DroverReq
  | _, [] => none
  | before, r :: t =>
    if !blocked s r.handle && !before.any (fun b => overlaps s b.handle r.handle) then some r else nextRequest s (before ++ [r]) t

/-- `DROVER_REQUEST_SEND` (R263): the Drover of die `args.id` sends its first request that nothing blocks, by rank and age. A request
whose destination a resident handle still covers evicts that handle, and stays queued until it is gone. -/
def execDroverRequestSend (s : State) : Host.Outcome State Fault Refusal :=
  let q := s.drover s.args.id
  match nextRequest s [] ((q.filter fun r => r.demand && !r.sent) ++ q.filter fun r => !r.demand && !r.sent) with
  | none => .next s.tick
  | some r =>
    match toEvict s r.handle with
    | [] => .next (s.setDrover s.args.id (q.map fun x => if x = r then { x with sent := true } else x)).tick
    | l => .next (l.foldl (fun s g => s.setHandle g { s.handle g with state := hEvicting }) s).tick

/-- Wakes the records parked on a handle (R330). -/
def wakeHandle (s : State) (h status : Nat) : State :=
  wakeRecords s ((s.waiting.filter fun w => match w.on with | .handle g => g == h | _ => false).map fun w => (w, h * 65536 + status, none))

/-- The request of a handle that has been sent. -/
def sentRequest (s : State) (h : Nat) : Option DroverReq := (s.drover0 ++ s.drover1).find? fun r => r.handle == h && r.sent

/-- How the checks of a fetch end: they pass, the fetch must wait, or it fails with an ERR (R263). -/
inductive FetchEnd
  | lands | waits | fails (err : Nat)
  deriving DecidableEq, Repr

/-- What a port check says of a fetch (R263, R358). -/
def fetchEnd (isDst : Bool) (r : Except Stop Unit) : FetchEnd := match r with
  | .error (.fatal f) =>
    if f.kind = kFormat then .fails 3
    else if isDst then .fails (if f.kind = kNonResident ∨ f.kind = kLostPage then 2 else 5)
    else .fails 4
  | .error _ => .waits
  | .ok () => .lands

/-- Whether every page of a source lies in the Cellar (R263). -/
def allCellar (s : State) (obj o n : Nat) : Bool :=
  s.isTable obj && (let e := s.objEnt obj; (pagesOf e.page o n).all fun pg => (s.pageEnt e pg).tier == 1)

/-- How a handle's fetch ends, from the port checks under the handle's paddock (R263). -/
def fetchChecks (s : State) (h : Nat) : FetchEnd :=
  let d := s.handleDesc h
  let (so, sa) := descSrc d
  let (dobj, da) := descDst d
  let w : Who := ⟨descPad d, false⟩
  if !descValid d then .fails 4
  else match fetchEnd false (portCheck s w none so sa (descLen d) false 0) with
    | .lands =>
      if !allCellar s so sa (descLen d) then .fails 4
      else if (flashIn s so sa (descLen d) 0).isSome then .fails 1
      else if isScratch dobj then .fails 5
      else fetchEnd true (portCheck s w none dobj da (descLen d) true 0)
    | e => e

/-- Ends a handle's fetch: its request leaves the queue. -/
def endFetch (s : State) (h : Nat) (x : Handle) (status : Nat) : State :=
  wakeHandle ((s.mapDrovers fun l => l.filter fun r => r.handle != h).setHandle h x) h status

/-- A command leaves the engine. -/
def dropCp (s : State) (core id : Nat) : State := s.modCore core fun y => { y with cp := y.cp.filter fun x => x.id != id }

/-- A fill whose handle failed: its tile is `FAILED` with the handle's ERR (Table 14.8). -/
def failFill (s : State) (core : Nat) (x : CpCmd) (err : Nat) : State :=
  let s := dropCp s core x.id
  s.setTile core x.tileNo (setBits (tileState (s.tile core x.tileNo) tFailed) 96 8 err)

/-- A handle fails: so does every fill that waits for it and has read nothing (R259). -/
def failHandle (s : State) (h err : Nat) : State :=
  let s := endFetch s h { s.handle h with state := hFailed, err := err } (7 + 256 * err)
  s.cores.foldl (fun s c => (c.2.cp.filter fun x => x.handle == some h && !x.begun).foldl (fun s x => failFill s c.1 x err) s) s

/-- A predicted fetch that fails a check, or meets a page in reform, is dropped and counted: it is not architectural (R183, R211, R360). A read that cannot be
corrected is no check: it fails every handle fetch (R416). -/
def dropFetch (s : State) (r : DroverReq) : State :=
  countDrop ((s.mapDrovers fun l => l.filter fun x => x.handle != r.handle).setHandle r.handle { s.handle r.handle with state := hAbsent }) r.core

/-- The pages of a fetch's source, each with the part of it that the fetch reads: its offset and its length. -/
def sourceParts (s : State) (obj o n : Nat) : List (Nat × Nat) :=
  let p := (s.objEnt obj).page
  (pagesOf p o n).map fun pg => (max pg o, min (pg + p) (o + n) - max pg o)

/-- The fills with which a fetch waits for controllers that hold further requests (R15, R309): one for each page of its source. -/
def fetchFills (s : State) (obj o n : Nat) : List HeldReq := (sourceParts s obj o n).flatMap fun p => heldFills s obj p.1 1 0

/-- The controllers of a fetch's source spend the stored bytes that it reads (R15). -/
def spendFetch (s : State) (obj o n : Nat) : State :=
  let e := s.objEnt obj
  (sourceParts s obj o n).foldl (fun t p =>
    let pe := s.pageEnt e p.1
    t.spend (deviceOf pe.base) (pe.image e.page * p.2 / e.page)) s

/-- `HANDLE_FETCH_COMPLETE` (R263, R264): every byte of handle `args.id` lands at its destination on path H, and it becomes `RESIDENT`, in one event
(log 86); a fetch whose checks fail becomes `FAILED` instead, a predicted one only where its Cellar read cannot be corrected. A predicted fetch leaves no trace
in the page entries. -/
def execHandleFetchComplete (s : State) : Host.Outcome State Fault Refusal :=
  let h := s.args.id
  match sentRequest s h with
  | none => .next s.tick
  | some r =>
    let d := s.handleDesc h
    match fetchChecks s h, r.demand with
    | .lands, _ =>
      let (so, sa) := descSrc d
      let (dobj, da) := descDst d
      let held := fetchFills s so sa (descLen d)
      if !held.isEmpty then .next (held.foldl State.holdReq s).tick else
      let s := spendFetch s so sa (descLen d)
      let data := atOffsets da (locBytes s so sa (descLen d) 0)
      let s := if r.demand then performBytes (touch s so sa (descLen d) 0) dobj 0 data else performQuiet s dobj 0 data
      .next (endFetch s h { s.handle h with state := hResident, err := 0, landed := descLen d } 6).tick
    | .fails e, true => .next (failHandle s h e).tick
    | .fails 1, false => .next (failHandle s h 1).tick
    | .waits, true => .next s.tick
    | _, false => .next (dropFetch s r).tick

/-- `HANDLE_FETCH_FAIL` (R263): the fetch of handle `args.id` fails with the ERR of its checks, or with 1 for a Cellar read that cannot be
corrected, a predicted fetch too (R416); a tile that waits for the handle fails with its fill. -/
def execHandleFetchFail (s : State) : Host.Outcome State Fault Refusal :=
  let h := s.args.id
  match sentRequest s h with
  | none => .next s.tick
  | some r => match fetchChecks s h, r.demand with
    | .fails e, true => .next (failHandle s h e).tick
    | .fails 1, false | .lands, _ | .waits, true => .next (failHandle s h 1).tick
    | _, false => .next (dropFetch s r).tick

/-- `HANDLE_EVICT_COMPLETE` (R263): handle `args.id` becomes `ABSENT`, or `FETCHING` where a fetch is queued behind the eviction. -/
def execHandleEvictComplete (s : State) : Host.Outcome State Fault Refusal :=
  let h := s.args.id
  let x := s.handle h
  if x.state = hEvicting then
    let queued := (s.drover0 ++ s.drover1).any fun r => r.handle == h
    .next (s.setHandle h { x with state := if queued then hFetching else hAbsent, err := 0, landed := 0 }).tick
  else .next s.tick

end Sys2Proof.Machine
end

