-- ==== Sys2Proof/Machine/Matrix.lean ====
section
/-! DEFINITION. The matrix engine: its commands, its two pipes, `lend`, `fmt.set` and the subnormal assist's entries (09_matrix, R103 to
R108, R395, R396). -/

namespace Sys2Proof.Machine
open Sys2Proof

/-! ### Checks -/

/-- A fatal event to raise. -/
def faultOf (kind reason : Nat) : FaultInfo := ⟨kind, reason, none, 0, false⟩

/-- Several checks in no stated order: where more than one fails, which fault is raised is free (log 23). -/
def checksOf (s : State) (l : List (Bool × FaultInfo)) : Except Stop Unit :=
  match (l.filter fun x => !x.1).map (·.2) with
  | [] => .ok ()
  | f :: t => .error (.fatal ((f :: t).getD (s.pick 9000 % (t.length + 1)) f))

/-- `ACCOWN` as the moving bundle of a core's context sees it (R175): a `lend` governs the positions after its own. -/
def ownersAt (s : State) (core : Nat) : BitVec 2 :=
  let x := s.core core
  stickyAt x.accOwn 1 (x.ctx.elim 0 (·.pos)) x.accOwnQ
/-- The owner of a bank: 0 the matrix engine, 1 the vector unit (Table 2.4). -/
def bankOwner (s : State) (core bank : Nat) : Bool := (ownersAt s core).getLsbD bank
/-- `WMn.ROWS`. -/
def State.wm (s : State) (core bank : Nat) : Nat := (if bank = 0 then (s.core core).wm0 else (s.core core).wm1).toNat
/-- Sets `WMn.ROWS`. -/
def State.setWm (s : State) (core bank n : Nat) : State :=
  s.modCore core fun x => if bank = 0 then { x with wm0 := BitVec.ofNat 8 n } else { x with wm1 := BitVec.ofNat 8 n }

/-- AF, BF, ACCF, OFMT and SCM of an `FMT` (Table 2.8). -/
def fmtAf (f : BitVec 32) : Nat := bits f 0 4
/-- BF. -/
def fmtBf (f : BitVec 32) : Nat := bits f 4 4
/-- ACCF. -/
def fmtAcc (f : BitVec 32) : Nat := bits f 8 4
/-- OFMT. -/
def fmtOut (f : BitVec 32) : Nat := bits f 12 4
/-- SCM. -/
def fmtScm (f : BitVec 32) : Nat := bits f 16 2

/-- Whether a code is a block format. -/
def isBlock (c : Nat) : Bool := decide (6 ≤ c) && decide (c ≤ 12)

/-- The `FMT` combinations that an `mma` accepts (R164, R165). -/
def mmaFormats (f : BitVec 32) : Bool :=
  let a := fmtAf f
  let b := fmtBf f
  let half := fun x : Nat => x == 2 || x == 3
  let narrow := fun x : Nat => decide (4 ≤ x) && decide (x ≤ 12)
  let mx := isMx a || isMx b
  let gq := a == 12 || b == 12
  ((half a && half b && fmtAcc f == 1) || (narrow a && narrow b && fmtAcc f == 1) || (a == 0 && b == 0 && fmtAcc f == 0))
    && (if fmtScm f = 0 then !mx && !gq else if fmtScm f = 1 then mx && !gq else if fmtScm f = 2 then gq && !mx else false)

/-- The formats that a `macc.st` accepts (R164). -/
def storeFormats (f : BitVec 32) : Bool :=
  fmtScm f != 3 && ((fmtAcc f == 1 && decide (1 ≤ fmtOut f) && decide (fmtOut f ≤ 5)) || (fmtAcc f == 0 && decide (fmtOut f ≤ 1)))

/-- The bytes of an element of a scalar code. -/
def codeBytes (c : Nat) : Nat := codeBits c / 8

/-- M, N, K and ROW0 of `ms0` (Table 9.5). -/
def msM (v : Word) : Nat := bits v 0 7 + 1
/-- N. -/
def msN (v : Word) : Nat := bits v 8 7 + 1
/-- K. -/
def msK (v : Word) : Nat := 32 * (bits v 16 7 + 1)
/-- ROW0. -/
def msRow0 (v : Word) : Nat := bits v 24 7
/-- Whether the reserved bits of `ms0` are zero. -/
def msOk (v : Word) : Bool := bits v 31 33 == 0 && bits v 23 1 == 0 && bits v 15 1 == 0 && bits v 7 1 == 0

/-- The stream bytes of `n` elements of a block format; none where they are no whole runs or groups (Table 9.3). -/
def streamBytes (code n : Nat) : Option Nat :=
  if code = 12 then (if n % 16384 = 0 then some (n / 16384 * 8512) else none)
  else (if n % 2048 = 0 then some (n / 2048 * mxRun code) else none)

/-- Whether a tile is large enough for an operand of `rows` rows of `k` elements (Table 9.3); a reserved code has no size to test. -/
def bigEnough (t : Tile) (code rows k : Nat) : Bool :=
  if 13 ≤ code then true
  else if isBlock code then
    match streamBytes code (rows * k) with
    | none => false
    | some n => decide (n ≤ t.size)
  else decide (rows ≤ t.rows) && decide (k * codeBytes code ≤ t.rowBytes)

/-- The bank group of a footprint, where it lies in one (R166). -/
def bankGroup (t : Tile) : Option Nat :=
  if t.offset / 2 ^ 20 = (t.stop - 1) / 2 ^ 20 then some (t.offset / 2 ^ 20 % 2) else none

/-- The checks of an `mma` at issue (R162 to R172, Table 9.10). -/
def mmaChecks (s : State) (core bank : Nat) (a b : Tile) (m : Option Tile) (tb : Bool) (f : BitVec 32) (ms0 ms1 : Word) : Except Stop Unit :=
  let ac := fmtAf f
  let bc := fmtBf f
  let M := msM ms0
  let N := msN ms0
  let K := msK ms0
  checksOf s (((a :: b :: m.toList).map fun t => (tileUsable t, faultOf kTile t.err)) ++ [
    (!bankOwner s core bank, faultOf kBank 0),
    ((bankGroup a).isSome && (bankGroup b).isSome && bankGroup a != bankGroup b, faultOf kBank 0),
    (mmaFormats f && (a.fmtc == 0 || a.fmtc == ac) && (b.fmtc == 0 || b.fmtc == bc) && (isBlock bc → tb) && (m.isSome → !isBlock ac)
      && m.all (fun t => t.fmtc == 0), faultOf kFormat 0),
    (a.space == 0 && b.space == 0 && m.all (fun t => t.space == 0), faultOf kMatrix 1),
    (bigEnough a ac M (if m.isSome && !isBlock ac then K / 2 else K)
      && (if tb then bigEnough b bc N K else isBlock bc || bigEnough b bc K N)
      && m.all (fun t => decide (M ≤ t.rows) && decide (K / 8 ≤ t.rowBytes)), faultOf kMatrix 2),
    (msOk ms0 && (m.isSome → bits ms1 6 58 == 0), faultOf kMatrix 5),
    (decide (msRow0 ms0 + M ≤ 128), faultOf kMatrix 6)])

/-- GEN of the space of a tile (R350). -/
def spaceGen (s : State) (t : Tile) : Nat := bits (s.desc t.obj) 0 16

/-- The unfinished commands that the engine holds (R161). -/
def mxEntries : Nat := 8

/-- Queues a matrix command; the slot waits while 8 are unfinished. -/
def queueMx (s : State) (m : MxCmd) : Except Stop State :=
  if (s.core s.turn).mx.length < mxEntries then
    .ok (s.modCore s.turn fun x => { x with mx := x.mx ++ [{ m with gens := m.tiles.map (spaceGen s) }] })
  else .error .wait

/-- An access of path M (R163). -/
def accessM (core : Nat) (c : Ctx) (pos : Nat) : Act := { readAct core c .mx .m 15 0 0 0 with prog := (c.segment, pos, Slot.mx.idx) }

/-- A matrix command waits at its issue for a fence that orders it (R229, R230). -/
def mxFenced (s : State) (c : Ctx) : Except Stop Unit := if c.fenced (accessM s.turn c c.pos) then .error .wait else .ok ()

/-- A staging register `ms0` to `ms7` as MX captures it (R26). -/
def readMs (s : State) (c : Ctx) (n : Nat) : Word := readStage s c .mx n

/-- A command with the sticky values it captures (R162). -/
def newMx (c : Ctx) (kind bank row0 rows : Nat) : MxCmd :=
  { kind := kind, pos := c.pos, group := c.group, bank := bank, tiles := [], names := [], ms0 := 0, fmt := c.fmtNow, fpctl := c.fpcNow, z := false, tb := false,
    sp := false, row0 := row0, rows := rows, started := false, done := 0, col := 0, assisted := false, paused := false, acc := [] }

/-- `mma` (R161, R162, R166 to R172). -/
def execMma (a b : BitVec 6) (n z tb sp : Bool) (s : State) : Host.Outcome State Fault Refusal :=
  slotOp (.mma a b n z tb sp) (fun c s => do
    let core := s.turn
    let ms0 := readMs s c 0
    let ms1 := if sp then readMs s c 1 else 0
    let names := [a.toNat, b.toNat] ++ (if sp then [bits ms1 0 6] else [])
    mxFenced s c
    if names.any fun t => c.tileLater t || tileWaits (s.tile core t) false then .error .wait
    let ta := s.tile core a.toNat
    let tB := s.tile core b.toNat
    let tm := if sp then some (s.tile core (bits ms1 0 6)) else none
    mmaChecks s core (b2n n) ta tB tm tb c.fmtNow ms0 ms1
    queueMx s { newMx c 1 (b2n n) (msRow0 ms0) (msM ms0) with
      tiles := [ta, tB] ++ tm.toList, names := names, ms0 := ms0, z := z, tb := tb, sp := sp }) s

/-- `macc.clr` (R177). -/
def execMaccClr (n : Bool) (r cnt : BitVec 7) (s : State) : Host.Outcome State Fault Refusal :=
  slotOp (.maccClr n r cnt) (fun c s => do
    checksOf s [(!bankOwner s s.turn (b2n n), faultOf kBank 0)]
    queueMx s (newMx c 2 (b2n n) r.toNat (cnt.toNat + 1))) s

/-- The element bytes of the tile of a row command: those of its format, 4 for an integer accumulator. -/
def rowElem (code : Nat) : Nat := if code = 0 then 4 else codeBytes code

/-- The checks that `macc.ld` and `macc.st` share (R177): the columns are counted by the tile's own element width. -/
def rowChecks (s : State) (bank : Nat) (t : Tile) (r : Nat) (fmtOk : Bool) : Except Stop Unit :=
  checksOf s [(tileUsable t, faultOf kTile t.err), (!bankOwner s s.turn bank, faultOf kBank 0), (fmtOk, faultOf kFormat 0), (t.space == 0 || t.space == 2, faultOf kMatrix 1),
    (isBlock t.fmtc || decide (t.rowBytes / rowElem t.fmtc ≤ 128), faultOf kMatrix 3), (decide (r + t.rows ≤ 128), faultOf kMatrix 4)]

/-- `macc.ld` (R177). -/
def execMaccLd (t : BitVec 6) (n : Bool) (r : BitVec 7) (s : State) : Host.Outcome State Fault Refusal :=
  slotOp (.maccLd t n r) (fun c s => do
    mxFenced s c
    let e ← tileNow s c t.toNat
    if tileWaits e false then .error .wait
    let f := c.fmtNow
    let ok := (fmtAcc f == 1 && decide (1 ≤ e.fmtc) && decide (e.fmtc ≤ 3)) || (fmtAcc f == 0 && e.fmtc == 0)
    rowChecks s (b2n n) e r.toNat ok
    queueMx s { newMx c 3 (b2n n) r.toNat e.rows with tiles := [e], names := [t.toNat] }) s

/-- `macc.st` (R163, R177): its tile is `FILLING` until the store completes. -/
def execMaccSt (t : BitVec 6) (n : Bool) (r : BitVec 7) (s : State) : Host.Outcome State Fault Refusal :=
  slotOp (.maccSt t n r) (fun c s => do
    mxFenced s c
    let e ← tileNow s c t.toNat
    if tileWaits e true then .error .wait
    let f := c.fmtNow
    rowChecks s (b2n n) e r.toNat (storeFormats f && e.fmtc == fmtOut f)
    let s ← queueMx s { newMx c 4 (b2n n) r.toNat e.rows with tiles := [e], names := [t.toNat] }
    .ok (s.tileTo s.turn t.toNat tFilling)) s

/-! ### Products (R103 to R106) -/

/-- A byte of tile `n`, described by `t`, as an engine's access reads it, of the element with key `el` (R163, R169, R220). -/
def tileByte (s : State) (core : Nat) (c : Ctx) (a : Act) (n : Nat) (t : Tile) (el o : Nat) : Byte :=
  porchByte s core c { a with tile := some n } t.obj el o 0

/-- Element e of row r of a tile of a scalar code, as a pattern (R167): old or new as a whole (R169), so its bytes share one key, past every offset. -/
def tileElem (s : State) (core : Nat) (c : Ctx) (a : Act) (n : Nat) (t : Tile) (w r e : Nat) : Nat :=
  ofBytes ((List.range w).map fun i => tileByte s core c a n t (2 ^ 22 + t.at r (e * w)) (t.at r (e * w + i)))

/-- The key of element e of a tile's stream (R169). -/
def blockKey (t : Tile) (e : Nat) : Nat := 2 ^ 39 + 2 ^ 20 * (t.offset / 32) + e

/-- Where a matrix command reads: the core, its context, and its access. -/
structure MxRead where
  core : Nat
  c : Ctx
  a : Act

/-- The value of element `(r, k)` of an operand of `k` elements a row: a scalar code by row, a block code as one stream (Table 9.2). -/
def operandAt (s : State) (m : MxRead) (n : Nat) (t : Tile) (code depth r k : Nat) : FV :=
  if isBlock code then storedAt (fun i => tileByte s m.core m.c m.a n t (blockKey t (r * depth + k)) (t.stream i)) code (r * depth + k)
  else unpack (fmtOfCode code) (tileElem s m.core m.c m.a n t (codeBytes code) r k)

/-- The INT8 value of an element. -/
def intAt (s : State) (m : MxRead) (n : Nat) (t : Tile) (r k : Nat) : Int := signed 8 (tileElem s m.core m.c m.a n t 1 r k)

/-- The kept elements of a sparse row that stand at position k (R172): the metadata tile's nibble of the group gives their places. -/
def keptAt (s : State) (y : MxRead) (n : Nat) (m : Tile) (i k : Nat) : List Nat :=
  let g := k / 4
  let b := (tileByte s y.core y.c y.a n m (m.at i (g / 2)) (m.at i (g / 2))).toNat / (if g % 2 = 0 then 1 else 16) % 16
  (if b % 4 = k % 4 then [2 * g] else []) ++ (if b / 4 = k % 4 then [2 * g + 1] else [])

/-- The element numbers of A that stand at position k; none stands for zero. -/
def aPlaces (s : State) (c : MxRead) (x : MxCmd) (i k : Nat) : List (Option Nat) :=
  if x.sp then
    match keptAt s c (x.names.getD 2 0) (x.tiles.getD 2 0) i k with
    | [] => [none]
    | l => l.map some
  else [some k]

/-- The exact sum of some products (R103): a sum of products that are all −0 is −0 (log 24). -/
def sumOf : List FV → FV
  | [] => .fin false 0 0
  | v :: t => t.foldl (fun a x => (fvAdd 0 a x).1) v

/-- A chunk of an element's sum over FP32. -/
def chunkFp (s : State) (c : MxRead) (x : MxCmd) (i j k0 n : Nat) : FV :=
  let a : Tile := x.tiles.getD 0 0
  let b : Tile := x.tiles.getD 1 0
  let bn := x.names.getD 1 0
  let ac := fmtAf x.fmt
  let bc := fmtBf x.fmt
  let K := msK x.ms0
  sumOf ((List.range n).flatMap fun d =>
    let k := k0 + d
    let bv := if x.tb then operandAt s c bn b bc K j k else operandAt s c bn b bc (msN x.ms0) k j
    (aPlaces s c x i k).map fun p => (fvMul (match p with | some e => operandAt s c (x.names.getD 0 0) a ac (if x.sp then K / 2 else K) i e | none => .fin false 0 0) bv).1)

/-- A chunk of an element's sum over INT32. -/
def chunkInt (s : State) (c : MxRead) (x : MxCmd) (i j k0 n : Nat) : Int :=
  let a : Tile := x.tiles.getD 0 0
  let b : Tile := x.tiles.getD 1 0
  ((List.range n).flatMap fun d =>
    let k := k0 + d
    let bv := if x.tb then intAt s c (x.names.getD 1 0) b j k else intAt s c (x.names.getD 1 0) b k j
    (aPlaces s c x i k).map fun p => (match p with | some e => intAt s c (x.names.getD 0 0) a i e | none => 0) * bv).foldl (· + ·) 0

/-- Whether a finite value is not zero and lies below the smallest normal magnitude of FP32 (R104). -/
def belowNormal : FV → Bool
  | .fin _ m e => m != 0 && decide (e + bitLen m ≤ -126)
  | _ => false

/-- The course of one FP32 element through its chunks (R103 to R105): the accumulator, and the first chunk that needs the assist with the
accumulator before it. With WSUB = 1 a result below the normal range becomes zero. -/
def elementFp (s : State) (c : MxRead) (x : MxCmd) (i j size : Nat) : Nat → FV → Nat → Option (Nat × FV) → FV × Option (Nat × FV)
  | 0, acc, _, r => (acc, r)
  | n + 1, acc, ch, r =>
    let y := (fvAdd 0 acc (chunkFp s c x i j (ch * size) size)).1
    if belowNormal y then
      elementFp s c x i j size n (.fin y.neg 0 0) (ch + 1) (if x.fpctl.getLsbD 3 then r else some (r.getD (ch, acc)))
    else elementFp s c x i j size n (roundTo .fp32 0 false y).1 (ch + 1) r

/-- The 4 bytes of an element of a row. -/
def rowWord (r : Row) (j : Nat) : Nat := bits r (32 * j) 32
/-- A row with one 4-byte element replaced. -/
def setRowWord (r : Row) (j v : Nat) : Row := setBits r (32 * j) 32 v

/-- Element (i, j) of an `mma` from the bank's element (R103): its pattern and, where it needs the assist, the chunk and the accumulator
before it. -/
def mmaElement (s : State) (c : MxRead) (x : MxCmd) (old i j : Nat) : Nat × Option (Nat × Nat) :=
  let K := msK x.ms0
  if fmtAcc x.fmt = 0 then
    let z : Int := if x.z then 0 else signed 32 old
    (((z + (List.range (K / 32)).foldl (fun a h => a + chunkInt s c x i j (32 * h) 32) 0) % 2 ^ 32).toNat, none)
  else
    let size := if fmtAf x.fmt = 2 ∨ fmtAf x.fmt = 3 then 16 else 32
    let r := elementFp s c x i j size (K / size) (if x.z then .fin false 0 0 else unpack .fp32 old) 0 none
    (pack .fp32 r.1, r.2.map fun e => (e.1, pack .fp32 e.2))

/-! ### The assist area (R395, R396) -/

/-- The address of a core's assist area. -/
def State.assistArea (s : State) (core : Nat) : Nat := s.ptabBase + 0x40000 + 1024 * core
/-- The entries that the area holds. -/
def assistEntries : Nat := 60

/-- Table 24.4: the header for a command. -/
def assistHeader (x : MxCmd) (n : Nat) (paused : Bool) : List Byte :=
  toBytes 8 (x.tiles.getD 0 0).toNat ++ toBytes 8 (x.tiles.getD 1 0).toNat ++ toBytes 8 (if x.sp then (x.tiles.getD 2 0).toNat else 0)
    ++ toBytes 8 x.ms0.toNat ++ toBytes 4 x.fmt.toNat ++ toBytes 1 (b2n x.z + 2 * b2n x.tb + 4 * b2n x.sp + 8 * x.bank + 16 * b2n paused)
    ++ toBytes 1 n

/-- Writes the header of a core's assist area. -/
def writeHeader (s : State) (core : Nat) (x : MxCmd) (paused : Bool) : State :=
  s.hubWrite (s.assistArea core) 38 (ofBytes (assistHeader x (s.core core).assist.length paused))

/-- Records an element (R105, R396): the entry goes into the area, RESULT zero. -/
def recordAssist (s : State) (core : Nat) (x : MxCmd) (e : AssistEnt) : State :=
  let n := (s.core core).assist.length
  let s := s.modCore core fun y => { y with assist := y.assist ++ [e] }
  writeHeader (s.hubWrite (s.assistArea core + 64 + 16 * n) 16
    (ofBytes (toBytes 4 e.acc ++ toBytes 4 0 ++ toBytes 1 e.row ++ toBytes 1 e.col ++ toBytes 1 e.chunk ++ toBytes 5 0))) core x false

/-- The assist trap (R105, R391): base the C slot's next bundle, COUNT and PAUSED in ARG. -/
def raiseAssist (s : State) (core : Nat) (paused : Bool) : State :=
  match s.ctxOf core with
  | none => s
  | some c =>
    (s.modCore core fun x => { x with assistTrap := true, assistPaused := paused }).takeResumable core 0
      (trapOf s core c kAssist 0 0 (c.afterCycle s).standsAt.1 (c.afterCycle s).standsAt.2 none (BitVec.ofNat 64 ((s.core core).assist.length + 256 * b2n paused)))

/-- The lowest row that the assist holds in a bank; 128 where none (R174). -/
def assistFloor (s : State) (core bank : Nat) : Nat :=
  if (s.core core).mx.any fun x => x.assisted && x.bank == bank then (s.core core).assist.foldl (fun m e => min m e.row) 128 else 128

/-! ### The pipes (R161, R174) -/

/-- Changes a command of a core's engine, by its place. -/
def State.setMx (s : State) (core i : Nat) (f : MxCmd → MxCmd) : State := s.modCore core fun x => { x with mx := x.mx.modify i f }

/-- Whether a command is a writing command. -/
def MxCmd.writes (x : MxCmd) : Bool := x.kind != 4
/-- Whether a command's computation has ended: it has left its pipe. -/
def MxCmd.ended (x : MxCmd) : Bool := x.writes && decide (x.rows ≤ x.done)

/-- Whether a store's bytes are bytes that an earlier command has still to read (R161). -/
def stillRead (x st : MxCmd) : Bool :=
  (x.kind == 1 || x.kind == 3) && decide (x.done < x.rows) &&
    x.tiles.any fun t => st.tiles.any fun u => Tile.obj t == Tile.obj u && decide (Tile.offset t < Tile.stop u) && decide (Tile.offset u < Tile.stop t)

/-- The command that a pipe may start: the first of the pipe that has not started, where none of the pipe is running and the order of the
banks lets it (R161). -/
def startable (l : List MxCmd) (store : Bool) : Option Nat :=
  let mine := fun x : MxCmd => x.writes != store
  if l.any fun x => mine x && x.started && !x.ended then none else
    match l.findIdx? fun x => mine x && !x.started with
    | none => none
    | some i =>
      match l[i]? with
      | none => none
      | some x =>
        let before := l.take i
        let ok := if store then before.all fun y => (y.bank != x.bank || y.kind == 4 || y.started) && !stillRead y x
          else before.all fun y => y.bank != x.bank
        if ok then some i else none

/-- `MX_COMMAND_START` (R161, R174): the compute pipe of core `args.core`, or its store pipe where `args.flag`, starts its next command; a
writing command lowers the watermark, a store reads the rows below it. -/
def execMxCommandStart (s : State) : Host.Outcome State Fault Refusal :=
  let core := s.args.core
  match startable (s.core core).mx s.args.flag with
  | none => .next s.tick
  | some i =>
    match (s.core core).mx[i]? with
    | none => .next s.tick
    | some x =>
      if x.writes then .next ((s.setMx core i fun x => { x with started := true }).setWm core x.bank x.row0).tick
      else
        let rows := (List.range x.rows).filter fun r => decide (x.row0 + r < s.wm core x.bank)
        let acc := rows.foldl (fun a r => sput 0 a r (sget 0 (s.core core).acc (128 * x.bank + x.row0 + r))) x.acc
        .next (s.setMx core i fun x => { x with started := true, done := rows.length, acc := acc }).tick

/-- The writing command that runs in the compute pipe. -/
def running (l : List MxCmd) : Option Nat := l.findIdx? fun x => x.writes && x.started && !x.ended

/-- A row of an accumulator bank. -/
def State.accRow (s : State) (core bank r : Nat) : Row := sget 0 (s.core core).acc (128 * bank + r)
/-- Writes a row of an accumulator bank. -/
def State.setAccRow (s : State) (core bank r : Nat) (v : Row) : State :=
  s.modCore core fun x => { x with acc := sput 0 x.acc (128 * bank + r) v }

/-- One row of a running `mma` from its next element on (R103, R105, R396): none where an element needs an entry while the area holds
another command's; paused before an element that would need a 61st. -/
def mmaRow (core i : Nat) (x : MxCmd) (c : MxRead) : Nat → State → Option State
  | 0, s => some s
  | n + 1, s =>
    let j := msN x.ms0 - (n + 1)
    if j < x.col then mmaRow core i x c n s else
      let r := x.row0 + x.done
      let (v, need) := mmaElement s c x (rowWord (s.accRow core x.bank r) j) x.done j
      let put := fun s : State => s.setAccRow core x.bank r (setRowWord (s.accRow core x.bank r) j v)
      match need with
      | none => mmaRow core i x c n (put s)
      | some (ch, a) =>
        if (s.core core).mx.zipIdx.any fun y => y.1.assisted && y.2 != i then none
        else if assistEntries ≤ (s.core core).assist.length then
          some (raiseAssist (writeHeader (s.setMx core i fun x => { x with col := j, paused := true }) core x true) core true)
        else mmaRow core i x c n (recordAssist (put (s.setMx core i fun x => { x with assisted := true })) core x ⟨a, r, j, ch⟩)

/-- The rows of a bank become readable up to a row, but none at or above one that the assist holds (R174, R396). -/
def raiseWm (s : State) (core bank n : Nat) : State := s.setWm core bank (min n (assistFloor s core bank))

/-- A loaded row (R177): the tile's elements widened into the columns they cover. -/
def loadedRow (s : State) (c : MxRead) (x : MxCmd) (old : Row) : Row :=
  let t : Tile := x.tiles.getD 0 0
  let w := rowElem t.fmtc
  (List.range (t.rowBytes / w)).foldl (fun r j =>
    let p := tileElem s c.core c.c c.a (x.names.getD 0 0) t w x.done j
    setRowWord r j (if t.fmtc = 2 ∨ t.fmtc = 3 then pack .fp32 (unpack (fmtOfCode t.fmtc) p) else p)) old

/-- The port checks of the tiles that a matrix command reads (R351): its space may since have changed hands or generation (R354), shrunk or lost a region. -/
def operandCheck (s : State) (core : Nat) (c : Ctx) (x : MxCmd) : Except Stop Unit :=
  if x.kind = 1 ∨ x.kind = 3 then
    (x.tiles.zip x.gens).forM fun t => portCheck s (whoOf core c) (some t.2) (Tile.obj t.1) (Tile.offset t.1) (Tile.stop t.1 - Tile.offset t.1) false 0
  else .ok ()

/-- A matrix command's reads of its operand tiles, recorded. -/
def recordTiles (s : State) (a : Act) (x : MxCmd) : State :=
  if x.kind = 1 ∨ x.kind = 3 then
    (x.tiles.zip x.names).foldl (fun s t => s.recordRead
      { a with obj := Tile.obj t.1, off := Tile.offset t.1, len := Tile.stop t.1 - Tile.offset t.1, tile := some t.2 }) s
  else s

/-- `MMA_ROW_FINAL` (R174): the next row of the writing command that runs on core `args.core` becomes final; after the last one of an `mma`
with recorded elements the assist trap is raised (R105). -/
def execMmaRowFinal (s : State) : Host.Outcome State Fault Refusal :=
  let core := s.args.core
  match s.ctxOf core, running (s.core core).mx with
  | some c, some i =>
    match (s.core core).mx[i]? with
    | none => .next s.tick
    | some x =>
      if x.paused then .next s.tick else match operandCheck s core c x with
      | .error e => stopEvent s core 5 e
      | .ok () =>
        let r := x.row0 + x.done
        let a := accessM core c x.pos
        let s := recordTiles s a x
        let c : MxRead := ⟨core, c, a⟩
        let after := if x.kind = 1 then mmaRow core i x c (msN x.ms0) s
          else some (s.setAccRow core x.bank r (if x.kind = 2 then 0 else loadedRow s c x (s.accRow core x.bank r)))
        match after with
        | none => .next s.tick
        | some t =>
          if ((t.core core).mx[i]?).any (·.paused) then .next (raiseWm t core x.bank r).tick
          else
            let t := raiseWm (t.setMx core i fun x => { x with done := x.done + 1, col := 0 }) core x.bank (r + 1)
            let last := decide (x.rows ≤ x.done + 1) && ((t.core core).mx[i]?).any (·.assisted)
            .next (if last then raiseAssist t core false else t).tick
  | _, _ => .next s.tick

/-- The pattern that a store writes for an accumulator element, with its flags, and the value it examines (R107, R177). -/
def storedElem (f : BitVec 32) (fpctl : BitVec 5) (w : Nat) : Nat × Flags × FV :=
  let rm : RM := fpctl.setWidth 2
  if fmtAcc f = 0 then
    let v := ofInt (signed 32 w) 0 false
    if fmtOut f = 0 then (w, 0, v) else
      let r := roundTo .fp32 rm false v
      (pack .fp32 r.1, r.2, v)
  else
    let v := unpack .fp32 w
    if fmtOut f = 1 then (w, 0, v) else
      let g := fmtOfCode (fmtOut f)
      let r := roundTo g rm (!fpctl.getLsbD 4) v
      (pack g r.1, r.2, v)

/-- An element that a store has read: the offset of its place, its bytes, the flags of its conversion, and the value that `AMAX` examines. -/
structure StoreElem where
  off : Nat
  data : List Byte
  flags : Flags
  value : FV

/-- The elements of some rows that a store reads (R177). -/
def storeElems (s : State) (core : Nat) (x : MxCmd) (rows : List Nat) : List StoreElem :=
  let t : Tile := x.tiles.getD 0 0
  let w := rowElem (fmtOut x.fmt)
  rows.flatMap fun r =>
    let row := if r < x.done then sget 0 x.acc r else s.accRow core x.bank (x.row0 + r)
    (List.range (t.rowBytes / w)).map fun j =>
      let e := storedElem x.fmt x.fpctl (rowWord row j)
      ⟨t.at r (j * w), toBytes w e.1, e.2.1, e.2.2⟩

/-- The flags and `AMAX` of some elements (R107, R177). -/
def storeRaises (l : List StoreElem) : Flags × (Nat × Bool) := l.foldl (fun a e => (a.1 ||| e.flags, amaxUpdate e.value a.2)) (0, (0, false))

/-- The flags and `AMAX` of a store reach its context (R28). -/
def raiseStore (s : State) (core : Nat) (x : MxCmd) (l : List StoreElem) : State :=
  let r := storeRaises l
  s.modCtx core fun c => c.raise { Fly.nil .mx x.pos 0 with flags := r.1, amax := r.2.1, amaxNan := r.2.2 }

/-- A write that an engine holds in the porch (R163, R241), under the generation that the tile's space had at the command's issue (R354). -/
def heldTile (c : Ctx) (path : Path) (cls : Nat) (slot : Slot) (pos n : Nat) (t : Tile) (gen : Nat) (data : List (Nat × Byte)) : Held :=
  { path := path, cls := cls, rel := false, scope := 0, group := c.group, slot := slot, pos := pos,
    cap := mkCap t.obj 0xFF 0 (spaceSize t.obj) gen true, off := t.offset, len := 0, fold := none, cmd := none, tile := some n, op := .bytes data }

/-- What a store holds: each element a unit, as for a vector store (R153, R163). -/
def heldStore (c : Ctx) (x : MxCmd) (data : List (Nat × Byte)) : Held :=
  { heldTile c .m 15 .mx x.pos (x.names.getD 0 0) (x.tiles.getD 0 0) (x.gens.getD 0 0) data with group := x.group, unit := rowElem (fmtOut x.fmt) }

/-- `MX_COMMAND_COMPLETE` (R161, R174): the running command of a pipe of core `args.core` completes; a store holds its bytes, updates `AMAX`
and the flags, and makes its tile `READY`. A command held by an assist completes at its release. -/
def execMxCommandComplete (s : State) : Host.Outcome State Fault Refusal :=
  let core := s.args.core
  let l := (s.core core).mx
  match s.ctxOf core, l.findIdx? fun x => x.started && x.writes != s.args.flag && !x.assisted with
  | some c, some i =>
    match l[i]? with
    | none => .next s.tick
    | some x =>
      let gone := fun (s : State) => s.modCore core fun y => { y with mx := y.mx.eraseIdx i }
      if x.writes then
        if x.done < x.rows then .next s.tick else .next ((gone s).setWm core x.bank 128).tick
      else if s.wm core x.bank < x.row0 + x.rows then .next s.tick
      else
        let l := storeElems s core x (List.range (Tile.rows (x.tiles.getD 0 0)))
        match hold s core (heldStore c x (l.flatMap fun e => atOffsets e.off e.data)) with
        | .error e => stopEvent s core 5 e
        | .ok s =>
          .next ((gone (raiseStore s core x l)).tileTo core (x.names.getD 0 0) tReady).tick
  | _, _ => .next s.tick

/-! ### Cancelling (R178) -/

/-- A running store is cancelled (R178): each byte that it would have written of the rows that it could read is the old or the new one, its
tile is `READY`, and the flags and `AMAX` are those of some of the elements; which, is free. -/
def cancelStore (s : State) (core : Nat) (x : MxCmd) : State :=
  let s := s.tileTo core (x.names.getD 0 0) tReady
  match x.started, s.ctxOf core with
  | true, some c =>
    let t : Tile := x.tiles.getD 0 0
    let l := storeElems s core x ((List.range t.rows).filter fun r => decide (r < x.done) || decide (x.row0 + r < s.wm core x.bank))
    let data := ((l.flatMap fun e => atOffsets e.off e.data).zipIdx.filter fun d => s.pickAt 20000 d.2 x.pos % 2 == 1).map (·.1)
    let seen := (l.zipIdx.filter fun e => s.pickAt 20001 e.2 x.pos % 2 == 1).map (·.1)
    match hold s core { heldStore c x data with unit := 1 } with
    | .error _ => s
    | .ok s => raiseStore s core x seen
  | _, _ => s

/-- A cancelled writing command that runs leaves unspecified rows from the watermark up (R178). -/
def cancelWriter (s : State) (core : Nat) (x : MxCmd) : State :=
  if x.started then (List.range x.rows).foldl (fun s r => if r < x.done then s
    else s.setAccRow core x.bank (x.row0 + r) (BitVec.ofNat 4096 (s.pickAt 10000 r x.bank))) s
  else s

/-- Cancels some commands (R178): what the stores could read is as the writing commands have left it before. -/
def cancelSome (s : State) (core : Nat) (p : MxCmd → Bool) : State :=
  let l := (s.core core).mx.filter p
  let s := (l.filter fun x => x.kind == 4).foldl (fun s x => cancelStore s core x) s
  let s := (l.filter fun x => x.kind != 4).foldl (fun s x => cancelWriter s core x) s
  s.modCore core fun y => { y with mx := y.mx.filter fun x => !p x }

/-- The watermarks of some banks become 128. -/
def openBanks (s : State) (core : Nat) (mask : Nat → Bool) : State :=
  let s := if mask 0 then s.setWm core 0 128 else s
  if mask 1 then s.setWm core 1 128 else s

/-- `mcancel` (R178): every command on a selected bank is cancelled but an `mma` that an assist holds, which goes on after its release; the slot waits for it.
The operands kept are the positions of those. -/
def execMcancel (m : BitVec 2) (s : State) : Host.Outcome State Fault Refusal :=
  slotOp (.mcancel m) (fun c s =>
    let core := s.turn
    let held := ((c.caught .mx).getD [] ++ ((s.core core).mx.filter fun x => x.assisted && m.getLsbD x.bank).map (·.pos)).eraseDups
    let t := cancelSome s core fun x => m.getLsbD x.bank && !held.contains x.pos
    if (t.core core).mx.any fun x => m.getLsbD x.bank then .error (.later (keepOperands t core .mx held))
    else .ok (openBanks t core fun b => m.getLsbD b)) s

/-! ### `lend` and `fmt.set` -/

/-- Every vector result for a bank completes (R175). -/
def settleBank (s : State) (core bank : Nat) : State :=
  let mine := fun w : Fly => match w.dst with | some (.row b _, _) => b == bank | _ => false
  (s.modCtx core fun c => c.complete mine).retire core mine

/-- Sets the owner of a bank for the positions after that of the core's moving bundle (R175). -/
def setOwner (s : State) (core bank : Nat) (vec : Bool) : State :=
  s.modCore core fun x =>
    let v := (x.accOwnQ.head?.map (·.2)).getD x.accOwn
    { x with accOwnQ := (x.ctx.elim 0 (·.pos), BitVec.ofNat 2 (if vec then v.toNat ||| 2 ^ bank else v.toNat &&& (3 - 2 ^ bank))) :: x.accOwnQ }

/-- Whether a slot has still to issue a position before the context's (R175). -/
def Ctx.laggards (c : Ctx) : Bool := c.bundles.any fun b => decide (b.pos < c.pos)

/-- `lend` to the matrix engine (R175, R176). -/
def execLendMx (b : Bool) (s : State) : Host.Outcome State Fault Refusal :=
  slotOp (.lendMx b) (fun c s => do
    let n := b2n b
    if c.laggards then .error .wait
    if !bankOwner s s.turn n then .ok s
    else do
      need (decide (128 ≤ s.wm s.turn n)) kLendBusy
      .ok (setOwner (settleBank s s.turn n) s.turn n false)) s

/-- `lend` to the vector unit (R175): every earlier matrix command on the bank has started. -/
def execLendVec (b : Bool) (s : State) : Host.Outcome State Fault Refusal :=
  slotOp (.lendVec b) (fun c s =>
    let n := b2n b
    if c.laggards then .error .wait
    else if bankOwner s s.turn n then .ok s
    else if (s.core s.turn).mx.any fun x => x.bank == n && !x.started then .error .wait
    else .ok (setOwner s s.turn n true)) s

/-- `fmt.set` (R179): seen four bundles later (R27). -/
def execFmtSet (scm : BitVec 2) (ofmt accf bf af : BitVec 4) (s : State) : Host.Outcome State Fault Refusal :=
  slotOp (.fmtSet scm ofmt accf bf af) (fun c s =>
    .ok (s.modCur fun x => { x with fmtQ := (c.pos, BitVec.ofNat 32
      (scm.toNat * 65536 + ofmt.toNat * 4096 + accf.toNat * 256 + bf.toNat * 16 + af.toNat)) :: x.fmtQ })) s

end Sys2Proof.Machine
end

