-- ==== Sys2Proof/Machine/Copy.lean ====
section
/-! DEFINITION. The copy engine: its commands, how they run, permits and cancellation (R238 to R255, R361). -/

namespace Sys2Proof.Machine
open Sys2Proof

/-! ### Staging words (Table 14.2) -/

/-- A staging register `xs0` to `xs15` as XC captures it (R26). -/
def readXs (s : State) (c : Ctx) (n : Nat) : Word := readStage s c .xc (8 + n)
/-- OFF of a word. -/
def gOff (w : Word) : Nat := bits w 0 40
/-- MPITCH of G. -/
def gPitch (w : Word) : Nat := bits w 40 24
/-- IV of I. -/
def iIndexed (w : Word) : Bool := w.getLsbD 0
/-- DIR of I: a GET. -/
def iGet (w : Word) : Bool := w.getLsbD 1
/-- Whether the reserved bits of I are zero. -/
def iOk (w : Word) : Bool := bits w 14 18 == 0 && bits w 4 4 == 0
/-- SOFF of S. -/
def sOff (w : Word) : Nat := bits w 0 22
/-- SV of S. -/
def sValid (w : Word) : Bool := w.getLsbD 22
/-- GID of S. -/
def sGid (w : Word) : Nat := bits w 24 8
/-- Whether S is in range: reserved bits zero, SOFF a multiple of 8 and, where it is used, in the scratchpad. -/
def sOk (w : Word) : Bool :=
  bits w 32 32 == 0 && bits w 23 1 == 0 && sOff w % 8 == 0 && (!sValid w || decide (sOff w < 0x200000))

/-! ### What the commands are (Table 14.3) -/

/-- Whether a command writes its tile: `cp.fill`, `cp.gath`, GET. -/
def cpWritesTile (kind : Nat) : Bool := kind == 1 || kind == 3 || kind == 12
/-- The rights besides T. -/
def cpRights (kind : Nat) : List Nat :=
  if kind = 1 ∨ kind = 3 then [rightR] else if kind = 5 then [rightW, rightL] else if kind = 6 ∨ kind = 10 then [rightA]
  else if kind = 9 then [rightG, rightW] else if kind = 12 then [rightG, rightR] else [rightW]
/-- The tiers of the memory side: 0 HBM, 1 Cellar, 2 remote, 4 local spaces; a bouncing page (3) comes to the port checks. -/
def cpTiers (kind : Nat) : List Nat :=
  if kind = 6 then [0, 3, 4] else if kind = 9 ∨ kind = 12 then [2] else if kind = 10 then [0, 2, 3, 4] else if kind = 11 then [0, 3]
  else [0, 1, 3, 4]

/-- A capability's tag and rights (R238 check 2). -/
def needRights (cap : Cap) (l : List Nat) : Except Stop Unit := need (cap.tag && l.all cap.has) kRights

/-- The tier check of a command (R238 check 7). -/
def copyTier (s : State) (core : Nat) (tiers : List Nat) (obj o n : Nat) : Except Stop Unit :=
  if isLocal obj then (if tiers.contains 4 && reaches core obj then .ok () else fatalAt kTier obj o)
  else if s.isTable obj then
    let e := s.seenObj obj 0
    match (pagesOf e.page o n).find? fun pg => !tiers.contains (s.seenPage obj e pg 0).tier with
    | some pg => fatalAt kTier obj (firstIn o pg)
    | none => .ok ()
  else fatalAt kRights obj o

/-- The memory spans of a command within its capability: alignment, bounds, tier and port, each over every span (R238 checks 5 to 8); whether a page may be
written is checked as the writes perform (R348). A span is an offset, a length and the alignment it needs. -/
def spanChecks (s : State) (core : Nat) (c : Ctx) (kind : Nat) (cap : Cap) (l : List (Nat × Nat × Nat)) : Except Stop Unit := do
  l.forM fun x => if x.1 % x.2.2 != 0 then fatalAt kAlign cap.obj ((cap.base + x.1) % 2 ^ 40) else .ok ()
  l.forM fun x => if cap.len < x.1 + x.2.1 then fatalAt kBounds cap.obj ((cap.base + max x.1 cap.len) % 2 ^ 40) else .ok ()
  l.forM fun x => copyTier s core (cpTiers kind) cap.obj (cap.base + x.1) x.2.1
  l.forM fun x => portCheck s (whoOf core c) (some cap.gen) cap.obj (cap.base + x.1) x.2.1 false 0

/-! ### Rows (R245) -/

/-- The rows that a command moves: the tile's row and its offset; a row whose index is all ones is skipped. -/
def copyRows (t : Tile) (off pitch : Nat) (idx : Option (List Nat × Nat)) : List (Nat × Nat) :=
  (List.range t.rows).filterMap fun r => match idx with
    | none => some (r, off + r * pitch)
    | some (l, stride) => if l.getD r 0 = 0xFFFFFFFF then none else some (r, off + l.getD r 0 * stride)

/-- The index tile's gate, its validity, its port (R351), and its first indices (R245); they are read at issue. -/
def readIndex (s : State) (c : Ctx) (n rows : Nat) : Except Stop (List Nat) := do
  let t ← tileNow s c n
  tileGate t false
  if t.space != 0 || decide (t.size < 4 * rows) then fatalR kTile t.err
  portCheck s (whoOf s.turn c) none t.obj t.offset (t.stop - t.offset) false 0
  let a := readAct s.turn c .xc .x 16 0 0 0
  .ok ((List.range rows).map fun r => ofBytes ((List.range 4).map fun i => tileByte s s.turn c a n t (t.stream (4 * r)) (t.stream (4 * r + i))))

/-- The index tile that I names. -/
def indexNames (i : Word) : List Nat := if iIndexed i then [bits i 8 6] else []

/-- The indices and RSTRIDE of a command, where I asks for them. -/
def indexPart (s : State) (c : Ctx) (i : Word) (rows : Nat) : Except Stop (Option (List Nat × Nat)) :=
  if iIndexed i then do .ok (some ((← readIndex s c (bits i 8 6) rows), bits i 32 32)) else .ok none

/-! ### Entering the engine -/

/-- The unfinished commands that the engine holds (R238). -/
def cpEntries : Nat := 32

/-- A command with what it captures at issue. -/
def newCp (s : State) (c : Ctx) (kind tileNo : Nat) (cap : Cap) (cls : Nat) : CpCmd :=
  let t := s.tile s.turn tileNo
  { id := (s.core s.turn).cpNext, kind := kind, pos := c.pos, group := c.group, tileNo := tileNo, tile := t, cap := cap,
    names := [tileNo], rows := [], spans := [], handle := none, mask := 0, rop := 0, topk := 0, cols := 0, counts := none, gid := 0, pitch := 0, pv := false, pmt := c.pmt,
    atomic := false, cls := cls,
    held := if cpWritesTile kind then t.space != 0
      else !((kind == 2 || kind == 4 || kind == 7 || kind == 8) && cap.obj == 0xFF8000 + s.turn)
    tileGen := spaceGen s t, begun := false, moves := [] }

/-- The rows of a command, of so many bytes each, as object offsets. -/
def absRows (cap : Cap) (n : Nat) (l : List (Nat × Nat)) : List CpPart := l.map fun x => ⟨x.1, 0, n, cap.base + x.2⟩

/-- The access of a command (R240): on path X, at its place in program order, of its tile (Table 15.3 clause 8). -/
def accessX (core : Nat) (c : Ctx) (x : CpCmd) : Act :=
  { readAct core c .xc .x x.cls 0 0 0 with prog := (c.segment, x.pos, Slot.xc.idx), tile := some x.tileNo }

/-- A command enters the engine (R238): its tile becomes `FILLING` or `DRAINING`, its pages are accessed, and its index tile has been read. -/
def enterCp (s : State) (x : CpCmd) (l : List (Nat × Nat × Nat)) : State :=
  let t : Tile := x.tile
  let mem := l.map fun y => (x.cap.obj, x.cap.base + y.1, y.2.1)
  let s := mem.foldl (fun s y => touch s y.1 y.2.1 y.2.2 0) s
  let s := (s.ctxOf s.turn).elim s fun c => (x.names.drop 1).foldl (fun s n =>
    let i := s.tile s.turn n
    s.recordRead { accessX s.turn c x with obj := i.obj, off := i.offset, len := i.stop - i.offset, tile := some n }) s
  let s := s.modCore s.turn fun y =>
    { y with cp := y.cp ++ [{ x with spans := (t.obj, t.offset, t.stop - t.offset) :: mem }], cpNext := y.cpNext + 1 }
  s.tileTo s.turn x.tileNo (if cpWritesTile x.kind then tFilling else tDraining)

/-- A command waits at its issue while the engine holds 32 (R238), and for a fence that orders it (R229, R230). -/
def roomInCp (s : State) (c : Ctx) (cls : BitVec 4) : Except Stop Unit :=
  if cpEntries ≤ (s.core s.turn).cp.length || c.fenced (readAct s.turn c .xc .x cls.toNat 0 0 0) then .error .wait else .ok ()

/-- Whether two commands touch a common byte, or may (their spans meet). -/
def cpMeets (x y : CpCmd) : Bool :=
  x.spans.any fun a => y.spans.any fun b => a.1 == b.1 && decide (a.2.1 < b.2.1 + b.2.2) && decide (b.2.1 < a.2.1 + a.2.2)

/-- Whether an earlier command of the context keeps a command from its first access (R240, Table 15.3): the same class, or a common byte. -/
def cpAfter (y x : CpCmd) : Bool := y.cls == x.cls || cpMeets x y

/-- The status of a remote or group command begins (R252). -/
def beginTracked (s : State) (c : Ctx) (x : CpCmd) (kind unsent : Nat) (w : Word) : State :=
  { s with tracked := s.tracked ++ [{
      core := s.turn, cmd := x.id, kind := kind, cls := x.cls, sv := sValid w, soff := sOff w, unsent := unsent, rows := [], bad := [],
      good := 0, code := 0, reason := 0, stopped := false, fold := Tile.fold x.tile, names := x.names,
      owner := (c.record.frameObj, c.record.frameOff) }] }

/-- `cp.fill` of a bound tile (R259): from the handle's destination region. The register that K names is tested first, though the fill uses no more of
it (R21, R238). A handle that has failed fails the fill at once. -/
def boundFill (s : State) (c : Ctx) (t k : Nat) (g : Word) (atomic : Bool) (cls h : Nat) : Except Stop State := do
  let e := s.tile s.turn t
  needRights (readK s c .xc k) (rightT :: cpRights 1)
  need (handleOk s c.paddock h) kRights
  if k != 0 || atomic then fatalR kCopy 11
  let d := s.handleDesc h
  let rows := copyRows e (gOff g) (if gPitch g = 0 then e.rowBytes else gPitch g) none
  rows.forM fun r => if descLen d < r.2 + e.rowBytes then fatalAt kBounds (descDst d).1 ((descDst d).2 + max r.2 (descLen d)) else .ok ()
  let cap := mkCap (descDst d).1 0xFF (descDst d).2 (descLen d) 0 true
  rows.forM fun r => copyTier s s.turn (cpTiers 1) cap.obj (cap.base + r.2) e.rowBytes
  rows.forM fun r => portCheck s (whoOf s.turn c) none cap.obj (cap.base + r.2) e.rowBytes false 0
  let s := s.mapDrovers fun l => l.map fun r => if r.handle = h then { r with demand := true } else r
  let x := { newCp s c 1 t cap cls with rows := absRows cap e.rowBytes rows, handle := some h }
  let s' := enterCp s x (rows.map fun r => (r.2, e.rowBytes, 1))
  .ok (if (s.handle h).state = hFailed then failFill s' s.turn x (s.handle h).err else s')

/-- `cp.fill`, `cp.drain`, `cp.gath` and `cp.scat` (R245, R246): G, and I where rows are indexed. -/
def copyTile (kind : Nat) (t : BitVec 6) (k : BitVec 3) (xb cls : BitVec 4) (atomic : Bool) (c : Ctx) (s : State) : Except Stop State := do
  roomInCp s c cls
  let e ← tileNow s c t.toNat
  let g := readXs s c xb.toNat
  let indexed := kind == 3 || kind == 4
  let i := if indexed then readXs s c (xb.toNat + 1) else 0
  tileGate e (cpWritesTile kind)
  let idx ← indexPart s c i e.rows
  match (if kind = 1 then e.handle else none) with
  | some h => boundFill s c t.toNat k.toNat g atomic cls.toNat h
  | none => do
    let cap := readK s c .xc k.toNat
    needRights cap (rightT :: cpRights kind)
    if indexed && (!iOk i || !iIndexed i) then fatalR kCopy 1
    let rows := copyRows e (gOff g) (if gPitch g = 0 then e.rowBytes else gPitch g) idx
    let spans := rows.map fun r => (r.2, e.rowBytes, 1)
    spanChecks s s.turn c kind cap spans
    .ok (enterCp s { newCp s c kind t.toNat cap cls.toNat with
      rows := absRows cap e.rowBytes rows, atomic := atomic, names := t.toNat :: indexNames i } spans)

/-- `cp.fill` (R245, R246, R259). -/
def execCpFill (t : BitVec 6) (k : BitVec 3) (xb : BitVec 4) (a : Bool) (c : BitVec 4) (s : State) : Host.Outcome State Fault Refusal :=
  slotOp (.cpFill t k xb a c) (copyTile 1 t k xb c a) s

/-- `cp.drain` (R245, R246). -/
def execCpDrain (t : BitVec 6) (k : BitVec 3) (xb : BitVec 4) (a : Bool) (c : BitVec 4) (s : State) : Host.Outcome State Fault Refusal :=
  slotOp (.cpDrain t k xb a c) (copyTile 2 t k xb c a) s

/-- `cp.gath` (R245). -/
def execCpGath (t : BitVec 6) (k : BitVec 3) (xb : BitVec 4) (c : BitVec 4) (s : State) : Host.Outcome State Fault Refusal :=
  slotOp (.cpGath t k xb c) (copyTile 3 t k xb c false) s

/-- `cp.scat` (R245). -/
def execCpScat (t : BitVec 6) (k : BitVec 3) (xb : BitVec 4) (c : BitVec 4) (s : State) : Host.Outcome State Fault Refusal :=
  slotOp (.cpScat t k xb c) (copyTile 4 t k xb c false) s

/-- The scratchpads that a MASK names, as cores (R245). -/
def maskCores (core : Nat) (m : BitVec 48) : List Nat := ((List.range 48).filter fun i => m.getLsbD i).map fun i => 48 * clusterOf core + i

/-- The port checks of a broadcast (R245): check 1 on the named scratchpad, the others on each one written. -/
def bcstPorts (s : State) (c : Ctx) (cap : Cap) (mask : BitVec 48) (rows : List (Nat × Nat)) (n : Nat) : Except Stop Unit := do
  if s.isClearing cap.obj then .error .wait
  if cap.gen != bits (s.desc cap.obj) 0 16 then fatalAt kRevoked cap.obj (cap.base + ((rows.head?.map (·.2)).getD 0))
  (maskCores s.turn mask).forM fun i => rows.forM fun r =>
    portCheck s (whoOf s.turn c) none (0xFF8000 + i) (cap.base + r.2) n true 0

/-- `cp.bcst` (R245). -/
def execCpBcst (t : BitVec 6) (k : BitVec 3) (xb : BitVec 4) (c : BitVec 4) (s : State) : Host.Outcome State Fault Refusal :=
  slotOp (.cpBcst t k xb c) (fun x s => do
    roomInCp s x c
    let e ← tileNow s x t.toNat
    let g := readXs s x xb.toNat
    let m := readXs s x (xb.toNat + 1)
    tileGate e false
    let cap := readK s x .xc k.toNat
    needRights cap (rightT :: cpRights 5)
    if bits m 48 16 != 0 then fatalR kCopy 1
    if bits m 0 48 == 0 || m.getLsbD (s.turn % 48) then fatalR kCopy 9
    let rows := copyRows e (gOff g) (if gPitch g = 0 then e.rowBytes else gPitch g) none
    rows.forM fun r => if cap.len < r.2 + e.rowBytes then fatalAt kBounds cap.obj ((cap.base + max r.2 cap.len) % 2 ^ 40) else .ok ()
    if !(isScratch cap.obj && reaches s.turn cap.obj) then fatalAt kTier cap.obj (cap.base + gOff g)
    bcstPorts s x cap (m.setWidth 48) rows e.rowBytes
    .ok (enterCp s { newCp s x 5 t.toNat cap c.toNat with rows := absRows cap e.rowBytes rows, mask := m.setWidth 48 } [])) s

/-- The tile format that an addition needs (Table 14.5). -/
def ropFmt (rop : Nat) : Nat := if rop = 0 then 1 else if rop = 1 then 2 else 0

/-- `cp.red` (R247): ROP is E's. -/
def copyRed (t : BitVec 6) (k : BitVec 3) (xb cls : BitVec 4) (c : Ctx) (s : State) : Except Stop State := do
  roomInCp s c cls
  let e ← tileNow s c t.toNat
  let g := readXs s c xb.toNat
  let w := readXs s c (xb.toNat + 1)
  tileGate e false
  let cap := readK s c .xc k.toNat
  needRights cap (rightT :: cpRights 6)
  if bits w 4 60 != 0 then fatalR kCopy 1
  if 5 ≤ w.toNat then fatalR kCopy 10
  need (e.fmtc == ropFmt w.toNat) kFormat
  if gPitch g % 4 != 0 then fatalAt kAlign cap.obj ((cap.base + gOff g) % 2 ^ 40)
  let rows := copyRows e (gOff g) (if gPitch g = 0 then e.rowBytes else gPitch g) none
  let spans := rows.map fun r => (r.2, e.rowBytes, 4)
  spanChecks s s.turn c 6 cap spans
  .ok (enterCp s { newCp s c 6 t.toNat cap cls.toNat with rows := absRows cap e.rowBytes rows, rop := w.toNat } spans)

/-- `cp.red` as FP32 addition (Table 14.5); the operation is ROP's. -/
def execCpRedFadd (t : BitVec 6) (k : BitVec 3) (xb : BitVec 4) (c : BitVec 4) (s : State) : Host.Outcome State Fault Refusal :=
  slotOp (.cpRedFadd t k xb c) (copyRed t k xb c) s

/-- `cp.red` as BF16×2 addition. -/
def execCpRedBf2Add (t : BitVec 6) (k : BitVec 3) (xb : BitVec 4) (c : BitVec 4) (s : State) : Host.Outcome State Fault Refusal :=
  slotOp (.cpRedBf2Add t k xb c) (copyRed t k xb c) s

/-- `cp.red` as INT32 addition. -/
def execCpRedIntAdd (t : BitVec 6) (k : BitVec 3) (xb : BitVec 4) (c : BitVec 4) (s : State) : Host.Outcome State Fault Refusal :=
  slotOp (.cpRedIntAdd t k xb c) (copyRed t k xb c) s

/-- `cp.red` as signed maximum. -/
def execCpRedSmax (t : BitVec 6) (k : BitVec 3) (xb : BitVec 4) (c : BitVec 4) (s : State) : Host.Outcome State Fault Refusal :=
  slotOp (.cpRedSmax t k xb c) (copyRed t k xb c) s

/-- `cp.red` as unsigned maximum. -/
def execCpRedUmax (t : BitVec 6) (k : BitVec 3) (xb : BitVec 4) (c : BitVec 4) (s : State) : Host.Outcome State Fault Refusal :=
  slotOp (.cpRedUmax t k xb c) (copyRed t k xb c) s

/-! ### Selection (R248, R249) -/

/-- `cp.selr` (kind 7) and `cp.selc` (kind 8). -/
def copySelect (kind : Nat) (t : BitVec 6) (k : BitVec 3) (xb cls : BitVec 4) (c : Ctx) (s : State) : Except Stop State := do
  roomInCp s c cls
  let e ← tileNow s c t.toNat
  let q1 := readXs s c xb.toNat
  let q2 := readXs s c (xb.toNat + 1)
  tileGate e false
  let cap := readK s c .xc k.toNat
  needRights cap (rightT :: cpRights kind)
  let K := bits q1 40 8 + 1
  let nc := bits q2 40 8 + 1
  if bits q1 48 16 != 0 || bits q2 48 15 != 0 then fatalR kCopy 1
  if decide (e.rowBytes / (if e.fmtc = 1 then 4 else 2) < nc) || decide ((if kind = 7 then nc else e.rows) < K) then fatalR kCopy 2
  need (e.fmtc == 1 || e.fmtc == 2) kFormat
  let recs := 8 * K * (if kind = 7 then e.rows else nc)
  let cnts := 4 * (if kind = 7 then nc else e.rows)
  let spans := (gOff q1, recs, 8) :: (if q2.getLsbD 63 then [(gOff q2, cnts, 4)] else [])
  if gOff q2 % 4 != 0 then fatalAt kAlign cap.obj ((cap.base + gOff q2) % 2 ^ 40)
  spanChecks s s.turn c kind cap spans
  .ok (enterCp s { newCp s c kind t.toNat cap cls.toNat with
    rows := [⟨0, 0, 1, cap.base + gOff q1⟩], topk := K, cols := nc, counts := if q2.getLsbD 63 then some (cap.base + gOff q2) else none } spans)

/-- `cp.selr` (R248). -/
def execCpSelr (t : BitVec 6) (k : BitVec 3) (xb : BitVec 4) (c : BitVec 4) (s : State) : Host.Outcome State Fault Refusal :=
  slotOp (.cpSelr t k xb c) (copySelect 7 t k xb c) s

/-- `cp.selc` (R248). -/
def execCpSelc (t : BitVec 6) (k : BitVec 3) (xb : BitVec 4) (c : BitVec 4) (s : State) : Host.Outcome State Fault Refusal :=
  slotOp (.cpSelc t k xb c) (copySelect 8 t k xb c) s

/-- Whether score `a` ranks before score `b` (R248): the greater value, NaN last, then the lower index. -/
def ranksBefore (a b : Nat × FV) : Bool :=
  match a.2, b.2 with
  | .nan _, .nan _ => decide (a.1 < b.1)
  | .nan _, _ => false
  | _, .nan _ => true
  | x, y => let r := fvCmp x y; decide (0 < r) || (r == 0 && decide (a.1 < b.1))

/-- Sorts a score into a list in rank order. -/
def rankIn (a : Nat × FV) : List (Nat × FV) → List (Nat × FV)
  | [] => [a]
  | b :: t => if ranksBefore a b then a :: b :: t else b :: rankIn a t

/-- The first `k` indices of some scores in rank order. -/
def topOf (k : Nat) (l : List FV) : List Nat := ((l.zipIdx.foldl (fun r x => rankIn (x.2, x.1) r) []).take k).map (·.1)

/-- The records and counts of a selection from a score function: `n` lists of `m` scores, `k` records each (R248). -/
def selection (k n m : Nat) (score : Nat → Nat → Nat) (off : Nat) (counts : Option Nat) : List (Nat × Byte) :=
  let lists := (List.range n).map fun i => topOf k ((List.range m).map fun j => unpack .fp32 (score i j))
  let recs := lists.zipIdx.flatMap fun l => l.1.zipIdx.flatMap fun x =>
    atOffsets (off + 8 * (l.2 * k + x.2)) (toBytes 4 x.1 ++ toBytes 4 (score l.2 x.1))
  recs ++ (match counts with
    | none => []
    | some o => (List.range m).flatMap fun j => atOffsets (o + 4 * j) (toBytes 4 ((lists.filter fun l => l.contains j).length)))

/-! ### Remote commands (R250 to R252, R361) -/

/-- The connection, and the message, of a GET of a part of a row (R361). -/
def getMessage (s : State) (x : CpCmd) (row start o n : Nat) : Nat × Message :=
  let e := s.seenObj x.cap.obj 0
  let tgt := remoteTarget e (pageFor s x.cap.obj e (o / e.page * e.page) 0) o
  (tgt.1, { seq := 0, kind := 4, obj := e.robj, off := tgt.2, gen := e.rgen, right := rightR, len := n, data := [], core := s.turn, cmd := x.id, row := row, col := o - start, sent := 0 })

/-- Sends the requests of a GET (R250). -/
def sendGets (s : State) (x : CpCmd) : State :=
  x.rows.foldl (fun s r => (splitSpan (r.len + 1) r.mem r.len).foldl (fun s p =>
    let m := getMessage s x r.row r.mem p.1 p.2
    (sendMessage s m.1 m.2).track s.turn x.id fun t => t.expect r.row 1) s) s

/-- Whether the connections of a GET's requests may take them (R283). -/
def roomForGets (s : State) (x : CpCmd) : Bool :=
  let l := x.rows.flatMap fun r => (splitSpan (r.len + 1) r.mem r.len).map fun p => (getMessage s x r.row r.mem p.1 p.2).1
  l.all fun cn => decide ((s.conn cn).unacked.length + l.count cn ≤ sendLimit)

/-- `cp.rma` (R250): DIR is I's. -/
def copyRma (t : BitVec 6) (k : BitVec 3) (xb cls : BitVec 4) (c : Ctx) (s : State) : Except Stop State := do
  roomInCp s c cls
  let e ← tileNow s c t.toNat
  let g := readXs s c xb.toNat
  let i := readXs s c (xb.toNat + 1)
  let w := readXs s c (xb.toNat + 2)
  let kind := if iGet i then 12 else 9
  tileGate e (cpWritesTile kind)
  let idx ← indexPart s c i e.rows
  let cap := readK s c .xc k.toNat
  needRights cap (rightT :: cpRights kind)
  if !iOk i || !sOk w then fatalR kCopy 1
  let rows := copyRows e (gOff g) (if gPitch g = 0 then e.rowBytes else gPitch g) idx
  let spans := rows.map fun r => (r.2, e.rowBytes, 1)
  spanChecks s s.turn c kind cap spans
  let x := { newCp s c kind t.toNat cap cls.toNat with rows := absRows cap e.rowBytes rows, pv := i.getLsbD 3, names := t.toNat :: indexNames i }
  -- a GET's requests go out at issue, after the earlier commands that its accesses follow (R240); its landing is still to come
  let full := { x with spans := (e.obj, e.offset, e.stop - e.offset) :: spans.map fun y => (cap.obj, cap.base + y.1, y.2.1) }
  if kind = 12 ∧ (((s.core s.turn).cp.any fun y => cpAfter y full) || !roomForGets s x) then .error .wait
  let s' := beginTracked s c x 0 (if kind = 12 then 1 else rows.length) w
  if kind = 12 then .ok (enterCp (sendGets s' x) { x with rows := [] } spans) else .ok (enterCp s' x spans)

/-- `cp.rma` as a PUT (R250); the direction is DIR's. -/
def execCpRmaPut (t : BitVec 6) (k : BitVec 3) (xb : BitVec 4) (c : BitVec 4) (s : State) : Host.Outcome State Fault Refusal :=
  slotOp (.cpRmaPut t k xb c) (copyRma t k xb c) s

/-- `cp.rma` as a GET (R250). -/
def execCpRmaGet (t : BitVec 6) (k : BitVec 3) (xb : BitVec 4) (c : BitVec 4) (s : State) : Host.Outcome State Fault Refusal :=
  slotOp (.cpRmaGet t k xb c) (copyRma t k xb c) s

/-- Whether a span of an object touches a remote page (R361). -/
def remoteIn (s : State) (obj o n : Nat) : Bool :=
  s.isTable obj && (let e := s.seenObj obj 0; (pagesOf e.page o n).any fun pg => (s.seenPage obj e pg 0).tier == 2)

/-- `cp.ramo` (R251, R361). -/
def execCpRamo (t : BitVec 6) (k : BitVec 3) (xb : BitVec 4) (c : BitVec 4) (s : State) : Host.Outcome State Fault Refusal :=
  slotOp (.cpRamo t k xb c) (fun y s => do
    roomInCp s y c
    let e ← tileNow s y t.toNat
    let g := readXs s y xb.toNat
    let i := readXs s y (xb.toNat + 1)
    let w := readXs s y (xb.toNat + 2)
    tileGate e false
    let idx ← indexPart s y i e.rows
    let cap := readK s y .xc k.toNat
    let rows := copyRows e (gOff g) (if gPitch g = 0 then e.rowBytes else gPitch g) idx
    -- G where a row is remote (R361)
    needRights cap (rightT :: cpRights 10 ++ if rows.any fun r => remoteIn s cap.obj (cap.base + r.2) e.rowBytes then [rightG] else [])
    if !iOk i || !sOk w then fatalR kCopy 1
    let rop := bits i 2 1
    need (e.fmtc == ropFmt rop) kFormat
    if gOff g % 4 != 0 || gPitch g % 4 != 0 then fatalAt kAlign cap.obj ((cap.base + gOff g) % 2 ^ 40)
    let spans := rows.map fun r => (r.2, e.rowBytes, 4)
    spanChecks s s.turn y 10 cap spans
    let x := { newCp s y 10 t.toNat cap c.toNat with rows := absRows cap e.rowBytes rows, rop := rop, names := t.toNat :: indexNames i }
    .ok (enterCp (beginTracked s y x 1 rows.length w) x spans)) s

/-- `cp.gdrain` (R254). -/
def execCpGdrain (t : BitVec 6) (k : BitVec 3) (xb : BitVec 4) (c : BitVec 4) (s : State) : Host.Outcome State Fault Refusal :=
  slotOp (.cpGdrain t k xb c) (fun y s => do
    roomInCp s y c
    let e ← tileNow s y t.toNat
    let g := readXs s y xb.toNat
    let w := readXs s y (xb.toNat + 1)
    tileGate e false
    let cap := readK s y .xc k.toNat
    needRights cap (rightT :: cpRights 11)
    if !sOk w then fatalR kCopy 1
    if e.rows != 128 || e.rowBytes != 512 || (gPitch g != 0 && decide (gPitch g < 1024)) then fatalR kCopy 3
    need (e.fmtc == 1) kFormat
    let q := s.turn % 4
    let p := if gPitch g = 0 then 1024 else gPitch g
    let rows := copyRows e (gOff g + 128 * (q / 2) * p + 512 * (q % 2)) p none
    let spans := rows.map fun r => (r.2, e.rowBytes, 1)
    spanChecks s s.turn y 11 cap spans
    let x := { newCp s y 11 t.toNat cap c.toNat with rows := absRows cap e.rowBytes rows, gid := sGid w, pitch := p, cols := gOff g }
    .ok (enterCp (beginTracked s y x 2 1 w) x spans)) s

/-! ### Permits (R253) -/

/-- Whether a command of a core's engine keeps a permit operation of a class on the 8 bytes at an object offset waiting (R240, R271). -/
def permitWaits (s : State) (cls obj o : Nat) : Bool :=
  (s.core s.turn).cp.any fun x => x.cls == cls || x.spans.any fun p => p.1 == obj && decide (p.2.1 < o + 8) && decide (o < p.2.1 + p.2.2)

/-- `cp.pmt.grant`: one PERMIT message, held; earlier commands of its class, or on its word, come first (R240). -/
def execCpPmtGrant (k : BitVec 3) (xb : BitVec 4) (c : BitVec 4) (s : State) : Host.Outcome State Fault Refusal :=
  slotOp (.cpPmtGrant k xb c) (fun y s => do
    roomInCp s y c
    let o := readXs s y xb.toNat
    let w := readXs s y (xb.toNat + 1)
    let cap := readK s y .xc k.toNat
    if permitWaits s c.toNat cap.obj (cap.base + gOff o) then .error .wait
    needRights cap [rightG, rightA]
    if bits o 40 24 != 0 || bits w 48 16 != 0 || bits w 0 16 == 0 then fatalR kCopy 1
    spanChecks s s.turn y 9 cap [(gOff o, 8, 8)]
    let dur := if bits w 16 32 = 0 then 9766 else bits w 16 32
    let id := (s.core s.turn).cpNext
    let s := (touch s cap.obj (cap.base + gOff o) 8 0).modCore s.turn fun x => { x with cpNext := x.cpNext + 1 }
    hold s s.turn { heldP y c.toNat false 0 cap (gOff o) 8 (.remote 3 id 0 false 0 (bits w 0 16) dur (List.replicate 8 0)) with
      path := .x, slot := .xc, cmd := some (id, [64]) }) s

/-- `cp.pmt.take`: the porch commits, and the word moves into `PMT`; earlier commands of its class, or on its word, come first (R240, R271). -/
def execCpPmtTake (k : BitVec 3) (xb : BitVec 4) (c : BitVec 4) (s : State) : Host.Outcome State Fault Refusal :=
  slotOp (.cpPmtTake k xb c) (fun y s => do
    let l := (y.caught .xc).getD [(readK s y .xc k.toNat).val.toNat, b2n (readK s y .xc k.toNat).tag, (readXs s y xb.toNat).toNat]
    let cap := keptCap l
    let o := BitVec.ofNat 64 (l.getD 2 0)
    let a := { readAct s.turn y .xc .x c.toNat cap.obj (cap.base + gOff o) 8 with tile := some 64 }
    if permitWaits s c.toNat a.obj a.off then .error .wait
    if (y.caught .xc).isNone then
      roomInCp s y c
      needRights cap [rightA]
      if bits o 40 24 != 0 then fatalR kCopy 1
      spanChecks s s.turn y 6 cap [(gOff o, 8, 8)]
      portCheck s (whoOf s.turn y) (some cap.gen) cap.obj a.off 8 true 0
    let s ← commitNow .xc (keepOperands s s.turn .xc l)
    checkAfter s (do copyTier s s.turn (cpTiers 6) cap.obj a.off 8; portCheck s (whoOf s.turn y) (some cap.gen) cap.obj a.off 8 true 0)
    if fillHeld s a.obj a.off 8 0 then .error (.later (holdFills s a.obj a.off 8 0))
    let s := ((touch s a.obj a.off 8 0).recordRead a).record (Act.over { a with kind := .write false } s)
    let (s, old) := performAtomic s a.obj a.off 8 9 false 0 0 0
    .ok (s.modCur fun c => { c with pmt := BitVec.ofNat 64 old })) s

/-! ### How a command runs -/

/-- The command of a core that has a number, where nothing keeps it waiting. -/
def cpReady (s : State) (core id : Nat) : Option CpCmd :=
  match (s.core core).cp.findIdx? fun x => x.id == id with
  | none => none
  | some i =>
    match (s.core core).cp[i]? with
    | none => none
    | some x => if ((s.core core).cp.take i).any fun y => cpAfter y x then none else some x

/-- Changes a command of a core's engine, by its number. -/
def State.setCp (s : State) (core id : Nat) (f : CpCmd → CpCmd) : State :=
  s.modCore core fun y => { y with cp := y.cp.map fun x => if x.id = id then f x else x }

/-! #### What it reads at once -/

/-- A piece of a part: so many of its bytes from a byte of it on. -/
def CpPart.piece (p : CpPart) (a n : Nat) : CpPart := { p with col := p.col + a, len := n, mem := p.mem + a }
/-- What is left of a part without a piece. -/
def CpPart.without (p : CpPart) (a n : Nat) : List CpPart := [p.piece 0 a, p.piece (a + n) (p.len - (a + n))].filter fun q => 0 < q.len
/-- The bytes of a part's single-copy atomic units (Table 15.2). -/
def CpPart.unit (p : CpPart) : Nat := if p.mem % 16 = p.col % 16 then 16 else 1

/-- The piece of a part that a command reads in one event: whole units of a transfer, from byte `a` and at least `n` of them, all that follow where
`n` is 0; the whole part of another command (log 86). -/
def CpCmd.pieceOf (x : CpCmd) (p : CpPart) (a n : Nat) : Nat × Nat :=
  if 5 < x.kind then (0, p.len) else
    let a := min a (p.len - 1) / p.unit * p.unit
    (a, if n = 0 then p.len - a else min (p.len - a) ((n + p.unit - 1) / p.unit * p.unit))

/-- Whether bytes of a lower row go where a piece's bytes go, and are still to be read: the higher row's value remains (R245). -/
def CpCmd.rowWaits (x : CpCmd) (p : CpPart) : Bool :=
  [2, 4, 5, 9].contains x.kind && x.rows.any fun q => decide (q.row < p.row) && decide (q.mem < p.mem + p.len) && decide (p.mem < q.mem + q.len)

/-- The bytes that a command reads for a part: object, offset, length. -/
def CpCmd.source (x : CpCmd) (p : CpPart) : Nat × Nat × Nat :=
  let t : Tile := x.tile
  if cpWritesTile x.kind then (x.cap.obj, p.mem, p.len)
  else if x.kind = 7 ∨ x.kind = 8 then (t.obj, t.offset, t.stop - t.offset)
  else (t.obj, t.at p.row p.col, p.len)

/-- A command's read of a part performs, checked at its port (R351), under the generation that it had at issue (R354); it waits for a fill that a controller
holds (R15). -/
def readSource (core : Nat) (c : Ctx) (x : CpCmd) (s : State) (p : CpPart) : Except Stop State := do
  let (obj, o, n) := x.source p
  portCheck s (whoOf core c) (if !cpWritesTile x.kind then some x.tileGen else if x.handle.isNone then some x.cap.gen else none) obj o n false 0
  if fillHeld s obj o n 0 then .error (.later (holdFills s obj o n 0))
  .ok ((fillSpan s obj o n 0).recordRead { accessX core c x with obj := obj, off := o, len := n })

/-- The score of a selection's tile as an FP32 pattern (R248). -/
def scoreAt (s : State) (core : Nat) (c : Ctx) (x : CpCmd) (i j : Nat) : Nat :=
  let e := fun w => tileElem s core c (accessX core c x) x.tileNo x.tile w i j
  if Tile.fmtc x.tile = 1 then e 4 else 65536 * e 2

/-- The bytes that a part of a command moves, with the offsets they go to. -/
def partData (s : State) (core : Nat) (c : Ctx) (x : CpCmd) (p : CpPart) : List (Nat × Byte) :=
  let t : Tile := x.tile
  let a := accessX core c x
  let u := if x.kind = 6 ∨ x.kind = 10 then 4 else p.unit
  if cpWritesTile x.kind then
    -- an atomic tile is one unit, whose key is past every other (R278)
    (List.range p.len).map fun i => (t.at p.row (p.col + i), porchByte s core c a x.cap.obj (if x.atomic then 2 ^ 40 - 1 else (p.mem + i) / u * u) (p.mem + i) 0)
  else if x.kind = 7 then selection x.topk t.rows x.cols (scoreAt s core c x) p.mem x.counts
  else if x.kind = 8 then selection x.topk x.cols t.rows (fun j i => scoreAt s core c x i j) p.mem x.counts
  else (List.range p.len).map fun i => (p.mem + i, tileByte s core c a x.tileNo t (t.at p.row ((p.col + i) / u * u)) (t.at p.row (p.col + i)))

/-! #### What it holds and lands -/

/-- A held write of a command, over all that the command writes in memory. -/
def heldX (x : CpCmd) (off unit : Nat) (op : HeldOp) : Held :=
  { path := .x, cls := x.cls, rel := false, scope := 0, group := x.group, slot := .xc, pos := x.pos, cap := x.cap, off := off, len := 0,
    fold := Tile.fold x.tile, cmd := some (x.id, x.names), tile := none, op := op, unit := unit, ordered := x.kind == 7 || x.kind == 8,
    cover := mergeSpans ((x.spans.drop 1).map (·.2)) }

/-- What a part becomes in the porch: a fill's bytes in its tile's space, a broadcast's in each scratchpad, elements, a message's row, or bytes. -/
def partHeld (core : Nat) (c : Ctx) (x : CpCmd) (p : CpPart) (d : List (Nat × Byte)) : List Held :=
  let off := p.mem - x.cap.base
  let bytes := d.map (·.2)
  if cpWritesTile x.kind then
    [{ heldTile c .x x.cls .xc x.pos x.tileNo x.tile x.tileGen d with group := x.group, fold := Tile.fold x.tile, cmd := some (x.id, x.names), unit := p.unit }]
  else if x.kind = 5 then (maskCores core x.mask).map fun i => heldX x off p.unit (.other (0xFF8000 + i) d)
  else if x.kind = 6 then [heldX x off 0 (.elems x.rop ((chunks (p.len / 4) 4 bytes).zipIdx.map fun e => (p.mem + 4 * e.2, ofBytes e.1)))]
  else if x.kind = 9 then [heldX x off 0 (.remote 0 x.id p.row x.pv x.pmt 0 0 bytes)]
  else if x.kind = 10 then [heldX x off 0 (.remote (1 + x.rop) x.id p.row false 0 0 0 bytes)]
  else [heldX x off (if x.kind = 7 ∨ x.kind = 8 then 1 else p.unit) (.bytes d)]

/-- Holds writes in order. -/
def holdAll (core : Nat) : List Held → State → Except Stop State
  | [], s => .ok s
  | h :: t, s => do holdAll core t (← hold s core h)

/-- Whether a command that reads its tile has still to read some of it. -/
def readsTile (n : Nat) (x : CpCmd) : Bool := x.tileNo == n && !cpWritesTile x.kind && !x.rows.isEmpty

/-- A tile leaves `DRAINING` when the last reading command has read it (Table 14.8). -/
def endDrain (s : State) (core n : Nat) : State :=
  if (s.tile core n).state = tDraining ∧ !((s.core core).cp.any (readsTile n)) then s.tileTo core n tReady else s

/-- Bytes of a command that are not held perform as one event (R242): checked at their port (R351), once no `mma` holds them (R169). -/
def landNow (s : State) (core : Nat) (c : Ctx) (x : CpCmd) (d : List (Nat × Byte)) : Except Stop State := do
  let obj := if cpWritesTile x.kind then Tile.obj x.tile else x.cap.obj
  let runs := runsOf (d.map (·.1))
  runs.forM fun r => portCheck s (whoOf core c) (some (if cpWritesTile x.kind then x.tileGen else x.cap.gen)) obj r.1 r.2 true 0
  if runs.any fun r => mmaHolds s obj r.1 r.2 then .error .wait
  let s := runs.foldl (fun s r => s.record (Act.over { accessX core c x with obj := obj, off := r.1, len := r.2, kind := .write false } s)) s
  .ok (landFor (performBytes s obj 0 d) (Tile.fold x.tile) d.length)

/-- A command reads some parts of its source: into the porch, or towards the core's own scratchpad (R241). What an atomic tile writes in memory is one
event; what it lands in a tile are ordinary writes (R246, R278). -/
def moveParts (s : State) (core : Nat) (c : Ctx) (x : CpCmd) (l : List CpPart) : Except Stop State := do
  let s ← l.foldlM (readSource core c x) s
  let all := l.flatMap (partData s core c x)
  if x.kind = 11 then hold s core (heldX x x.cols 0 (.part all x.gid x.id x.cls x.pitch))
  else if x.atomic && !cpWritesTile x.kind then
    if x.held then hold s core (heldX x 0 0 (.tile all)) else landNow s core c x all
  else if x.held then holdAll core (l.flatMap fun p => partHeld core c x p (partData s core c x p)) s
  else .ok (s.setCp core x.id fun y => { y with moves := y.moves ++ l.flatMap fun p =>
    (unitsOf (if x.kind = 7 ∨ x.kind = 8 then 1 else p.unit) (partData s core c x p)).map fun u => (p.row, u) })

/-- The state of a bound tile's handle, for its fill: wait, read, or fail with ERR (R259). -/
def handleGate (s : State) (x : CpCmd) : Except Nat Bool := match x.handle with
  | none => .ok true
  | some h =>
    let y := s.handle h
    if y.state = hFailed then .error y.err else .ok (y.state == hResident)

/-- The first byte of some parts that a fill or gather cannot read from the Cellar (R416). -/
def flashAt (s : State) (x : CpCmd) (l : List CpPart) : Option Nat :=
  if cpWritesTile x.kind then l.findSome? fun p => flashIn s x.cap.obj p.mem p.len 0 else none

/-- A fill that cannot read its Cellar bytes fails with ERR 1; a gather's L2 fill takes the lost-page fault (R416). -/
def flashStop (s : State) (core : Nat) (x : CpCmd) (f : Nat) : State :=
  if x.kind = 1 then failFill s core x 1
  else fatalIn s core 6 ⟨kLostPage, 0, some (x.cap.obj, f), 0, false⟩

/-- A command reads parts, and keeps the rest for later. After the last one its source tile leaves `DRAINING`. -/
def readParts (s : State) (core : Nat) (c : Ctx) (x : CpCmd) (l rest : List CpPart) : Host.Outcome State Fault Refusal :=
  match flashAt s x l with
  | some f => .next (flashStop s core x f).tick
  | none =>
    match moveParts s core c x l with
    | .error e => stopEvent s core 6 e
    | .ok t => .next (endDrain (t.setCp core x.id fun y => { y with begun := true, rows := rest }) core x.tileNo).tick

/-- `COPY_SOURCE_READ` (R241, R261): command `args.id` of core `args.core` reads of the part at place `args.off`, from its byte `args.seq` on,
`args.len` bytes, 0: all that follow. A bound tile's fill waits for its handle, and fails with it (R259). -/
def execCopySourceRead (s : State) : Host.Outcome State Fault Refusal :=
  let core := s.args.core
  match s.ctxOf core, cpReady s core s.args.id with
  | some c, some x =>
    match handleGate s x, x.rows[s.args.off]? with
    | .error e, some _ => .next (failFill s core x e).tick
    | .ok true, some p =>
      let (a, n) := x.pieceOf p s.args.seq s.args.len
      if x.kind = 11 then readParts s core c x x.rows []
      else if x.atomic || x.rowWaits (p.piece a n) then .next s.tick
      else readParts s core c x [p.piece a n] (x.rows.eraseIdx s.args.off ++ p.without a n)
    | _, _ => .next s.tick
  | _, _ => .next s.tick

/-- Whether a unit may land: those of a selection in their order (R248), and none before those of a lower row on the same bytes (R245). -/
def CpCmd.mayLand (x : CpCmd) (i : Nat) (m : Nat × List (Nat × Byte)) : Bool :=
  if x.kind = 7 ∨ x.kind = 8 then i == 0
  else cpWritesTile x.kind || !x.moves.any fun y => decide (y.1 < m.1) && y.2.any fun a => m.2.any fun b => a.1 == b.1

/-- `BYTE_LANDING` (R242): the unit at place `args.off` of those that command `args.id` of core `args.core` has read lands in the core's own
scratchpad. -/
def execByteLanding (s : State) : Host.Outcome State Fault Refusal :=
  let core := s.args.core
  match s.ctxOf core, cpReady s core s.args.id with
  | some c, some x =>
    match x.moves[s.args.off]? with
    | none => .next s.tick
    | some m =>
      if !x.mayLand s.args.off m then .next s.tick
      else match landNow s core c x m.2 with
        | .error e => stopEvent s core 6 e
        | .ok t => .next (t.setCp core x.id fun y => { y with moves := y.moves.eraseIdx s.args.off }).tick
  | _, _ => .next s.tick

/-- Whether messages of a command are still to be answered. -/
def awaiting (s : State) (core id : Nat) : Bool := s.tracked.any fun t => t.core == core && t.cmd == id && !t.rows.isEmpty

/-- `COPY_COMMAND_COMPLETE` (R242): command `args.id` of core `args.core` has nothing left to read, land or receive; a tile that it wrote
becomes `READY`, and what it holds for it can no longer be cancelled. -/
def execCopyCommandComplete (s : State) : Host.Outcome State Fault Refusal :=
  let core := s.args.core
  match (s.core core).cp.find? fun x => x.id == s.args.id with
  | none => .next s.tick
  | some x =>
    if !x.rows.isEmpty || !x.moves.isEmpty || (x.kind == 12 && awaiting s core x.id) then .next s.tick
    else
      let t := dropCp s core x.id
      let t := if cpWritesTile x.kind then
          (t.tileTo core x.tileNo tReady).modCtx core fun c =>
            { c with porch := c.porch.map fun h => if h.cmd = some (x.id, x.names) then { h with cmd := some (x.id, []) } else h }
        else endDrain t core x.tileNo
      let t := if x.kind = 12 then t.track core x.id fun y => { y with unsent := 0 } else t
      .next (settleTracked t core x.id).tick

/-- `ATOMIC_TILE` (R246): the atomic command `args.id` of core `args.core` has its reservations; what it reads or writes in memory is one event. -/
def execAtomicTile (s : State) : Host.Outcome State Fault Refusal :=
  let core := s.args.core
  match s.ctxOf core, cpReady s core s.args.id with
  | some c, some x => if !x.atomic || x.rows.isEmpty then .next s.tick else readParts s core c x x.rows []
  | _, _ => .next s.tick

/-! ### The group drain (R254) -/

/-- Closes the open parts of a GID in a quad. -/
def closeGroup (s : State) (quad gid : Nat) (f : Tracked → Tracked) : State :=
  let ps := sget [] s.parts quad
  let mine := ps.filter fun p => p.gid == gid && !p.closed
  mine.foldl (fun s p => s.track p.core p.cmd f)
    { s with parts := sput [] s.parts quad (ps.map fun p => if p.gid = gid then { p with closed := true } else p) }

/-- A part of a group drain is recorded as it performs. -/
def recordPart (s : State) (q : GroupPart) : State :=
  match s.ctxOf q.core with
  | none => s
  | some c => (c.porch.filter fun h => h.cmd.any (·.1 == q.cmd)).foldl (fun s h => recordHeld s q.core c h h.obj) s

/-- `GROUP_DRAIN_PERFORM` (R254): the four parts of GID `args.code` in quad `args.id` perform as one event. -/
def execGroupDrainPerform (s : State) : Host.Outcome State Fault Refusal :=
  let mine := (sget [] s.parts s.args.id).filter fun p => p.gid == s.args.code && !p.closed
  match mine with
  | p :: _ =>
    if mine.length = 4 then
      let t := mine.foldl recordPart s
      let t := performBytes t p.cap.obj 0 (mine.flatMap (·.data))
      let t := mine.foldl (fun s q => landFor s q.fold q.data.length) t
      .next (closeGroup t s.args.id s.args.code fun y => { y with good := 4 }).tick
    else .next s.tick
  | [] => .next s.tick

/-- `GROUP_DRAIN_TIMEOUT` (R254): 100 µs after the first part of GID `args.code` in quad `args.id`, every part of it completes with status 3. -/
def execGroupDrainTimeout (s : State) : Host.Outcome State Fault Refusal :=
  match (sget [] s.parts s.args.id).filter fun p => p.gid == s.args.code && !p.closed with
  | p :: t =>
    if t.length < 3 ∧ p.since + 100000 ≤ s.time then .next (closeGroup s s.args.id s.args.code fun y => { y with code := 3 }).tick
    else .next s.tick
  | [] => .next s.tick

/-! ### `cp.cancel` (R255) -/

/-- One command of the engine is cancelled: the units that it has read land or not, each as it happens, and its tile is `READY`. -/
def cancelCp (s : State) (core : Nat) (c : Ctx) (x : CpCmd) : State :=
  let kept := (x.moves.zipIdx.filter fun m => s.pickAt 30000 m.2 x.id % 2 == 1).map (·.1.2)
  let s := kept.foldl (fun s u => match landNow s core c x u with | .ok t => t | .error _ => s) s
  let s := dropCp s core x.id
  if cpWritesTile x.kind then s.tileTo core x.tileNo tReady else endDrain s core x.tileNo

/-- A cancelled command's status word, where it asked for one and has not completed. -/
def cancelTracked (s : State) (core : Nat) (p : Tracked → Bool) : State :=
  (s.tracked.filter fun t => t.core == core && p t).foldl (fun s t =>
    settleTracked (s.track core t.cmd fun t => { t with code := 4, reason := 0, unsent := 0, rows := [], stopped := true }) core t.cmd) s

/-- Cancels the commands of a core's context whose tiles pass a test: in the engine, in the porch, and their status; but for a part of a group drain
that is staged. -/
def cancelCopies (s : State) (core : Nat) (p : List Nat → Bool) : State :=
  match s.ctxOf core with
  | none => s
  | some c =>
    let s := ((s.core core).cp.filter fun x => p x.names).foldl (fun s x => cancelCp s core c x) s
    let s := s.modCtx core fun c => { c with porch := c.porch.filter fun h => match h.cmd with | some (id, l) => !p l || (partOf s core id).isSome | none => true }
    cancelTracked s core fun t => p t.names && (partOf s core t.cmd).isNone && t.owner == (c.record.frameObj, c.record.frameOff)

/-- `cp.cancel` of a tile (R255): a `FAILED` one is a fault (R258, R261). DESIGN CHOICE: an `EMPTY` tile raises no fault, and nothing is cancelled; and
the operation, which is no command, issues while the engine holds 32 commands (R238; log 96). -/
def execCpCancel (t : BitVec 6) (s : State) : Host.Outcome State Fault Refusal :=
  slotOp (.cpCancel t) (fun c s => do
    let e ← tileNow s c t.toNat
    if e.state = tFailed then fatalR kTile e.err
    .ok (cancelCopies s s.turn fun l => l.contains t.toNat)) s

/-- `cp.cancel all`. -/
def execCpCancelAll (s : State) : Host.Outcome State Fault Refusal :=
  slotOp .cpCancelAll (fun _ s => .ok (cancelCopies s s.turn fun l => !l.isEmpty)) s

/-! ### The porch's own steps -/

/-- `SPAWN_SLOT_RESERVE` (R319): a commit of core `args.core` that waits for ring slots reserves those for which there is room. -/
def execSpawnSlotReserve (s : State) : Host.Outcome State Fault Refusal :=
  match s.ctxOf s.args.core with
  | none => .next s.tick
  | some c =>
    if c.reserved.isEmpty || c.committing then .next s.tick
    else
      let (t, done, _) := reserveAll ((spawnsOf c.porch).drop c.reserved.length) c.reserved s
      .next (t.modCtx s.args.core fun c => { c with reserved := done }).tick

/-- `PORCH_SPILL` (R233): the porch of core `args.core`, where it is full, performs its oldest write. -/
def execPorchSpill (s : State) : Host.Outcome State Fault Refusal :=
  match s.ctxOf s.args.core with
  | none => .next s.tick
  | some c =>
    let oldest := if entryCount c.porch < porchEntries then none else (spillable s s.args.core c).head?
    match (do let s ← goOnSpill s s.args.core; spill s s.args.core fun h => some h == oldest) with
    | .error e => stopEvent s s.args.core 2 e
    | .ok t => .next t.tick

end Sys2Proof.Machine
end

