-- ==== Sys2Proof/Machine/Flags.lean ====
section
/-! DEFINITION. `FPCTL`'s flags and `AMAX` (R28, R99, R107): what a read sees, and the writes of `fpc.set` and `amax.clr`. -/

namespace Sys2Proof.Machine
open Sys2Proof

/-- Whether a result's flags have reached `FPCTL` when slot `y` reads it (R28, R130): the result is written, or the slot is certain to see it (R46). -/
def Ctx.flagIn (c : Ctx) (y : Slot) (w : Fly) : Bool := w.done || c.sure y w

/-- The sticky flags as slot `y` reads them (R28, R130). -/
def readFlags (c : Ctx) (y : Slot) : Flags :=
  (c.fly.filter fun w => decide (c.flagsFrom ≤ w.pos) && c.flagIn y w).foldl (fun f w => f ||| w.flags) c.flagsAll

/-- `AMAX` and `AMAXNAN` as slot `y` reads them. -/
def readAmax (c : Ctx) (y : Slot) : BitVec 32 × Bool :=
  (c.fly.filter fun w => decide (c.amaxFrom ≤ w.pos) && c.flagIn y w).foldl
    (fun a w => (BitVec.ofNat 32 (max a.1.toNat w.amax), a.2 || w.amaxNan)) (c.amaxAll, c.amaxNanAll)

/-- `FPCTL` as slot `y` reads it (Table 2.10). -/
def readFpctl (c : Ctx) (y : Slot) : BitVec 32 :=
  BitVec.ofNat 32 (b2n (readAmax c y).2 * 4096 + (readFlags c y).toNat * 128 + c.fpcNow.toNat)

/-- A write of the flags by `fpc.set` in the bundle at the context's position (R28): flags of earlier bundles that complete later are
discarded, and those of this bundle and of later ones that have completed stay. -/
def Ctx.setFlags (c : Ctx) (f : Flags) : Ctx :=
  { c with flags := f, flagsFrom := c.pos, raised := c.raised.map fun r => if r.pos < c.pos then { r with flags := 0 } else r }

/-- `amax.clr` (R28). -/
def Ctx.clearAmax (c : Ctx) : Ctx :=
  { c with amax := 0, amaxNan := false, amaxFrom := c.pos,
           raised := c.raised.map fun r => if r.pos < c.pos then { r with amax := 0, amaxNan := false } else r }

end Sys2Proof.Machine
end

