-- ==== Sys2Proof/Machine/System.lean ====
section
/-! DEFINITION. System registers (R129, R130, R375 to R379), `BUDGET` and `TIME` (R131), and the writes that reach the hub (R300, R350,
R377, R379). -/

namespace Sys2Proof.Machine
open Sys2Proof

/-! ### Fields -/

/-- `COREID` (Table 22.6). -/
def coreIdOf (core : Nat) : Nat :=
  if core < 288 then dieOf core * 2 ^ 21 + clusterOf core * 2 ^ 18 + quadOf core * 512 + core
  else if core < 294 then 2 ^ 22 + dieOf core * 2 ^ 21 + clusterOf core * 2 ^ 18 + clusterOf core
  else 2 ^ 23

/-- `PHASEST` of a vault (Table 12.3). -/
def phaseWord (p : Phase) : Nat := b2n p.busy * 65536 + p.tgt * 256 + p.cur

/-- `SCHCFG` at reset (Table 17.4). -/
def schcfgReset : Word := BitVec.ofNat 64 (2 * 2 ^ 40 + 200 * 65536 + 50)
/-- `SCHCFG` of a cluster. -/
def State.schCfg (s : State) (cl : Nat) : Word := sget schcfgReset s.schcfg cl

/-- The cluster whose `SCHCFG` a core names: its own; the housekeeper's is not stated and free (log 13). -/
def schcfgOf (s : State) (core : Nat) : Nat := if core < 294 then clusterOf core else s.pick 6000 % 6

/-- `OTAB` as it reads: CNT 7 reads as 6, the reserved bit as zero (Table 22.6). -/
def otabRead (v : Word) : Word := if bits v 61 3 = 7 then setBits v 60 4 12 else setBits v 60 1 0

/-- Whether a core's level owns a space's descriptor (R375). -/
def ownsSpace (core n : Nat) : Bool :=
  levelOf core == .h || (levelOf core == .s && (if n < 288 then n / 48 == clusterOf core else (n - 288) / 144 == dieOf core))

/-! ### Reads -/

/-- The value of a system register as the IA slot of a core reads it; none where the level or the number does not allow it
(Table 22.5). -/
def sysRead (s : State) (core : Nat) (c : Ctx) (n : Nat) : Option Word :=
  let lv := levelOf core
  let sup := lv != .u
  if n = 0x001 then some (BitVec.ofNat 64 (coreIdOf core))
  -- the own vault of a shepherd or of the housekeeper is not stated: free (log 13)
  else if n = 0x002 then some (BitVec.ofNat 64 (phaseWord (s.phaseOf (if core < 288 then core else s.pick 6001 % 288))))
  else if n = 0x003 then some (s.core core).pfDrop
  else if n = 0x010 then some (c.fmtNow.setWidth 64)
  else if n = 0x011 then some (c.vtypeNow.setWidth 64)
  else if n = 0x012 then some (c.vwinNow.setWidth 64)
  else if n = 0x013 then some (c.vactNow.setWidth 64)
  else if n = 0x014 then some ((readFpctl c .ia).setWidth 64)
  else if n = 0x015 then some ((readAmax c .ia).1.setWidth 64)
  else if n = 0x016 then some ((s.core core).wm0.setWidth 64)
  else if n = 0x017 then some ((s.core core).wm1.setWidth 64)
  else if n = 0x018 then some ((ownersAt s core).setWidth 64)
  else if n = 0x019 then some (BitVec.ofNat 64 (2 * b2n c.spilled + b2n c.replay))
  else if n = 0x01A then some c.foldm
  else if n = 0x01B then some c.pmt
  else if n = 0x01C then some (readHstat s c .ia)
  else if n = 0x01D then some (if lv = Level.u then c.budget.setWidth 64 else 0xFFFFFFFF)
  else if !sup then none
  else if n = 0x020 then some (s.schCfg (schcfgOf s core))
  else if n = 0x021 then some s.ptab
  else if n = 0x022 then some s.htab
  else if n = 0x023 then some (otabRead s.otab)
  else if n = 0x024 then some s.padtab
  else if n = 0x030 then some c.tvec
  else if n = 0x031 then some (stickyAt c.trapRet 1 c.pos c.trapRetQ)
  else if n = 0x040 then some (c.foldSel.setWidth 64)
  else if n = 0x041 then some ((s.fold c.foldSel.toNat).setWidth 64)
  else if n = 0x042 then some (BitVec.ofNat 64 (bits (s.fold c.foldSel.toNat) 64 64))
  else if 0x400 ≤ n ∧ n < 0x520 ∧ ownsSpace core (n - 0x400) then some ((sget 0 s.descs (n - 0x400)).setWidth 64)
  else if 0x600 ≤ n ∧ n < 0x720 ∧ ownsSpace core (n - 0x600 + 288) then some ((sget 0 s.descs (n - 0x600 + 288)).setWidth 64)
  else none

/-! ### Writes -/

/-- A write of `SCHCFG` (R300): QUANT and AGE keep their values where the write holds zero; reserved bits stay zero. -/
def writeSchcfg (s : State) (cl : Nat) (v : Word) : State :=
  let old := s.schCfg cl
  let q := if bits v 0 16 = 0 then bits old 0 16 else bits v 0 16
  let a := if bits v 16 16 = 0 then bits old 16 16 else bits v 16 16
  { s with schcfg := sput schcfgReset s.schcfg cl (BitVec.ofNat 64 (bits v 40 8 * 2 ^ 40 + a * 65536 + q)) }

/-- A write of a descriptor (R350): a change of PADDOCK starts the clear of the space, and the descriptor that takes effect when it ends
has one more in GEN (log 14); any other write takes effect at once. -/
def writeDesc (s : State) (sp : Nat) (v : Word) : State :=
  let old := sget 0 s.descs sp
  sweepWatches <|
  if bits v 16 16 = bits old 16 16 then { s with descs := sput 0 s.descs sp (v.setWidth 32) }
  else { s with clearing := (s.clearing.filter fun e => e.1 != sp) ++ [(sp, BitVec.ofNat 32 (bits v 16 16 * 65536 + (bits old 0 16 + 1) % 65536))] }

/-- `HRESET` (R379): a `FAILED` handle becomes `ABSENT`. -/
def writeHreset (s : State) (v : Word) : State :=
  let h := sget ⟨0, 0, 0, 0⟩ s.handles (bits v 0 16)
  if v.toNat < 65536 ∧ h.state = 4 then { s with handles := sput ⟨0, 0, 0, 0⟩ s.handles v.toNat { h with state := 0, err := 0 } } else s

/-- An entry of the recorder whose type the spec does not give (log 15). -/
def State.logOpen (s : State) (unit index : Nat) : State := s.log unit index (s.pick 6002 % 256) 0 (s.pick 6003)

/-- Whether a fold's state is one that `FOLDHI` applies (R377). -/
def foldStateOk (f : Fold) : Bool :=
  !(f.valid && f.members == 0) && decide (f.lvl ≤ 4)
    && decide (f.domain < (if f.lvl = 0 then 72 else if f.lvl = 1 then 6 else if f.lvl = 2 then 2 else 1))
    && bits f 62 2 == 0 && bits f 48 9 == 0 && bits f 1 15 == 0

/-- A record parked on a fold wakes through a write of the fold's state (R377): CAUSE 4, its ARM unchanged. -/
def wakeParked (s : State) (fid : Nat) : State :=
  wakeRecords s ((s.waiting.filter fun w => match w.on with | .fold g _ _ => g == fid | _ => false).map fun w => (w, foldStatus fid 4, none))

/-- A write of `FOLDHI` (R377): the whole state of the selected fold in one step. -/
def writeFoldHi (s : State) (core fid : Nat) (lo : Option Word) (hi : Word) : State :=
  let old := s.fold fid
  let f : Fold := setBits (BitVec.ofNat 128 ((lo.getD 0).toNat + 2 ^ 64 * hi.toNat)) 16 16 old.waiters
  if !foldStateOk f then s.logOpen (unitOf core) (unitIndex core)
  else
    let s := s.setFold fid f
    if !f.valid || f.lvl != old.lvl || f.domain != old.domain then
      let s := wakeParked s fid
      settleFold (s.setFold fid (setBits (s.fold fid) 16 16 0)) fid
    else settleFold s fid

/-- Whether a shepherd has a context. -/
def shepherdRuns (s : State) : Bool := (List.range 6).any fun i => (s.ctxOf (288 + i)).isSome

/-- A base register is written (R376): where a shepherd runs already, every access reads the old base or the new one from now on. -/
def keepBase (s : State) (k : Nat) (old : Word) : State :=
  if shepherdRuns s then { s with oldTabs := sput [] s.oldTabs k ((old :: sget [] s.oldTabs k).eraseDups) } else s

/-- A write of a system register by a core; none where the level or the number does not allow it (Table 22.5, R130). -/
def sysWrite (s : State) (core n : Nat) (v : Word) : Option State :=
  let lv := levelOf core
  let off := v &&& 0xFFFFFFFFFF
  if lv = Level.u then none
  else if n = 0x020 then some (writeSchcfg s (schcfgOf s core) v)
  else if n = 0x030 then some (s.modCtx core fun c => { c with tvec := off })
  else if n = 0x031 then some (s.modCtx core fun c => { c with trapRetQ := (c.pos, off) :: c.trapRetQ })
  else if n = 0x040 then some (s.modCtx core fun c => { c with foldSel := v.setWidth 10 })
  else if n = 0x041 then some (s.modCtx core fun c => { c with foldLo := some v })
  else if n = 0x042 then match s.ctxOf core with
    | some c => some (writeFoldHi s core c.foldSel.toNat c.foldLo v)
    | none => some s
  else if n = 0x043 then some (writeHreset s v)
  else if 0x400 ≤ n ∧ n < 0x520 ∧ ownsSpace core (n - 0x400) then some (writeDesc s (n - 0x400) v)
  else if 0x600 ≤ n ∧ n < 0x720 ∧ ownsSpace core (n - 0x600 + 288) then some (writeDesc s (n - 0x600 + 288) v)
  else if lv = Level.h ∧ n = 0x021 then some ({ keepBase s 1 s.ptab with ptab := setBits v 60 4 0 } : State).showHealth
  else if lv = Level.h ∧ n = 0x022 then some { keepBase s 2 s.htab with htab := setBits v 60 4 0 }
  else if lv = Level.h ∧ n = 0x023 then some { keepBase s 0 s.otab with otab := setBits v 60 1 0 }
  else if lv = Level.h ∧ n = 0x024 then some { keepBase s 3 s.padtab with padtab := setBits v 60 4 0 }
  else none

/-! ### Operations -/

/-- Whether an operation is a `cp.pmt.take`. -/
def isPmtTake : Instr → Bool
  | .cpPmtTake _ _ _ => true
  | _ => false

/-- The system registers that hardware changes: a read returns what one held at some moment before it completes (R24, R130, R377). -/
def liveReg (n : Nat) : Bool := [0x002, 0x003, 0x014, 0x015, 0x016, 0x017, 0x041, 0x042].contains n || decide (0x400 ≤ n)

/-- What a read of a system register in flight takes from the register as it stands now (R130): the control fields of `FPCTL` stay those of its own
bundle. -/
def refresh (s : State) (core : Nat) (c : Ctx) (w : Fly) : Fly := match w.live with
  | none => w
  | some (n, sel) => match sysRead s core { c with foldSel := BitVec.ofNat 10 sel } n, w.ring with
    | some v, .b (.bits old) =>
      let v := if n = 0x014 then setBits v 0 5 (bits old 0 5) else v
      { w with dst := w.dst.map fun d => (d.1, .word v (BitVec.allOnes 64)), ring := .b (.bits v) }
    | _, _ => w

/-- `sys.rd` (R129): variable latency, with an interlock on the destination. A read of `PMT` waits for the `cp.pmt.take` of earlier positions
(R253). -/
def execSysRd (x : Bool) (d : BitVec 5) (a : BitVec 6) (s : State) : Host.Outcome State Fault Refusal :=
  slotOp (.sysRd x d a) (fun c s =>
    let n := (readInt s c .ia a).toNat
    if n = 0x01B ∧ c.beforeIt isPmtTake then .error .wait else
    match (if n < 4096 then sysRead s s.turn c n else none) with
    | none => fatal kRights
    | some v => .ok (s.launch { Fly.nil .ia c.pos 1 with
        var := true
        dst := if x then none else some (.s d.toNat, .word v (BitVec.allOnes 64))
        ring := .b (.bits v)
        live := if liveReg n then some (n, c.foldSel.toNat) else none })) s

/-- The space whose descriptor a register number names. -/
def spaceOfReg (n : Nat) : Option Nat :=
  if 0x400 ≤ n ∧ n < 0x520 then some (n - 0x400) else if 0x600 ≤ n ∧ n < 0x720 then some (n - 0x600 + 288) else none

/-- `sys.wr` (R129, R130). One that starts the clear of a space completes when the clear ends (R376). -/
def execSysWr (a b : BitVec 6) (s : State) : Host.Outcome State Fault Refusal :=
  slotOp (.sysWr a b) (fun c s => do
    let clears := fun (t : State) (sp : Nat) => t.clearing.any fun e => e.1 == sp
    match c.caught .ia with
    | some l => if clears s (l.headD 0) then .error .wait else .ok s
    | none =>
      let n := (readInt s c .ia a).toNat
      match (if n < 4096 then sysWrite s s.turn n (readInt s c .ia b) else none), spaceOfReg n with
      | none, _ => fatal kRights
      | some t, some sp => if clears t sp then .error (.later (keepOperands t t.turn .ia [sp])) else .ok t
      | some t, none => .ok t) s

/-- A read of latency 1 in IA that enters the ring (R131). -/
def iaRead (x : Bool) (d : BitVec 5) (v : Word) (c : Ctx) (s : State) : Except Stop State :=
  .ok (s.launch { Fly.nil .ia c.pos 1 with
    dst := if x then none else some (.s d.toNat, .word v (BitVec.allOnes 64))
    ring := .b (.bits v) })

/-- `LEFT` just after the bundle in issue was counted (R29). -/
def Ctx.leftNow (c : Ctx) : BitVec 32 := (c.issue.map (·.left)).getD c.budget

/-- `bud.rd` (R29, R131, R375). -/
def execBudRd (x : Bool) (d : BitVec 5) (s : State) : Host.Outcome State Fault Refusal :=
  slotOp (.budRd x d) (fun c s => iaRead x d (if levelOf s.turn = Level.u then c.leftNow.setWidth 64 else 0xFFFFFFFF) c s) s

/-- `time.rd` (R131). DESIGN CHOICE: R13 lets two cores that read `TIME` at one instant differ by up to 2 ns; here one counter serves all, so
they never differ (log 89). -/
def execTimeRd (x : Bool) (d : BitVec 5) (s : State) : Host.Outcome State Fault Refusal :=
  slotOp (.timeRd x d) (fun c s => iaRead x d (BitVec.ofNat 64 s.time) c s) s

/-! ### The writes as they reach the hub -/

/-- Whether the core that a write comes from may make it: level S or H (R375). -/
def fromSupervisor (s : State) : Bool := levelOf s.args.core != .u

/-- `HRESET_WRITE` (R379): the write of `args.val` by core `args.core` acts at the Drover. -/
def execHresetWrite (s : State) : Host.Outcome State Fault Refusal := .next (if fromSupervisor s then writeHreset s s.args.val else s).tick

/-- `FOLDLO_WRITE` (R377): core `args.core`, value `args.val`; it changes no fold. -/
def execFoldloWrite (s : State) : Host.Outcome State Fault Refusal :=
  .next (if fromSupervisor s then s.modCtx s.args.core fun c => { c with foldLo := some s.args.val } else s).tick

/-- `FOLDHI_WRITE` (R377): core `args.core`, value `args.val`. -/
def execFoldhiWrite (s : State) : Host.Outcome State Fault Refusal :=
  match s.ctxOf s.args.core with
  | some c => .next (if fromSupervisor s then writeFoldHi s s.args.core c.foldSel.toNat c.foldLo s.args.val else s).tick
  | none => .next s.tick

/-- `SCHCFG_WRITE` (R300): core `args.core`, cluster `args.id`, value `args.val`; only the cluster's own shepherd and the housekeeper write it. -/
def execSchcfgWrite (s : State) : Host.Outcome State Fault Refusal :=
  .next (if s.args.core == 294 || s.args.core == 288 + s.args.id then writeSchcfg s s.args.id s.args.val else s).tick

/-- `SPACE_DESCRIPTOR_WRITE` (R350): core `args.core`, space `args.id`, value `args.val`. -/
def execSpaceDescriptorWrite (s : State) : Host.Outcome State Fault Refusal :=
  .next (if ownsSpace s.args.core s.args.id then writeDesc s s.args.id s.args.val else s).tick

/-- Zeroes the bytes and tags of a span of addresses. -/
def State.clearSpan (s : State) (a n : Nat) : State :=
  { s with
    mem := s.mem.filter fun x => !(decide (a ≤ x.1) && decide (x.1 < a + n))
    tags := s.tags.filter fun t => !(decide (a ≤ 16 * t) && decide (16 * t < a + n)) }

/-- `LOCAL_SPACE_CLEAR_END` (R350): the clear of space `args.id` ends, and its descriptor takes effect; its lost regions are whole again
(R407). -/
def execLocalSpaceClearEnd (s : State) : Host.Outcome State Fault Refusal :=
  let sp := s.args.id
  match s.clearing.find? fun e => e.1 == sp with
  | none => .next s.tick
  | some e =>
    let n := if sp < 288 then 0x200000 else s.roomSize (sp - 288)
    let s := s.clearSpan (spaceAddr (spaceObj sp) 0) n
    let s := s.record (hardwareAct s (spaceObj sp) 0 n)
    .next (sweepWatches { s with
      clearing := s.clearing.filter fun e => e.1 != sp
      descs := sput 0 s.descs sp e.2
      lost := sput 0 s.lost sp 0 }).tick

end Sys2Proof.Machine
end

