-- ==== Sys2Proof/Machine/Supervisor.lean ====
section
/-! DEFINITION. `trap` and `brk` (R398), delivery (R373, R391), the supervisor's operations (R371, R372, R374, R394), the assist's release
(R397), abort for replay (R290, R303, R405), the remote journal (R409, R410), and the pinfold's wake (R401). -/

namespace Sys2Proof.Machine
open Sys2Proof

/-! ### `trap` and `brk` (R398) -/

/-- Freezes the moving context at its next bundle with a resumable event (R398): the bundle has issued in every slot. -/
def raiseHere (kind code : Nat) (arg : Word) (s : State) : State :=
  let s := s.modCur (endBundle s)
  match s.cur with
  | none => s
  | some c => s.takeResumable s.turn (code / 256) (trapOf s s.turn c kind (code % 256) 0 c.pc (List.replicate 8 0) none arg)

/-- `trap` (R398). -/
def execTrap (a : BitVec 6) (code : BitVec 12) (s : State) : Host.Outcome State Fault Refusal :=
  slotOp (.trap a code) (fun c s => .ok (raiseHere kTrap code.toNat (readInt s c .c a) s)) s

/-- `brk` (R398). -/
def execBrk (code : BitVec 12) (s : State) : Host.Outcome State Fault Refusal :=
  slotOp (.brk code) (fun _ s => .ok (raiseHere kBrk code.toNat 0 s)) s

/-! ### Delivery (R373, R390, R391) -/

/-- The core that a delivery queue serves. -/
def servedCore (q : Nat) : Nat := 288 + min q 6

/-- The TRAPID of an event as it is delivered (Table 24.2): the core in its cluster, and the records delivered before it by this shepherd. -/
def deliveryId (s : State) (q : Nat) (t : TrapEv) : Nat := (if t.unit = 0 then t.core % 48 else 0) + 64 * (sget 0 s.delivered q % 1024)

/-- A frozen context learns the TRAPID that its record carries (R392). -/
def nameFrozen (s : State) (t : TrapEv) (id : Nat) : State :=
  if !t.resumable then s else
    s.modCtx t.core fun c => match c.mode with
      | .frozen u none => if u = t then { c with mode := .frozen u (some id) } else c
      | _ => c

/-- A core is diverted (R373): operations in flight complete, `s0` to `s7` receive some words, `TRAPRET` the next bundle, and the core goes to `TVEC`;
further delivery is held. -/
def divert (s : State) (core : Nat) (words : List Nat) : State :=
  (s.drain core).modCtx core fun c =>
    { c with
      s := words.zipIdx.foldl (fun r w => sput 0 r w.2 (BitVec.ofNat 64 w.1)) c.s
      trapRet := BitVec.ofNat 64 (c.pc % 2 ^ 40), trapRetQ := [], pc := c.tvec.toNat, held := true, mode := .run }

/-- TAKING A DELIVERY (R373, R391): the event's trap record goes to `s0` to `s7`. -/
def deliverTo (s : State) (core q : Nat) (t : TrapEv) : State :=
  let id := deliveryId s q t
  divert (nameFrozen s t id) core (t.words id)

/-- A management or arbiter event is delivered to the housekeeper (R374): no rule gives it a trap record, and `s0` to `s7` receive free values (log 93). -/
def deliverHub (s : State) : State :=
  let s := divert s 294 ((List.range 8).map fun i => s.pickAt 7200 i 0 % 2 ^ 64)
  { s with hubEvents := s.hubEvents - 1 }

/-- `TRAP_DELIVERY` (R373, R374, R390): the oldest event of queue `args.id` is delivered to its core, at a bundle boundary, unless delivery is
held; at the housekeeper a management or arbiter event where its queue is empty. -/
def execTrapDelivery (s : State) : Host.Outcome State Fault Refusal :=
  let q := s.args.id
  let core := servedCore q
  match s.ctxOf core with
  | none => .next s.tick
  | some c =>
    let open' := match c.mode with | .run => c.issue.isNone | .halted => true | _ => false
    if c.held || c.doomed.isSome || !open' || 6 < q then .next s.tick
    else match sget [] s.queues q with
      | t :: rest =>
        let s := { s with queues := sput [] s.queues q rest }
        let s := deliverTo s core q t
        .next ({ s with delivered := sput 0 s.delivered q (sget 0 s.delivered q + 1) } : State).tick
      | [] => .next (if q = 6 ∧ s.hubEvents ≠ 0 then deliverHub s else s).tick

/-- `TRAPRET` as the context's bundle sees it: a `sys.wr` of its own bundle is not seen (R115, R130). -/
def Ctx.trapRetNow (c : Ctx) : Word := stickyAt c.trapRet 1 c.pos c.trapRetQ

/-- `rfe` (R373): THE RETURN FROM A DELIVERY, to `TRAPRET`, with delivery enabled again. In the end bundle of a loop it chooses the next bundle
as a control transfer of Table 3.3 does, and no end action takes place (log 80). -/
def execRfe (s : State) : Host.Outcome State Fault Refusal :=
  slotOp .rfe (fun c s => .ok ((choose s c.trapRetNow.toNat).modCur fun c => { c with held := false })) s

/-- `halt` (R374): the porch commits; the core stops unless an event is pending for it, of the hub too at the housekeeper. -/
def execHalt (s : State) : Host.Outcome State Fault Refusal :=
  slotOp .halt (fun _ s => do
    let s ← commitNow .c s
    let stop := (sget [] s.queues (queueOf s.turn)).isEmpty && (s.turn != 294 || s.hubEvents == 0)
    .ok (s.modCur fun c => { endBundle s c with mode := if stop then .halted else .run })) s

/-! ### The assist's release (R397) -/

/-- Writes the results of a core's assist area into their elements, and clears the area (R397). -/
def releaseAssist (s : State) (core : Nat) : State :=
  let x := s.core core
  match x.mx.findIdx? (·.assisted) with
  | none => s
  | some i =>
    match x.mx[i]? with
    | none => s
    | some m =>
      let area := s.assistArea core
      let s := x.assist.zipIdx.foldl (fun s e =>
        s.setAccRow core m.bank e.1.row (setRowWord (s.accRow core m.bank e.1.row) e.1.col (s.num (area + 64 + 16 * e.2 + 4) 4))) s
      let s := s.hubWrite area 1024 0
      let paused := m.paused
      let s := s.modCore core fun y => { y with assist := [], assistTrap := false, assistPaused := false }
      let s := s.setMx core i fun m => { m with assisted := false, paused := false }
      if paused then s.setWm core m.bank (m.row0 + m.done) else s.setWm core m.bank 128

/-! ### Ending and leaving -/

/-- The record's copy that an abort writes (R290): as launched where the segment began at the first pickup, with GRANT at the count that
`BUDGET` has reached; else as the suspension point that began the segment wrote it, WAIT and PINF with it (R424), with SEQ as it was counted. -/
def abortRecord (c : Ctx) : Rec :=
  if c.firstSeg then Rec.sealed (setBits c.record 128 32 c.budget.toNat) else Rec.sealed c.record

/-- Forgets the messages of a core's context that a journal holds. -/
def forgetSent (s : State) (core : Nat) (x : Ctx) : State :=
  { s with
    conns := s.conns.map fun c => (c.1, { c.2 with unacked := c.2.unacked.filter fun m => !sentBy s core x (fun _ => true) m })
    tracked := s.tracked.filter fun t => !(t.core == core && t.owner == (x.record.frameObj, x.record.frameOff)) }

/-- A record leaves its core for RETURNING (R293). -/
def toReturning (s : State) (core : Nat) (r : Rec) : State :=
  { s.setCore core (Core.vacate core (s.core core)) with returning := s.returning ++ [⟨r.frameObj, r.frameOff, r.pasture, none, none⟩] }

/-- Whether a context's journal is being sent again (R410). -/
def Ctx.resends (c : Ctx) : Bool := match c.mode with | .resending _ => true | _ => false

/-- A context whose journal is still to be acknowledged goes back to RETURNING with the journal unchanged (R410). -/
def giveBack (s : State) (core : Nat) (c : Ctx) : State := toReturning (forgetSent s core c) core c.record

/-- The save area of an aborted segment is written from the segment's start, once it may be, and the record goes to RETURNING (R290, R312, R350). -/
def abortWrite (s : State) (core : Nat) : State :=
  match s.ctxOf core with
  | none => s
  | some c => match saveCheck s core c with
    | .ok () => toReturning (writeSave s (abortRecord c) { c.start with budget := c.budget }) core c.record
    | .error (.fatal f) => s.takeFatal core 0 false f
    | .error _ => s

/-- ABORT FOR REPLAY (R290, R303, R405): engine commands are cancelled, operations in flight and the porch discarded, the ring slots that a commit had reserved
released; the save area is rewritten from the segment's start, and the record goes to RETURNING. A journal that is still to be acknowledged stays (R410). -/
def abortSegment (s : State) (core : Nat) : State :=
  match s.ctxOf core with
  | none => s
  | some c =>
    if c.resends then giveBack s core c
    else
      let s := releaseSlots ((cancelCopies (s.recall core) core fun _ => true).dropUnsent core) c.reserved
      let c := { c with mode := .aborting, issue := none, slip := [], pend := [], fly := [], porch := [], fencing := [], reserved := [], spilling := false, ringWait := none, parkAsked := false }
      abortWrite (s.setCore core { Core.vacate core (s.core core) with ctx := some c }) core

/-- Whether a context's segment can be aborted: REPLAY is set and its commit has not begun to perform (R234, R284, R310). -/
def Ctx.abortable (c : Ctx) : Bool := c.replay && !c.committing && c.hasRecord

/-- A context ends by an event of no operation of its own (R372, R404): at once, or, where its commit or spill has performed some of its writes,
once that has performed every one (R406, R408). -/
def doom (s : State) (core kind : Nat) : State :=
  match s.ctxOf core with
  | none => s
  | some c => dropContext s core (trapOf s core c kind 0 0 (c.afterCycle s).standsAt.1 (c.afterCycle s).standsAt.2 none 0)

/-- `ctx.kill` of a core's context (R372). -/
def killContext (s : State) (core : Nat) : State := doom s core kKilled

/-- The context of a core has ended, and its commit is complete (R408). -/
def endDoomed (s : State) (core : Nat) : State := match s.ctxOf core with
  | some c => c.doomed.elim s ((releaseSlots s c.reserved).closeContext core)
  | none => s

/-- A context that is to end goes on with its commit alone (R406, R408). -/
def doomStep (s : State) (core : Nat) : State := match performDue core ((s.ctxOf core).elim 1 (dueEvents s)) s with
  | .ok t | .error (.after t _) => endDoomed t core
  | .error (.later t) => t
  | .error (.fatal _) => endDoomed s core
  | .error .wait => s

/-! ### The remote journal (R409, R410) -/

/-- A message with the connection that it went out on. -/
abbrev Sent := Nat × Message

/-- A message goes into a list by the order in which messages were sent. -/
def sentIn (x : Sent) : List Sent → List Sent
  | [] => [x]
  | y :: t => if x.2.order < y.2.order then x :: y :: t else y :: sentIn x t

/-- The unacknowledged writes and adds of a core's context, in the order in which its commit sent them (R409). -/
def unackedOf (s : State) (core : Nat) (x : Ctx) : List Sent :=
  (s.conns.flatMap fun c => (c.2.unacked.filter (sentBy s core x fun _ => true)).map fun m => (c.1, m)).foldl (fun l m => sentIn m l) []

/-- MTYPE of a message (Table 25.5). -/
def mtypeOf (kind : Nat) : Nat := if kind = 0 then 1 else if kind = 3 then 5 else 3
/-- Bytes padded to a multiple of 32. -/
def pad32 (l : List Byte) : List Byte := l ++ List.replicate ((32 - l.length % 32) % 32) 0
/-- The DATA of a message: a PERMIT carries COUNT and DUR in its 8 bytes (log 26). -/
def journalData (m : Message) : List Byte := if m.kind = 3 then toBytes 4 m.len ++ m.data else m.data

/-- A journal entry (Table 25.5). -/
def journalEntry (s : State) (x : Sent) : List Byte :=
  let m := x.2
  let t := s.tracked.find? fun t => t.core == m.core && t.cmd == m.cmd
  toBytes 2 x.1 ++ toBytes 1 (mtypeOf m.kind) ++ toBytes 1 0 ++ toBytes 4 m.seq ++ toBytes 8 (m.obj * 2 ^ 40 + m.off)
    ++ toBytes 2 (journalData m).length ++ toBytes 2 m.gen
    ++ toBytes 4 (match t with | some t => b2n t.sv * 2 ^ 22 + t.soff | none => 0) ++ toBytes 8 0 ++ pad32 (journalData m)

/-- The parts of a held row of a remote command perform without waiting for room; `last`: the porch holds no other part of the row. -/
def sendParts (core : Nat) (last : Bool) : List Held → State → State
  | [], s => s
  | h :: t, s => match h.op, s.ctxOf core with
    | .remote kind cmd row pv pmt count dur d, some c =>
      sendParts core last t (performRow (recordRow s core c h kind d) core h kind cmd row pv pmt count dur d (last && t.isEmpty))
    | _, _ => sendParts core last t s

/-- Performs the rest of a commit without waiting for acknowledgements: every message not yet sent is given its number (R284). None where a write
of it must wait for something else. -/
def sendRest (core : Nat) : List Held → State → Option State
  | [], s => some (s.modCtx core fun c => { c with porch := [] })
  | h :: t, s =>
    match h.op with
    | .remote _ cmd row _ _ _ _ _ => sendRest core t (sendParts core (!t.any fun x => x.ofRow cmd row) (h.pieces s) s)
    | _ => match performHeld s core { h with rel := false } true with
      | .ok s => sendRest core t s
      | .error _ => none

/-- A journal leaves a context without fences to complete: its resend waits for their acknowledgements (R410). -/
def closeFences (s : State) (core : Nat) : State := match s.ctxOf core with
  | none => s
  | some c => (c.fencing.foldl State.record s).modCtx core fun c => { c with fencing := [] }

/-- Whether the commit of a core's context waits for a message on a failed connection (R409). -/
def heldByFailure (s : State) (core : Nat) : Bool :=
  (s.ctxOf core).any fun x => s.conns.any fun c => c.2.failed && c.2.unacked.any (sentBy s core x fun _ => true)

/-- The recorder's entry of a refused journal (Table 25.10). -/
def journalRefused (s : State) (core : Nat) (r : Rec) : State := s.logBody (unitOf core) (unitIndex core) 7 [3, r.frameObj, r.frameOff]

/-- Whether a context stands at a suspension point: the operation of one waits, or a forced park. A commit in the middle of a segment stands at none
(log 27). -/
def Ctx.atSuspension (c : Ctx) : Bool := c.suspended.isSome || c.issue.isNone

/-- The context's next bundle becomes the one in issue: its bundle is done, or none is in issue. -/
def Ctx.pass (s : State) (c : Ctx) : Ctx := if c.issue.isSome then endBundle s c else c

/-- Journals the commit of a core's context (R409): the entries from frame offset 1,024, JHDR, and the record RETURNING with CAUSE 1. The
context goes on at its next bundle (log 27). -/
def journal (s : State) (core : Nat) : State :=
  match s.ctxOf core, (s.ctxOf core).bind fun c => sendRest core c.porch s with
  | none, _ | _, none => s
  | some c, some t =>
    let l := unackedOf t core c
    let data := l.flatMap (journalEntry t)
    if c.record.frameLen < 1024 + data.length then journalRefused s core c.record
    else
      let obj := c.record.frameObj
      let o := c.record.frameOff
      match portCheck t (whoOf core c) (some c.frameGen) obj o (1024 + data.length) true 0 with
      | .error (.fatal f) => t.takeFatal core 0 false f
      | .error _ => s
      | .ok () =>
        let t := (closeFences t core).modCtx core fun c => { c.pass t with committing := false, parkAsked := false }
        match t.ctxOf core with
        | none => t
        | some c =>
          let t := performBytes t obj 0 (atOffsets (o + 1024) data)
          let t := writeSave t (saveRecord c.record c.foldm c.pmt 0 false) (c.toSaved saveAll 1 0)
          let t := performBytes t obj 0 (atOffsets (o + 832) (toBytes 8 (2 ^ 63 + l.length * 2 ^ 32 + data.length)))
          toReturning (forgetSent t core c) core c.record

/-- JHDR of a record's save area (Table 25.4): whether a journal is present, its messages, and its bytes in the frame. -/
def jhdrOf (s : State) (r : Rec) : Bool × Nat × Nat :=
  let v := ofBytes (locBytes s r.frameObj (r.frameOff + 832) 8 0)
  (v.testBit 63, v / 2 ^ 32 % 2 ^ 16, min r.frameLen (v % 2 ^ 32))

/-- One entry of a journal: the connection, the message, SV and SOFF. Table 25.5 does not tell an addition of BF16 pairs from one of FP32: as which of the two
it is sent again is free (log 26). -/
def entryAt (s : State) (obj o core : Nat) : Nat × Message × Bool × Nat × Nat :=
  let n := fun i k => ofBytes (locBytes s obj (o + i) k 0)
  let len := n 16 2
  let stat := n 20 4
  let data := locBytes s obj (o + 32) len 0
  let kind := if n 2 1 = 1 then 0 else if n 2 1 = 5 then 3 else 1 + s.pickAt 7301 o 0 % 2
  (n 0 2 % 2 ^ 14,
    { seq := n 4 4, kind := kind, obj := n 8 8 / 2 ^ 40, off := n 8 8 % 2 ^ 40, gen := n 18 2, right := if kind = 0 then rightW else rightA,
      len := if kind = 3 then ofBytes (data.take 4) else len, data := if kind = 3 then data.drop 4 else data,
      core := core, cmd := 0, row := 0, col := 0, sent := s.time }, stat.testBit 22, stat % 2 ^ 21, (len + 31) / 32 * 32 + 32)

/-- Reads so many journal entries. -/
def entriesAt (s : State) (obj core : Nat) : Nat → Nat → List (Nat × Message × Bool × Nat)
  | 0, _ => []
  | n + 1, o =>
    let e := entryAt s obj o core
    (e.1, e.2.1, e.2.2.1, e.2.2.2.1) :: entriesAt s obj core n (o + e.2.2.2.2)

/-- The entries of a record's journal, in order. -/
def journalOf (s : State) (core : Nat) (r : Rec) : List (Nat × Message × Bool × Nat) :=
  entriesAt s r.frameObj core (jhdrOf s r).2.1 (r.frameOff + 1024)

/-- A command without rows that stands for the messages of one status word. A journal names neither the rows of the additions nor the messages that were
acknowledged before: the count that its word begins with is free (R252, log 26). -/
def resentCmd (s : State) (core id : Nat) (x : Nat × Message × Bool × Nat) (owner : Nat × Nat) : Tracked :=
  { core := core, cmd := id, kind := 0, cls := 0, sv := x.2.2.1, soff := x.2.2.2, unsent := 0, rows := [], bad := [], good := s.pickAt 7300 id 0, code := 0, reason := 0,
    stopped := false, fold := none, names := [], owner := owner }

/-- The command that stands for the messages of a status word of a resent journal. -/
def resentFor (s : State) (core : Nat) (owner : Nat × Nat) (x : Nat × Message × Bool × Nat) : Option Tracked :=
  s.tracked.find? fun t => t.core == core && t.owner == owner && decide (2 ^ 32 ≤ t.cmd) && t.sv == x.2.2.1 && t.soff == x.2.2.2

/-- Sends a message of a journal again with its number (R410): those of one status word stand for one command. -/
def resendOne (s : State) (core : Nat) (owner : Nat × Nat) (x : Nat × Message × Bool × Nat) : State :=
  let (id, s) := match resentFor s core owner x with
    | some t => (t.cmd, s)
    | none =>
      let id := 2 ^ 32 + (s.core core).cpNext
      (id, { s.modCore core fun y => { y with cpNext := y.cpNext + 1 } with tracked := s.tracked ++ [resentCmd s core id x owner] })
  let cn := s.conn x.1
  (s.setConn x.1 { cn with unacked := cn.unacked ++ [{ x.2.1 with cmd := id, sent := s.time }] }).track core id fun t => t.expect 0 1

/-- Sends the messages of a journal in its order, as far as their connections have room (R283, R410): the state, and how many. -/
def resendSome (core : Nat) (owner : Nat × Nat) : List (Nat × Message × Bool × Nat) → Nat → State → State × Nat
  | [], n, s => (s, n)
  | x :: t, n, s =>
    if (s.conn x.1).unacked.length < sendLimit then resendSome core owner t (n + 1) (resendOne s core owner x) else (s, n)

/-- The check at the port of what a resend reads and writes in the frame (R351, R410): JHDR and the entries. -/
def journalCheck (s : State) (core : Nat) (c : Ctx) : Except Stop Unit := do
  portCheck s (whoOf core c) (some c.frameGen) c.record.frameObj c.record.frameOff 1024 true 0
  portCheck s (whoOf core c) (some c.frameGen) c.record.frameObj (c.record.frameOff + 1024) (jhdrOf s c.record).2.2 false 0

/-- The journal's messages are all acknowledged (R410): JHDR becomes zero, and the context runs. -/
def endResend (s : State) (core : Nat) (c : Ctx) : State :=
  let s := performBytes s c.record.frameObj 0 (atOffsets (c.record.frameOff + 832) (toBytes 8 0))
  s.modCtx core fun c => { c with mode := .run }

/-- A context whose journal is sent again, so many messages of it so far (R410), goes on once every message of it is acknowledged and its status words are
written. A frame that may not be reached ends it as an access does (R351). -/
def resendStep (s : State) (core n : Nat) (c : Ctx) : State :=
  match journalCheck s core c with
  | .error (.fatal f) => s.takeFatal core 0 false f
  | .error _ => s
  | .ok () =>
    let l := journalOf s core c.record
    let owner := (c.record.frameObj, c.record.frameOff)
    if l.length ≤ n then (if awaitsAck s core || s.tracked.any (fun t => t.core == core && t.owner == owner) then s else endResend s core c)
    else
      let r := resendSome core owner (l.drop n) n s
      r.1.modCtx core fun c => { c with mode := .resending r.2 }

/-! ### `ctx.resume` and `ctx.kill` (R371, R372, R393, R394) -/

/-- The frozen context of a shepherd's cluster that a trap id names: its core (R371, R392). -/
def namedFrozen (s : State) (shep : Nat) (a : Nat) : Option Nat :=
  if 48 ≤ a % 64 then none else
    let core := 48 * clusterOf shep + a % 64
    match s.ctxOf core with
    | some c => match c.mode with
      | .frozen _ (some id) => if id = a then some core else none
      | _ => none
    | none => none

/-- The worker of a shepherd's cluster that a core id names, where it holds a context that no operation has ended (R371, R372). -/
def namedCore (s : State) (shep : Nat) (a : Nat) : Option Nat :=
  if a < 288 ∧ clusterOf a = clusterOf shep ∧ (s.ctxOf a).any (fun c => c.doomed.isNone) = true then some a else none

/-- An operation that names nothing has no effect but an entry in the recorder (R372), whose type is open (log 15). -/
def nameless (s : State) : State := s.logOpen (unitOf s.turn) (clusterOf s.turn)

/-- The event of a frozen context. -/
def Ctx.event (c : Ctx) : Option TrapEv := match c.mode with
  | .frozen t _ => some t
  | _ => none

/-- A frozen context goes on (R372, R394): an assist is released first; an event held behind is delivered before any bundle (R393). -/
def thaw (s : State) (core : Nat) (b : Nat) (park : Bool) : State :=
  match s.ctxOf core with
  | none => s
  | some c =>
    let s := if c.event.any fun t => t.kind == kAssist then releaseAssist s core else s
    let b := b % 2 ^ 32
    let s := s.modCtx core fun c => { c with budget := if b = 0 then c.budget else BitVec.ofNat 32 b, parkAsked := c.parkAsked || park }
    match c.pend with
    | [] => s.modCtx core fun c => { c with mode := .run }
    | t :: rest => (s.modCtx core fun c => { c with mode := .frozen t none, pend := rest }).enqueue (queueOf core) t

/-- `ctx.resume` MODE 0 (R372). -/
def execCtxResumeRun (a b : BitVec 6) (s : State) : Host.Outcome State Fault Refusal :=
  slotOp (.ctxResumeRun a b) (fun c s =>
    .ok (match namedFrozen s s.turn (readInt s c .c a).toNat with
      | some core => thaw s core (readInt s c .c b).toNat false
      | none => nameless s)) s

/-- `ctx.resume` MODE 1 (R372): a forced park at the next bundle. -/
def execCtxResumePark (a b : BitVec 6) (s : State) : Host.Outcome State Fault Refusal :=
  slotOp (.ctxResumePark a b) (fun c s =>
    .ok (match namedFrozen s s.turn (readInt s c .c a).toNat with
      | some core => thaw s core (readInt s c .c b).toNat true
      | none => nameless s)) s

/-- Pre-empts the context of a core (R303, R393, R409, R410): a commit that a failed connection holds is journalled; a resend that waits
goes back to RETURNING; else an assist of a frozen context is released, and a replayable segment is aborted; a frozen context parks; a running one runs
on. -/
def preempt (s : State) (core : Nat) : State :=
  match s.ctxOf core with
  | none => s
  | some c =>
    if c.resends then giveBack s core c
    else if c.committing && c.atSuspension && heldByFailure s core then journal s core
    else
      let assist := c.event.any (fun t => t.kind == kAssist) || c.pend.any fun t => t.kind == kAssist
      let s := if assist then releaseAssist s core else s
      if c.abortable then abortSegment s core
      else if c.event.isSome then (s.recall core).modCtx core fun c => { c with mode := .run, pend := [], parkAsked := true }
      else s

/-- `ctx.resume` MODE 2 (R372): b must be zero. -/
def execCtxResumePre (a b : BitVec 6) (s : State) : Host.Outcome State Fault Refusal :=
  slotOp (.ctxResumePre a b) (fun c s => do
    need (readInt s c .c b == 0) kIllegal
    match namedCore s s.turn (readInt s c .c a).toNat with
    | some core => .ok (preempt s core)
    | none => .ok (nameless s)) s

/-- `ctx.kill` (R372). -/
def execCtxKill (a : BitVec 6) (s : State) : Host.Outcome State Fault Refusal :=
  slotOp (.ctxKill a) (fun c s =>
    .ok (match namedFrozen s s.turn (readInt s c .c a).toNat with
      | some core => killContext s core
      | none => nameless s)) s

/-- `ctx.kill.run` (R372). -/
def execCtxKillRun (a : BitVec 6) (s : State) : Host.Outcome State Fault Refusal :=
  slotOp (.ctxKillRun a) (fun c s =>
    .ok (match namedCore s s.turn (readInt s c .c a).toNat with
      | some core => killContext s core
      | none => nameless s)) s

/-! ### The cores' own steps -/

/-- A forced park that is due at the bundle boundary (R48, R372): it is taken, or waits for the engines or for its commit. -/
def parkStep (s : State) (core : Nat) : State :=
  match forcePark s core with
  | .ok t => t
  | .error (.fatal f) => fatalIn s core 0 f
  | .error (.after t f) => fatalIn t core 0 f
  | .error .wait => s
  | .error (.later t) => t

/-- Whether the next bundle of a core's context may start to issue: it runs, no bundle is in issue, and no forced park is due. -/
def atBoundary (c : Ctx) : Bool := c.mode == .run && c.issue.isNone && !c.parkAsked && c.doomed.isNone

/-- `BUNDLE_CHECK` (R62): the context of core `args.core` reaches its next bundle, which is fetched and checked whole. -/
def execBundleCheck (s : State) : Host.Outcome State Fault Refusal :=
  let core := s.args.core
  match s.ctxOf core with
  | none => .next s.tick
  | some c =>
    if atBoundary c && !(levelOf core == .u && c.budget == 0) && !fenceShort s core c then .next (reachBundle s core).tick else .next s.tick

/-- `BUDGET_TRAP` (R29): the context of core `args.core` has used its budget. -/
def execBudgetTrap (s : State) : Host.Outcome State Fault Refusal :=
  let core := s.args.core
  match s.ctxOf core with
  | none => .next s.tick
  | some c => if atBoundary c && levelOf core == .u && c.budget == 0 then .next (budgetTrap s core c).tick else .next s.tick

/-- Whether some slots of a join have come to their bundle and some of them have still to issue it: in one cycle, in which no result is
written (R41, R51, R115). -/
def Ctx.inJoin (c : Ctx) : Bool := c.bundles.any fun b =>
  decide (1 < b.issue.join.length) && b.issue.pending.any fun y => b.issue.join.contains y && b.issue.here.contains y

/-- `VARIABLE_LATENCY_RESULT` (R45): the oldest result of variable latency that slot `args.slot` of core `args.core` still waits for, of
position `args.seq`, is written; where `args.flag`, with what the system register that it reads holds now (R130). -/
def execVariableLatencyResult (s : State) : Host.Outcome State Fault Refusal :=
  let mine := fun w : Fly => w.var && !w.done && w.slot == s.args.slot && w.pos == s.args.seq
  .next (s.modCtx s.args.core fun c => if c.inJoin then c else
    ({ c with fly := c.fly.map fun w => if mine w && s.args.flag then refresh s s.args.core c w else w } : Ctx).complete mine).tick

/-! ### The pinfold (R401) -/

/-- The pinfold records of a cluster in SEQ order: SEQ, PRIO and the pager's answer of their entries. -/
def pinned (s : State) (cl : Nat) : List (Nat × Nat × Nat × Waiting) :=
  s.waiting.filterMap fun w => match w.on with
    | .pinfold c seq prio answer => if c = cl then some (seq, prio, answer, w) else none
    | _ => none

/-- Whether an entry may leave: the pager has resolved it, and no entry of its PRIO with a lower SEQ is still pending. -/
def pinLeaves (l : List (Nat × Nat × Nat × Waiting)) (x : Nat × Nat × Nat × Waiting) : Bool :=
  x.2.2.1 != 0 && l.all fun y => !(decide (y.1 < x.1) && y.2.1 == x.2.1 && y.2.2.1 == 0)

/-- `PINFOLD_WAKE` (R401): WAKE of cluster `args.id`'s ring has been written, and every entry that may leave does, in SEQ order, its STATE 3. -/
def execPinfoldWake (s : State) : Host.Outcome State Fault Refusal :=
  let cl := s.args.id
  if !s.wakesSeen.contains cl then .next s.tick else
  let s := { s with wakesSeen := s.wakesSeen.filter fun x => x != cl }
  let l := pinned s cl
  .next ((l.filter (pinLeaves l)).foldl (fun s x =>
    (wakeRecord s x.2.2.2 (if x.2.2.1 = 1 then 10 else 11) none).hubWrite (s.pinEntry cl x.1 + 13) 1 3) s).tick

end Sys2Proof.Machine
end

