-- ==== Sys2Proof/Machine/Sched.lean ====
section
/-! DEFINITION. Records, pastures and pens (17_scheduling): eligibility, mapping, claims, the choice of a record, the checks of a pickup and
the context that it builds or restores, return lanes, and wakes without cause. -/

namespace Sys2Proof.Machine
open Sys2Proof

/-- `PASTURE_NONEMPTY` (R296): the ring of pasture `args.id`, whose TAIL has been written, counts as non-empty in the clusters of CMASK. No other
write starts work (R215). -/
def execPastureNonempty (s : State) : Host.Outcome State Fault Refusal :=
  let p := s.args.id
  if s.tailsSeen.contains p then
    let s := { s with tailsSeen := s.tailsSeen.filter fun x => x != p }
    .next (joinOrder (if ringCount (s.pasture p) = 0 ∨ s.counted.contains p then s else { s with counted := s.counted ++ [p] }) p).tick
  else .next s.tick

/-- The first pasture that waits for a pen of a cluster. -/
def waitingHead (s : State) (cl : Nat) : Option Nat := (s.order.find? fun x => x.1 == cl).map (·.2)

/-- Maps a pen to a pasture (R297, R299). -/
def mapPen (s : State) (cl n p : Nat) : State :=
  { (s.setPen cl n ⟨some p, s.time, s.time, 0, []⟩) with order := s.order.filter fun x => x != (cl, p) }

/-- `PEN_MAP` (R297): the lowest-numbered FREE pen of cluster `args.id` is mapped to the pasture at the head of the order. -/
def execPenMap (s : State) : Host.Outcome State Fault Refusal :=
  let cl := s.args.id
  let s := sweepPens s
  match waitingHead s cl, (List.range 32).find? fun n => (s.pen cl n).pasture.isNone with
  | some p, some n => if cl < 6 then .next (mapPen s cl n p).tick else .next s.tick
  | _, _ => .next s.tick

/-- QUANT, AGE and AFF of a cluster, in nanoseconds (Table 17.4). -/
def quantOf (s : State) (cl : Nat) : Nat := 1000 * bits (s.schCfg cl) 0 16
/-- AGE. -/
def ageOf (s : State) (cl : Nat) : Nat := 1000 * bits (s.schCfg cl) 16 16
/-- AFF. -/
def affOf (s : State) (cl : Nat) : Nat := 1000 * bits (s.schCfg cl) 40 8

/-- The pen of a cluster that has been MAPPED longest; the lowest-numbered among equals. -/
def oldestPen (s : State) (cl : Nat) : Option Nat :=
  (List.range 32).foldl (fun m n =>
    if (s.pen cl n).pasture.isNone then m else
      match m with
      | none => some n
      | some k => if (s.pen cl n).since < (s.pen cl k).since then some n else m) none

/-- `PEN_REMAP` (R297): the pen of cluster `args.id` that has been MAPPED longest, for QUANT at least, serves the pasture at the head of the
order. -/
def execPenRemap (s : State) : Host.Outcome State Fault Refusal :=
  let cl := s.args.id
  let s := sweepPens s
  match waitingHead s cl, oldestPen s cl with
  | some p, some n =>
    if (s.pen cl n).since + quantOf s cl ≤ s.time then .next (mapPen (releasePen s cl n) cl n p).tick else .next s.tick
  | _, _ => .next s.tick

/-- A claim that cannot read its record (R425): STALL is set, the pen is released, and the shepherd is told. -/
def stallPasture (s : State) (cl n p obj off : Nat) : State :=
  let a := s.pastureAddr p + 37
  let s := s.hubWrite a 1 (s.byte a ||| 2).toNat
  sweepPens ((releasePen s cl n).tell cl 0 (noticeOf s 3 kStalled 0 obj off))

/-- Puts a claimed record into a pen's buffer. -/
def bufferRecord (s : State) (cl n : Nat) (r : Rec) (src : Nat × Nat) (lane : Bool) : State :=
  let p := s.pen cl n
  s.setPen cl n { p with buf := p.buf ++ [⟨r, s.time, src, lane⟩] }

/-- The checks of the read that a claim makes (R352, R425). -/
def claimCheck (s : State) (obj off : Nat) : Except Stop Unit := do
  portCheck s ⟨0, true⟩ none obj off 64 false 0
  match flashIn s obj off 64 0 with
  | some f => fatalAt kLostPage obj f
  | none => if fillHeld s obj off 64 0 then .error .wait else .ok ()

/-- A claim of the record at an object offset, as one step: the read, or what follows from its failure (R425). -/
def claimAt (s : State) (cl n p obj off : Nat) (take : State → State) : State := match claimCheck s obj off with
  | .error (.fatal _) => stallPasture s cl n p obj off
  | .error _ => holdFills s obj off 64 0
  | .ok () => sweepPens (take (fillSpan (touch s obj off 64 0) obj off 64 0))

/-- `PEN_CLAIM` (R295, R297, R425): pen `args.core` of cluster `args.id` claims from its pasture's return lane, or from the ring at HEAD. A
record that a released pen gave back is claimed as the pen read it, once its frame can be read (log 28). -/
def execPenClaim (s : State) : Host.Outcome State Fault Refusal :=
  let cl := s.args.id
  let n := s.args.core
  match (s.pen cl n).pasture with
  | none => .next s.tick
  | some p =>
    if 8 ≤ (s.pen cl n).buf.length || !eligible s cl p || 32 ≤ n then .next (sweepPens s).tick
    else match s.lane p with
      | e :: rest =>
        .next (claimAt s cl n p e.frameObj e.frameOff fun s => match e.record with
          | some (r, src) => bufferRecord (s.setLane p rest) cl n r src false
          | none => bufferRecord (s.setLane p rest) cl n (recordAt s e.frameObj e.frameOff) (e.frameObj, e.frameOff) true).tick
      | [] =>
        let d := s.pasture p
        let off := ringSlot d (headOf d)
        .next (claimAt s cl n p (ringObj d) off fun s =>
          (bufferRecord s cl n (recordAt s (ringObj d) off) (ringObj d, off) false).hubWrite (s.pastureAddr p + 24) 8 (headOf d + 1)).tick

/-! ### Return lanes and wakes -/

/-- Whether a frame's save area waits: its page is in reform, or its space is being cleared (R350). -/
def areaWaits (s : State) (obj off : Nat) : Bool := saveArea s obj off 1024 == .waits

/-- The status word that a record on its way has still to receive is written, where its save area is reached (R311, R350). -/
def landStatus (s : State) (r : Returning) : State := match r.status with
  | none => s
  | some (st, arm) =>
    if saveArea s r.frameObj r.frameOff 1024 = .ready then
      let x := writeStatus s r.frameObj r.frameOff st arm
      wakeRecords x.1 ((x.1.waiting.filter fun w => watchHit w.on r.frameObj x.2 && watchMet x.1 w.on).map fun w => (w, 2, none))
    else s

/-- `RECORD_RETURN` (R293): the record at place `args.id` of those on their way enters its pasture's return lane: of those of one pinfold ring and PRIO the
first (R401), and none while its save area, or that of the lane's tail, must wait (R350). -/
def execRecordReturn (s : State) : Host.Outcome State Fault Refusal :=
  match s.returning[s.args.id]? with
  | none => .next s.tick
  | some r =>
    let behind := r.pin.isSome && (s.returning.take s.args.id).any fun x => x.pin == r.pin
    let tailWaits := (s.lane r.pasture).getLast?.any fun e => areaWaits s e.frameObj e.frameOff
    if behind || areaWaits s r.frameObj r.frameOff || tailWaits then .next s.tick
    else
      let s' := landStatus { s with returning := s.returning.eraseIdx s.args.id } r
      .next (joinOrder (s'.pushLane r.pasture ⟨r.frameObj, r.frameOff, none⟩) r.pasture).tick

/-- `WAKE_WITHOUT_CAUSE` (R322): the waiting record at place `args.id` wakes, where it watches a word. -/
def execWakeWithoutCause (s : State) : Host.Outcome State Fault Refusal :=
  match s.waiting[s.args.id]? with
  | none => .next s.tick
  | some w => match w.on with
    | .word _ _ _ _ _ _ _ _ => .next (wakeRecord s w 4 none).tick
    | _ => .next s.tick

/-! ### Choosing a record (R299) -/

/-- A number of bytes at an object offset. -/
def numAt (s : State) (obj o n : Nat) : Nat := ofBytes (locBytes s obj o n 0)

/-- `FOLDM` of a record: of its save area where it has one (R289). -/
def recordFoldm (s : State) (r : Rec) : Word :=
  if r.srv then BitVec.ofNat 64 (numAt s r.frameObj (r.frameOff + 128) 8) else BitVec.ofNat 64 r.fold01

/-- Whether a fold's domain contains a core (R299). -/
def inDomain (f : Fold) (core : Nat) : Bool :=
  !f.valid || decide (2 < f.lvl)
    || f.domain == (if f.lvl = 0 then quadOf core else if f.lvl = 1 then clusterOf core else dieOf core)

/-- Whether the folds of a record's `FOLDM` let a core take it (R299). That of a save area is read at its port (R351): one that cannot be read keeps the
record from no core, as its pickup rejects it (R291); one that waits keeps it from every core. -/
def foldsAllow (s : State) (core : Nat) (r : Rec) : Bool :=
  let ok := (List.range 4).all fun i =>
    let e := foldmEntry (recordFoldm s r) i
    !e.1 || inDomain (s.fold e.2.2) core
  if !r.srv then ok else
    match portCheck s ⟨0, true⟩ none r.frameObj (r.frameOff + 128) 8 false 0 with
    | .ok () => ok && !fillHeld s r.frameObj (r.frameOff + 128) 8 0
    | .error (.fatal _) => true
    | .error _ => false

/-- Whether a core may take a buffered record (R299). -/
def mayTake (s : State) (core : Nat) (b : Buffered) : Bool :=
  let h := b.record.home
  let away := h != 0xFFFF && decide (h < 288) && clusterOf h == clusterOf core && h != core
  !(away && decide (s.time < b.since + affOf s (clusterOf core))) && foldsAllow s core b.record

/-- A pen's candidate for a core: its place in the buffer, and the record. -/
def candidate (s : State) (core n : Nat) : Option (Nat × Buffered) :=
  ((s.pen (clusterOf core) n).buf.zipIdx.find? fun b => mayTake s core b.1).map fun b => (b.2, b.1)

/-- The level of a pen's candidate (R299). -/
def levelAt (s : State) (cl n : Nat) (b : Buffered) : Nat :=
  let p := s.pen cl n
  min 7 (min b.record.prio (pastPrio (s.pasture (p.pasture.getD 0))) + (s.time - p.lastGave) / max 1 (ageOf s cl))

/-- The WEIGHT of a pen's pasture. -/
def penWeight (s : State) (cl n : Nat) : Nat := pastWeight (s.pasture ((s.pen cl n).pasture.getD 0))

/-- The weighted round robin of R299 over some pens: the state with the credits after it, and the pen chosen. -/
def roundRobin (s : State) (cl : Nat) (l : List Nat) : State × Option Nat :=
  let s := l.foldl (fun s n => s.setPen cl n { s.pen cl n with credit := (s.pen cl n).credit + penWeight s cl n }) s
  let best := l.foldl (fun m n => match m with
    | none => some n
    | some k => if (s.pen cl k).credit < (s.pen cl n).credit then some n else m) none
  match best with
  | none => (s, none)
  | some n =>
    (s.setPen cl n { s.pen cl n with credit := (s.pen cl n).credit - ((l.foldl (fun a n => a + penWeight s cl n) 0 : Nat) : Int) }, some n)

/-- The record that a core takes (R299): the state after the choice, the pen and the place in its buffer. -/
def chooseRecord (s : State) (core : Nat) : State × Option (Nat × Nat × Buffered) :=
  let cl := clusterOf core
  let cs := (List.range 32).filterMap fun n => (candidate s core n).map fun x => (n, x.1, x.2)
  let top := cs.foldl (fun m x => max m (levelAt s cl x.1 x.2.2)) 0
  let at' := cs.filter fun x => levelAt s cl x.1 x.2.2 == top
  let mine := (at'.filter fun x => x.2.2.record.home == core).foldl (fun m x => match m with
    | none => some x
    | some y => if x.2.2.since < y.2.2.since then some x else m) none
  match mine with
  | some x => (s, some x)
  | none =>
    let r := roundRobin s cl (at'.map (·.1))
    (r.1, r.2.bind fun n => at'.find? fun x => x.1 == n)

/-- Whether a core is idle and may take records (R299, R405). -/
def idleCore (s : State) (core : Nat) : Bool :=
  let x := s.core core
  decide (core < 288) && x.ctx.isNone && !x.retired && !x.selfTest && s.boot == .running

/-! ### Pickup (R289 to R291, R313) -/

/-- Whether an object is valid and permitted to a paddock. -/
def permitted (s : State) (obj pad : Nat) : Bool :=
  if isLocal obj then bits (s.desc obj) 16 16 == pad
  else s.isTable obj && (s.objEnt obj).valid && (s.objEnt obj).permits pad

/-- How the read of an entry of a key table ends (R289): it waits, it makes the record be rejected (R291), or it loads what it may. -/
inductive KeyRead | wait | reject | load
  deriving DecidableEq, Repr

/-- The read of an entry of a key table, with the authority of level S (R289, R352). -/
def keyRead (s : State) (r : Rec) (i : Nat) : KeyRead :=
  let o := r.keyOff + 16 * i
  match portCheck s ⟨0, true⟩ none r.keyObj o 16 false 0 with
  | .error (.fatal f) => if f.kind = kBounds then .load else .reject
  | .error _ => .wait
  | .ok () => if (flashIn s r.keyObj o 16 0).isSome then .reject else if fillHeld s r.keyObj o 16 0 then .wait else .load

/-- The read of a part of a frame at pickup (R289, R404). -/
def frameRead (s : State) (r : Rec) (o n : Nat) : KeyRead :=
  match portCheck s ⟨0, true⟩ none r.frameObj (r.frameOff + o) n false 0 with
  | .error (.fatal _) => .reject
  | .error _ => .wait
  | .ok () => if (flashIn s r.frameObj (r.frameOff + o) n 0).isSome then .reject else if fillHeld s r.frameObj (r.frameOff + o) n 0 then .wait else .load

/-- The read of a save area at pickup, with the journal that it names (R289, R404, R410). -/
def saveRead (s : State) (r : Rec) : List KeyRead :=
  let area := frameRead s r 0 1024
  let j := jhdrOf s r
  area :: (if area = .load ∧ j.1 then [frameRead s r 1024 j.2.2] else [])

/-- What a pickup reads beside the record: the entries of the key table, or the save area. -/
def pickupReads (s : State) (r : Rec) : List KeyRead := if r.srv then saveRead s r else (List.range 7).map fun i => keyRead s r (i + 1)

/-- The controllers hold the fills that a pickup needs (R15, R309). -/
def holdPickup (s : State) (r : Rec) : State :=
  if r.srv then holdFills (holdFills s r.frameObj r.frameOff 1024 0) r.frameObj (r.frameOff + 1024) (jhdrOf s r).2.2 0
  else holdFills s r.keyObj (r.keyOff + 16) 112 0

/-- A pickup reads the entries of the key table that it may (R289): their pages note the access (R349). -/
def touchKeys (s : State) (r : Rec) : State :=
  (List.range 7).foldl (fun s i =>
    let o := r.keyOff + 16 * (i + 1)
    match portCheck s ⟨0, true⟩ none r.keyObj o 16 false 0 with
    | .ok () => fillSpan (touch s r.keyObj o 16 0) r.keyObj o 16 0
    | .error _ => s) s

/-- Why a record is rejected (R291). -/
inductive RejectCause | check | field | paddock | code | object | reads
  deriving DecidableEq, Repr

/-- Whether a field of a record breaks R289: those that only a launched record must hold as zero are asked of a record from a ring (R424). -/
def fieldBad (p : Nat) (b : Buffered) : Bool :=
  let r := b.record
  let zero := fun lo n => bits r lo n == 0
  !((b.fromLane || (r.wait == 0 && !r.pinf && !r.srv && zero 170 2 && zero 186 2)) && zero 267 5 && zero 259 5 && zero 300 4
    && r.pasture == p && r.entry % 32 == 0 && r.keyOff % 16 == 0 && decide (1024 ≤ r.frameLen))

/-- The causes for which a pickup rejects a record (R288, R289, R291). -/
def rejectCauses (s : State) (p : Nat) (b : Buffered) : List RejectCause :=
  let r := b.record
  let e := s.objEnt r.codeObj
  let when' := fun (c : Bool) (k : RejectCause) => if c then [k] else []
  when' (r.check != r.crc) .check ++ when' (fieldBad p b) .field ++ when' (r.paddock != pastPaddock (s.pasture p)) .paddock
    ++ when' (!(s.isTable r.codeObj && e.valid && e.permits r.paddock && e.exec && decide (r.entry < e.size))) .code
    ++ when' (!(permitted s r.frameObj r.paddock && permitted s r.keyObj r.paddock)) .object
    ++ when' ((pickupReads s r).contains .reject) .reads

/-- The current generation of an object (R289). -/
def genNow (s : State) (obj : Nat) : Nat := if isLocal obj then bits (s.desc obj) 0 16 else (s.objEnt obj).gen

/-- The frame capability that a pickup builds (R289): rights R, W, A and T, and L for a local space. -/
def frameCap (s : State) (r : Rec) : Cap :=
  mkCap r.frameObj (15 + 128 * b2n (isLocal r.frameObj)) r.frameOff r.frameLen (genNow s r.frameObj) true

/-- Entry i of the key table at KEYS (R289): beyond SIZE, or on a page that carries no tags, a capability with its tag clear; no rule gives its value
where no memory of the package holds one, which is free. -/
def keyAt (s : State) (r : Rec) (i : Nat) : Cap :=
  let o := r.keyOff + 16 * i
  let remote := !isLocal r.keyObj && (failing s r.keyObj (s.seenObj r.keyObj 0) o 16 0 fun pe => pe.tier != 2).isSome
  match portCheck s ⟨0, true⟩ none r.keyObj o 16 false 0, remote with
  | .ok (), false => ⟨BitVec.ofNat 128 (numAt s r.keyObj o 16), locTag s r.keyObj o 0⟩
  | _, _ => ⟨BitVec.ofNat 128 (s.pickAt 7100 i 0), false⟩

/-- A `FOLDM` with its reserved bits zero (R7, Table 2.13). -/
def foldmOf (n : Nat) : Word := BitVec.ofNat 64 n &&& 0xF3FFF3FFF3FFF3FF

/-- A context that a record starts (R289, Table 2.1). -/
def launchCtx (s : State) (r : Rec) : Ctx :=
  let c : Ctx := { freshCtx with
    record := r, hasRecord := true, frameGen := genNow s r.frameObj, paddock := r.paddock, codeObj := r.codeObj, pc := r.entry
    k := (List.range 7).foldl (fun t i => sput Cap.null t (i + 1) (keyAt s r (i + 1))) (sput Cap.null [] 0 (frameCap s r))
    budget := BitVec.ofNat 32 r.grant, foldm := foldmOf r.fold01, pmt := BitVec.ofNat 64 r.permits, replay := r.repl }
  { c with start := c.toSaved saveAll 0 0, firstSeg := true }

/-- A loop of a save area (Table 18.3). -/
def loopAt (s : State) (obj o l : Nat) : Loop :=
  ⟨BitVec.ofNat 32 (numAt s obj (o + 148 + 4 * l) 4), numAt s obj (o + 160 + 16 * l) 8, numAt s obj (o + 168 + 16 * l) 8,
    (numAt s obj (o + 145) 1).testBit l⟩

/-- The registers that a save area holds (Table 18.3): reserved bits are zero (R7), and so is a scalar register that SMASK leaves out. -/
def readSave (s : State) (obj o : Nat) : Saved :=
  let n := numAt s obj
  let smask := BitVec.ofNat 24 (n (o + 124) 4)
  { next := n (o + 64) 8 % 2 ^ 40, status := BitVec.ofNat 64 (n (o + 80) 8), waitv := BitVec.ofNat 64 (n (o + 88) 8)
    fmt := BitVec.ofNat 32 (n (o + 96) 4 % 2 ^ 18), vtype := BitVec.ofNat 32 (n (o + 100) 4 % 2 ^ 3), vwin := BitVec.ofNat 32 (n (o + 104) 4 % 2 ^ 3)
    vact := BitVec.ofNat 32 (n (o + 108) 4 % 2 ^ 2), fpctl := BitVec.ofNat 32 (n (o + 112) 4), amax := BitVec.ofNat 32 (n (o + 116) 4)
    budget := BitVec.ofNat 32 (n (o + 120) 4), smask := smask, foldm := foldmOf (n (o + 128) 8), pmt := BitVec.ofNat 64 (n (o + 136) 8)
    pred := BitVec.ofNat 4 (n (o + 144) 1 / 2 * 2), farm := BitVec.ofNat 8 (n (o + 146) 1), lc0 := loopAt s obj o 0, lc1 := loopAt s obj o 1
    sregs := (List.range 24).foldl (fun t i => if smask.getLsbD i then sput 0 t (8 + i) (BitVec.ofNat 64 (n (o + 192 + 8 * i) 8)) else t) []
    keys := (List.range 16).foldl (fun t i =>
      sput Cap.null t i ⟨BitVec.ofNat 128 (n (o + 384 + 16 * i) 16), locTag s obj (o + 384 + 16 * i) 0⟩) []
    masks := (List.range 3).foldl (fun t j => sput 0 t (j + 1) (BitVec.ofNat 512 (n (o + 640 + 64 * j) 64))) [] }

/-- A context restored from a save area (R289, R311, R313). -/
def restoreCtx (s : State) (r : Rec) (v : Saved) : Ctx :=
  { freshCtx with
    record := r, hasRecord := true, frameGen := genNow s r.frameObj, paddock := r.paddock, codeObj := r.codeObj, pc := v.next
    s := sput 0 v.sregs 0 v.status, p := v.pred, lc0 := v.lc0, lc1 := v.lc1, k := v.keys, m := v.masks, fmt := v.fmt, vtype := v.vtype
    vwin := v.vwin, vact := v.vact, fpc := v.fpctl.setWidth 5, flags := BitVec.ofNat 5 (bits v.fpctl 7 5), amax := v.amax
    amaxNan := v.fpctl.getLsbD 12, budget := v.budget, foldm := v.foldm, farm := v.farm, replay := r.repl, pmt := v.pmt, start := v
    firstSeg := false }

/-- A rejected record (R291): RETIRED, and the shepherd is told its address and the reason, for which no table gives a number (log 15). -/
def rejectRecord (s : State) (core : Nat) (b : Buffered) (causes : List RejectCause) : State :=
  s.tell (queueOf core) 0 { noticeOf s (unitOf core) kRejected core b.source.1 b.source.2 with reason := Config.rejectReason (causes.map RejectCause.ctorIdx) % 256 }

/-- A core runs a record that has passed its checks: SEQ counts the segment (R290), and a journal is sent again first (R410). -/
def startRecord (s : State) (core : Nat) (r : Rec) : State :=
  let r := Rec.sealed (setBits r 448 32 (r.seq + 1))
  if !r.srv then
    let s := touchKeys s r
    s.setCore core { s.core core with ctx := some (launchCtx s r) }
  else
    let s := fillSpan (touch s r.frameObj r.frameOff 1024 0) r.frameObj r.frameOff 1024 0
    let c := restoreCtx s r (readSave s r.frameObj r.frameOff)
    if (jhdrOf s r).1 then
      let s := s.setCore core { s.core core with ctx := some { c with mode := .resending 0 } }
      resendStep s core 0 c
    else s.setCore core { s.core core with ctx := some c }

/-- The record that an idle core takes now, where it does: of several idle cores that have a candidate, the lowest goes first (R299). The
state without the record in its pen, the pasture, and the record. -/
def takeRecord (s : State) (core : Nat) : Option (State × Nat × Buffered) :=
  let cl := clusterOf core
  let first := ((List.range 288).filter fun k => clusterOf k == cl && decide (k < core) && idleCore s k).all fun k => (chooseRecord s k).2.isNone
  if !idleCore s core || !first then none
  else match chooseRecord s core with
    | (s, some (n, i, b)) =>
      let p := s.pen cl n
      some (sweepPens (s.setPen cl n { p with buf := p.buf.eraseIdx i, lastGave := s.time }), p.pasture.getD 0, b)
    | (_, none) => none

/-- `PICKUP` (R289, R291, R299): idle core `args.core` takes a record, and runs it or rejects it; it waits for what the pickup reads. -/
def execPickup (s : State) : Host.Outcome State Fault Refusal :=
  let core := s.args.core
  let s := sweepPens s
  match takeRecord s core with
  | some (t, p, b) =>
    let causes := rejectCauses t p b
    if causes ≠ [] then .next (rejectRecord t core b causes).tick
    else if (pickupReads t b.record).contains .wait then .next (holdPickup s b.record).tick
    else .next (startRecord t core b.record).tick
  | none => .next s.tick

end Sys2Proof.Machine
end

