-- ==== Sys2Proof/Machine/Fabric.lean ====
section
/-! DEFINITION. The fabric: messages at the responder and their answers at the sender (R214, R250 to R253, R283, R361, R362, R411), the
recorder as an object (R420), connections, ports and on-package links (R212, R307, R409, R412, R413). -/

namespace Sys2Proof.Machine
open Sys2Proof

/-! ### Fatal package errors (R419) -/

/-- A FATAL PACKAGE ERROR (R388, R419): the recorder freezes before its next entry, and the hub's watchdog has 100 ms. -/
def fatalPackage (s : State) : State :=
  let r := s.recorder
  { s with
    recorder := if r.frozen then r else { r with frozen := true, fseq := r.next }
    watchdog := some (s.watchdog.getD (s.time + 100000000)) }

/-- What follows from an error, as a recorder entry names it (Table 25.10): it is corrected; the rows of Table 25.2 follow, as `ErrLoc` numbers them. -/
def actCorrected : Nat := 0

/-- Corrected errors of a unit are counted in their class; an entry is written for each 1,024th (R403, R418). `die` 2 is the hub. -/
def countCorrected (s : State) (die cls n unit index : Nat) : State :=
  let off := 128 * die + 16 * cls
  let old := (sget 0 s.health off).toNat
  let t := s.bump off n
  (List.range ((sget 0 t.health off).toNat / 1024 - old / 1024)).foldl (fun s _ => s.logBody unit index 2 [cls, actCorrected]) t

/-! ### The recorder as an object (R420) -/

/-- The recorder's object id. -/
def recorderObj : Nat := 0xFFA000
/-- Its length in bytes. -/
def recorderLen : Nat := 524352
/-- A byte of it. -/
def recorderByte (s : State) (o : Nat) : Byte :=
  let r := s.recorder
  if o < 8 then BitVec.ofNat 8 (r.next / 256 ^ o)
  else if o < 16 then BitVec.ofNat 8 ((b2n r.frozen * 2 ^ 63 + r.fseq % 2 ^ 32) / 256 ^ (o - 8))
  else if o < 64 then 0
  else BitVec.ofNat 8 ((sget 0 r.entries ((o - 64) / 32)).toNat / 256 ^ ((o - 64) % 32))
/-- The peer of a connection. -/
def peerOf (s : State) (cn : Nat) : Option Peer := s.peers[(s.conn cn).peer]?
/-- Whether a connection may use the recorder: a management connection that has completed attestation (R387). -/
def mayRecord (s : State) (cn : Nat) : Bool := (peerOf s cn).any (·.management) && (s.conn cn).attested

/-! ### The responder (R214, R283, R362) -/

/-- Whether a write covers whole units of every page with the fault policy that it touches (R194). -/
def coversAll (s : State) (obj o n : Nat) : Bool :=
  let e := s.seenObj obj 0
  (pagesOf e.page o n).all fun pg =>
    let pe := pageFor s obj e pg 0
    !(pe.converts && pe.pbp) || coversUnits pe (max o pg - pg) (min (o + n) (pg + e.page) - max o pg)

/-- The reason that a fault of the port checks becomes (Table 25.6). -/
def reasonOf (kind : Nat) : Nat :=
  if kind = kRevoked then 3 else if kind = kPaddock then 4 else if kind = kBounds then 5
  else if kind = kNonResident ∨ kind = kLostPage then 7 else if kind = kFormat then 8 else 6

/-- The reason for which a message's target refuses it (R362): none where it may perform. `.error` is where it waits: a page in reform, or a fill that
a controller holds. -/
def targetReason (s : State) (cn obj gen o n right : Nat) : Except Unit (Option Nat) :=
  let write := right != rightR
  let e := s.seenObj obj 0
  if !s.isTable obj || !e.valid || !e.fab then .ok (some 2)
  else
    let remote := (failing s obj e o n 0 fun pe => pe.tier != 2).isSome
    match portCheck s ⟨((peerOf s cn).map (·.paddock)).getD 0, false⟩ (some gen) obj o n write 0 with
    | .error (.fatal f) =>
      let r := reasonOf f.kind
      .ok (some (if remote && decide (5 < r) then 7 else r))
    | .error _ => if remote then .ok (some 7) else .error ()
    | .ok () =>
      if remote then .ok (some 7)
      else if write && !coversAll s obj o n then .ok (some 8)
      else if right != rightW && (flashIn s obj o n 0).isSome then .ok (some 7)
      else if right != rightW && fillHeld s obj o n 0 then .error ()
      else .ok none

/-- The reasons for which a message is refused, beside its target's (R411): the peer table, lengths, the landing count, a reset responder. -/
def plainReasons (s : State) (lengthOk landingOk : Bool) : List Nat :=
  (if lengthOk then [] else [12]) ++ (if landingOk then [] else [9]) ++ (if s.args.code = 0 then [] else [10])

/-- All reasons of a message to an object: none where it waits. A sender that the peer table does not hold is refused for that; else the message must carry the
right that it needs (R214, R361). -/
def objectReasons (s : State) (cn obj gen o n right : Nat) (lengthOk landingOk : Bool) : Option (List Nat) :=
  if (peerOf s cn).isNone then some [1]
  else match targetReason s cn obj gen o n right with
    | .error () => none
    | .ok r => some (plainReasons s lengthOk landingOk ++ (if s.args.rights.testBit right then [] else [6]) ++ r.toList)

/-- The controllers hold the fills that a message waits for (R15, R309). -/
def holdFor (r : Option (List Nat)) (s : State) (obj o n : Nat) : State := if r.isNone then holdFills s obj o n 0 else s

/-- What a message does at its responder: its single-copy atomic units (Table 15.2), whether they perform in order, and what follows the last. -/
structure Effect where
  units : Nat
  ordered : Bool
  unit : Nat → State → State
  after : State → State

/-- A message without effect. -/
def Effect.none : Effect := ⟨0, true, fun _ s => s, id⟩
/-- A message that performs as one event. -/
def Effect.one (f : State → State) : Effect := ⟨0, true, fun _ s => s, f⟩

/-- Units of the expected message of a connection perform: all that are left, but where an input makes it pause before them (log 11). The state, and
whether the message has performed. -/
def Effect.run (e : Effect) (cn : Nat) (s : State) : State × Bool :=
  let begun := (s.conn cn).begun
  let todo := (List.range e.units).filter fun i => !begun.contains i
  if 0 < s.pause ∧ s.pause < todo.length then
    let now := if e.ordered then todo.take s.pause else s.chooseSome 8120 s.pause todo
    let t := now.foldl (fun s i => e.unit i s) s
    ({ t.setConn cn { t.conn cn with begun := begun ++ now } with pause := 0 }, false)
  else
    let t := e.after (todo.foldl (fun s i => e.unit i s) s)
    (t.setConn cn { t.conn cn with begun := [] }, true)

/-- A MESSAGE ARRIVES (R283): connection `args.id`, number `args.seq`. The expected number performs or is refused with one of its reasons
(which one of several is free, log 23), and the status enters the window; one that has begun to perform is refused no more (R214); a duplicate is answered with the recorded status, a GET from
a new read; any other number is discarded, and so is one that has not arrived since the connection began. A message reaches no port whose
link is down. -/
def receive (s : State) (isGet : Bool) (reasons : Option (List Nat)) (e : Effect) (data : List Byte) : State :=
  let cn := s.args.id
  let c := s.conn cn
  let n := s.args.seq % 2 ^ 32
  let back := (c.expected + 2 ^ 32 - n) % 2 ^ 32
  let status := fun l : List Nat => l.getD (s.pick 8100 % l.length) 0
  if !(s.portOf c.port).up || !c.up then s
  else if back = 0 then
    match reasons with
    | none => s
    | some l =>
      let l := if c.begun.isEmpty then l else []
      let (s, done) := if l.isEmpty then e.run cn s else (s, true)
      if !done then s
      else s.setConn cn { s.conn cn with
        expected := (n + 1) % 2 ^ 32, window := (status l :: c.window).take 4096, answer := some (n, status l, if l.isEmpty then data else []) }
  else if back ≤ 4096 then
    match c.window[back - 1]?, reasons with
    | none, _ => s
    | some 0, some l =>
      if isGet then
        let s := if l.isEmpty then e.after s else s
        s.setConn cn { s.conn cn with answer := some (n, status l, if l.isEmpty then data else []) }
      else s.setConn cn { c with answer := some (n, 0, []) }
    | some 0, none => if isGet then s else s.setConn cn { c with answer := some (n, 0, []) }
    | some old, _ => s.setConn cn { c with answer := some (n, old, []) }
  else s

/-- Whether a message has a legal number of bytes (Table 12.6). -/
def lengthOk (n : Nat) : Bool := decide (1 ≤ n) && decide (n ≤ 4096)

/-- The release of the recorder's freeze (R420). -/
def releaseFreeze (s : State) : State := { s with recorder := { s.recorder with frozen := false } }

/-- A PUT to the recorder (R420). -/
def putRecorder (s : State) (off : Nat) (data : List Byte) : State :=
  let ok := mayRecord s s.args.id && off == 8 && data == List.replicate 8 0
  receive s false (some (if ok then [] else [6])) (.one releaseFreeze) []

/-- The bytes of a PUT as its units perform (Table 15.2): `args.nats` says where the sender's tile has no block alike, and each byte stands alone. -/
def putUnits (a : EventArgs) : List (List (Nat × Byte)) := unitsOf (if a.nats.isEmpty then 16 else 1) (atOffsets a.off a.data)

/-- `PUT` (R214, R250): `args.obj`, `args.off`, `args.gen`, `args.rights` the target, `args.data` the bytes, `args.flag` whether it uses a landing
permit, `args.code` not 0 where this responder was reset after the message was first sent. -/
def execPut (s : State) : Host.Outcome State Fault Refusal :=
  let a := s.args
  if a.obj = recorderObj then .next (putRecorder s a.off a.data).tick
  else
    let n := a.data.length
    let u := putUnits a
    .next (receive s false (objectReasons s a.id a.obj a.gen a.off n rightW (lengthOk n) (!a.flag || (s.conn a.id).landed != 0)) {
      units := u.length, ordered := false
      unit := fun i s =>
        let d := u.getD i []
        let s := touch s a.obj a.off n 0
        performBytes (s.record ((peerAct s a.id a.obj ((d.head?.map (·.1)).getD a.off) d.length (.write true)).over s)) a.obj 0 d
      after := fun s => if a.flag then s.setConn a.id { s.conn a.id with landed := (s.conn a.id).landed - 1 } else s } []).tick

/-- `RECORDER_FREEZE_RELEASE` (R420): the PUT of eight zero bytes at offset 8 of the recorder on connection `args.id`. -/
def execRecorderFreezeRelease (s : State) : Host.Outcome State Fault Refusal := .next (putRecorder s 8 (List.replicate 8 0)).tick

/-- `GET` (R214): `args.obj`, `args.off`, `args.gen`, `args.len`; `args.code` as for a PUT. -/
def execGet (s : State) : Host.Outcome State Fault Refusal :=
  let a := s.args
  if a.obj = recorderObj then
    let ok := mayRecord s a.id && a.off % 32 == 0 && a.len % 32 == 0 && lengthOk a.len && decide (a.off + a.len ≤ recorderLen)
    .next (receive s true (some (if ok then [] else [6])) .none ((List.range a.len).map fun i => recorderByte s (a.off + i))).tick
  else
    let t := fillSpan (touch s a.obj a.off a.len 0) a.obj a.off a.len 0
    let r := objectReasons s a.id a.obj a.gen a.off a.len rightR (lengthOk a.len) true
    .next (receive (holdFor r s a.obj a.off a.len) true r
      (.one fun s => (fillSpan (touch s a.obj a.off a.len 0) a.obj a.off a.len 0).recordRead (peerAct s a.id a.obj a.off a.len (.read true [])))
      (partyBytes t a.obj a.off a.len 0)).tick

/-- `FADD` (R214, R109): each element is added at its home, in rising order; `args.flag` for BF16 pairs. -/
def execFadd (s : State) : Host.Outcome State Fault Refusal :=
  let a := s.args
  let n := a.data.length
  if a.obj = recorderObj then .next (receive s false (some [6]) .none []).tick
  else
    let r := objectReasons s a.id a.obj a.gen a.off n rightA (lengthOk n && n % 4 == 0 && a.off % 4 == 0) true
    .next (receive (holdFor r s a.obj a.off n) false r {
      units := n / 4, ordered := true
      unit := fun i s =>
        let s := touch s a.obj a.off n 0
        addElems (11, a.flag) a.obj (a.off + 4 * i) ((a.data.drop (4 * i)).take 4)
          (s.recordRead ((peerAct s a.id a.obj (a.off + 4 * i) 4 (.atomic false [])).over s))
      after := id } []).tick

/-- The location of a pasture's tail word among the acts: no object has this number. -/
def tailPseudo (p : Nat) : Nat := 2 ^ 27 + p

/-- `TAIL` (R214, R215): pasture `args.off` takes the tail word `args.val`, a release store after every earlier message of the connection. -/
def execTail (s : State) : Host.Outcome State Fault Refusal :=
  let a := s.args
  let d := s.pasture a.off
  let bad := if 4096 ≤ a.off ∨ !pastValid d then [13]
    else if pastPaddock d ≠ ((peerOf s a.id).map (·.paddock)).getD 0 then [4] else []
  .next (receive s false (some (if (peerOf s a.id).isNone then [1] else plainReasons s true true ++ bad))
    (.one fun s => ((s.record (peerAct s a.id (tailPseudo a.off) 0 8 (.write true))).hubWrite (s.pastureAddr a.off + 16) 8 a.val.toNat).seeTail a.off) []).tick

/-- `PERMIT` (R253): `args.len` permits and a lease of `args.val` units of 1,024 ns, 0 for 9,766, reach the permit word. -/
def execPermit (s : State) : Host.Outcome State Fault Refusal :=
  let a := s.args
  let dur := if a.val = 0 then 9766 else a.val.toNat
  if a.obj = recorderObj then .next (receive s false (some [6]) .none []).tick
  else
    let r := objectReasons s a.id a.obj a.gen a.off 8 rightA (decide (1 ≤ a.len) && decide (a.len ≤ 65535) && a.off % 8 == 0) true
    .next (receive (holdFor r s a.obj a.off 8) false r
      (.one fun s => grantPermits ((touch s a.obj a.off 8 0).recordRead ((peerAct s a.id a.obj a.off 8 (.atomic false [])).over s)) a.obj a.off a.len dur) []).tick

/-! ### The sender (R250 to R252, R283) -/

/-- The unacknowledged message that an answer on connection `args.id` with number `args.seq` completes: one answer counts for each
number (R283). -/
def answered (s : State) : Option Message := (s.conn s.args.id).unacked.find? fun m => m.seq == s.args.seq

/-- A message leaves the unacknowledged ones. -/
def forget (s : State) (m : Message) : State :=
  let c := s.conn s.args.id
  s.setConn s.args.id { c with unacked := c.unacked.filter fun x => x.seq != m.seq }

/-- One message of a row is answered. -/
def Tracked.less (t : Tracked) (row : Nat) : Tracked := ({ t with rows := sput 0 t.rows row (sget 0 t.rows row - 1) } : Tracked).rowDone row

/-- The status code of a command after another outcome: where several apply, which one stands is free (log 23). -/
def Tracked.status (t : Tracked) (keep : Bool) (code reason : Nat) : Tracked :=
  if t.code ≠ 0 ∧ keep then t else { t with code := code, reason := reason }

/-- A message of a command has performed at its home: bytes of a tile with a fold count as landed (R242). -/
def succeed (s : State) (m : Message) : State :=
  let f := (s.tracked.find? fun t => t.core == m.core && t.cmd == m.cmd).bind (·.fold)
  let s := s.track m.core m.cmd fun t => { t.less m.row with good := (t.less m.row).good + (if t.kind = 0 then 1 else 0) }
  settleTracked (if m.kind = 3 ∨ m.kind = 4 then s else landFor s f m.len) m.core m.cmd

/-- A message of a command is refused (R214, R252). -/
def refuse (s : State) (m : Message) (reason : Nat) : State :=
  settleTracked (s.track m.core m.cmd fun t =>
    let t := { t with bad := if t.bad.contains m.row then t.bad else t.bad ++ [m.row] }
    (t.less m.row).status (s.pick 8400 % 2 == 1) 2 reason) m.core m.cmd

/-- `ACK` (R283): message `args.seq` of connection `args.id` has performed. -/
def execAck (s : State) : Host.Outcome State Fault Refusal :=
  match answered s with
  | some m => if m.kind = 4 then .next s.tick else .next (succeed (forget s m) m).tick
  | none => .next s.tick

/-- `NAK` (R214): message `args.seq` of connection `args.id` is refused with reason `args.code`. -/
def execNak (s : State) : Host.Outcome State Fault Refusal :=
  match answered s with
  | some m => .next (refuse (forget s m) m s.args.code).tick
  | none => .next s.tick

/-- The bytes of a response in the tile of its command: towards the own scratchpad, or into the porch where the tile's writes are held
(R241). A command that is gone takes none. -/
def landResponse (s : State) (m : Message) (data : List Byte) : Except Stop State :=
  match s.ctxOf m.core, (s.core m.core).cp.find? fun x => x.id == m.cmd with
  | some c, some x =>
    let d := data.zipIdx.map fun b => (Tile.at x.tile m.row (m.col + b.2), b.1)
    let unit := if m.off % 16 = m.col % 16 then 16 else 1
    if x.held then
      holdAll m.core [{ heldTile c .x x.cls .xc x.pos x.tileNo x.tile x.tileGen d with
        group := x.group, fold := Tile.fold x.tile, cmd := some (x.id, x.names), unit := unit }] s
    else .ok (s.setCp m.core x.id fun y => { y with moves := y.moves ++ (unitsOf unit d).map fun u => (m.row, u) })
  | _, _ => .ok s

/-- `GET_RESPONSE` (R250): the bytes `args.data` answer the GET `args.seq` of connection `args.id`. -/
def execGetResponse (s : State) : Host.Outcome State Fault Refusal :=
  match answered s with
  | some m =>
    if m.kind ≠ 4 ∨ s.args.data.length ≠ m.len then .next s.tick
    else match landResponse s m s.args.data with
      | .ok t => .next (succeed (forget t m) m).tick
      | .error (.fatal f) => .next (fatalIn (forget s m) m.core 6 f).tick
      | .error (.after t f) => .next (fatalIn (forget t m) m.core 6 f).tick
      | .error (.later t) => .next t.tick
      | .error .wait => .next s.tick
  | none => .next s.tick

/-- `MESSAGE_RESEND` (R283): every unacknowledged message goes out again, in order, with its number. The connection keeps what it held. -/
def execMessageResend (s : State) : Host.Outcome State Fault Refusal := .next s.tick

/-- The ports that the peer table allows toward a connection's peer and that are up. -/
def portsToward (s : State) (cn : Nat) : List Nat :=
  (List.range 4).filter fun p => (s.portOf p).up && (peerOf s cn).any fun x => x.ports.testBit p

/-- `CONNECTION_FAIL` (R409, R411): connection `args.id` fails; its GETs complete with reason 11, and its writes stay with their commits. -/
def execConnectionFail (s : State) : Host.Outcome State Fault Refusal :=
  let cn := s.args.id
  let c := s.conn cn
  if (c.unacked.any fun m => decide (m.sent + 100000000 ≤ s.time)) && (portsToward s cn).isEmpty then
    let t := s.setConn cn { c with failed := true, unacked := c.unacked.filter fun m => m.kind != 4 }
    .next ((c.unacked.filter fun m => m.kind == 4).foldl (fun s m => refuse s m 11) t).tick
  else .next s.tick

/-! ### Permits of a peer (R307) -/

/-- Whether the lease that a connection has granted is over. -/
def leaseOver (s : State) (c : Conn) : Bool := decide (1024 * c.lease ≤ s.time)

/-- `PERMIT_LEASE_EXPIRY` (R307): the landing count of connection `args.id` becomes zero when its lease is over; a connection that is still
to be re-established keeps it until then. -/
def execPermitLeaseExpiry (s : State) : Host.Outcome State Fault Refusal :=
  let c := s.conn s.args.id
  if c.up && leaseOver s c then .next (s.setConn s.args.id { c with landed := 0 }).tick else .next s.tick

/-- Whether a connection's peer has no more connections up than its limit allows, this one counted (R381, Table 23.1). -/
def withinLimit (s : State) (cn : Nat) : Bool :=
  (peerOf s cn).any fun p => decide (s.conns.countP (fun c => c.1 != cn && c.2.up && c.2.peer == (s.conn cn).peer) < p.limit)

/-- `CONNECTION_REESTABLISHED` (R307): connection `args.id` is established again after a reset of the sender; its messages are numbered from
`args.seq`. The landing count becomes zero, or does so at the lease's end where that is later. A peer gets no more connections than its limit (R381). -/
def execConnectionReestablished (s : State) : Host.Outcome State Fault Refusal :=
  let cn := s.args.id
  let c := s.conn cn
  if withinLimit s cn then
    .next (s.setConn cn { c with
      up := true, failed := false, expected := s.args.seq % 2 ^ 32, window := [], answer := none, begun := [],
      landed := if leaseOver s c then 0 else c.landed }).tick
  else .next s.tick

/-! ### Ports (R212, R213, R413) -/

/-- The resends of a frame by Link Level Retry at most (R413). -/
def retryLimit : Nat := 16

/-- A port corrects so many codewords of a frame, and Link Level Retry resends it so many times (R403, R413): counted (R414), and a link event where it was
resent. -/
def countLink (s : State) (p codewords retries : Nat) : State :=
  let n := min retries retryLimit
  let s := if codewords = 0 then s else s.bump (0x400 + 64 * p) codewords
  if n = 0 then s else (s.bump (0x400 + 64 * p + 8) n).logBody 6 p 5 [p, n, p]

/-- `FRAME_RECEIVE` (R212, R213): frame `args.frame` arrives at port `args.id`, with `args.len` codewords corrected and `args.code` resends by Link Level Retry; past
the limit it is dropped (R413). PAUSE and PFC frames, frames longer than 9,216 bytes and other delivery modes are discarded and counted; a frame whose sender
the peer table does not hold is dropped; other semantic operations are refused; what a frame of reliable ordered delivery carries is a message. -/
def execFrameReceive (s : State) : Host.Outcome State Fault Refusal :=
  let p := s.args.id
  let f := s.args.frame
  if !(s.portOf p).up then .next s.tick
  else
    let s := countLink s p s.args.len s.args.code
    if retryLimit < s.args.code then .next s.tick
    else if f.kind = .pause ∨ f.kind = .pfc ∨ f.kind = .otherDelivery ∨ 9216 < f.len then
      .next (s.setPort p { s.portOf p with discarded := (s.portOf p).discarded + 1 }).tick
    else if !s.peers.any fun x => x.addr == f.src.toNat then .next (dropFrame s p f.src.toNat).tick
    else if f.kind = .otherSemantic then
      .next (s.setConn f.conn { s.conn f.conn with answer := some (s.args.seq, 1 + s.pick 8500 % 255, []) }).tick
    else .next s.tick

/-- Moves a connection to a port toward its peer that is up; which of several is free (R413). -/
def moveConn (s : State) (cn : Nat) : State :=
  let c := s.conn cn
  match portsToward s cn with
  | [] => s
  | p :: t => s.setConn cn { c with port := (p :: t).getD (s.pickAt 8600 cn 0 % (t.length + 1)) p, failed := false }

/-- `PORT_LINK_DOWN` (R413): port `args.id` loses its link; its connections move to another port toward the same peer. -/
def execPortLinkDown (s : State) : Host.Outcome State Fault Refusal :=
  let p := s.args.id
  if (s.portOf p).up then
    let s := (s.setPort p { s.portOf p with up := false }).bump (0x400 + 64 * p + 24) 1
    let moved := (s.conns.filter fun c => c.2.port == p).map (·.1)
    let s := moved.foldl moveConn s
    .next (s.logBody 6 p 5 ([p, 0] ++ (moved.map fun cn => (s.conn cn).port).eraseDups)).tick
  else .next s.tick

/-- `PORT_LINK_UP` (R413): port `args.id` gains its link, once level S has started; a connection toward its peers whose own port is down can use it. -/
def execPortLinkUp (s : State) : Host.Outcome State Fault Refusal :=
  let p := s.args.id
  if !(s.portOf p).up && decide (p < 4) && (s.boot == .running || (s.boot == .recovery && p == 0)) then
    let s := (s.setPort p { s.portOf p with up := true }).logBody 6 p 5 [p, 0, p]
    .next (((s.conns.filter fun c => !(s.portOf c.2.port).up || c.2.failed).map (·.1)).foldl moveConn s).tick
  else .next s.tick

/-! ### On-package links (R412) -/

/-- A link without errors. -/
def Link.initial : Link := ⟨0, 0, false⟩
/-- A link. -/
def State.linkOf (s : State) (i : Nat) : Link := sget Link.initial s.links i
/-- Replaces a link. -/
def State.setLink (s : State) (i : Nat) (l : Link) : State := { s with links := sput Link.initial s.links i l }

/-- `FLIT_CRC_REPLAY` (R412): a flit of link `args.id` of die `args.off` fails its CRC and is replayed; `args.flag` says that flits have
passed since the last replay. After 64 in a row the link retrains, and its traffic waits. -/
def execFlitCrcReplay (s : State) : Host.Outcome State Fault Refusal :=
  let l := s.linkOf s.args.id
  if l.training then .next s.tick
  else
    let run := (if s.args.flag then 0 else l.consecutive) + 1
    .next (countCorrected (s.setLink s.args.id ⟨l.replays + 1, run, decide (64 ≤ run)⟩) (min 2 s.args.off) 4 1 3 (s.args.id % 4096)).tick

/-- `LINK_RETRAIN` (R412): link `args.id` has retrained where `args.flag` says so; a link that fails to is a fatal package error. -/
def execLinkRetrain (s : State) : Host.Outcome State Fault Refusal :=
  let l := s.linkOf s.args.id
  if !l.training then .next s.tick
  else if s.args.flag then .next ((s.setLink s.args.id { l with consecutive := 0, training := false }).logBody 3 (s.args.id % 4096) 5 [s.args.id, l.consecutive]).tick
  else .next (fatalPackage (s.logBody 3 (s.args.id % 4096) 5 [s.args.id, l.consecutive])).tick

end Sys2Proof.Machine
end

