-- ==== Sys2Proof/Machine/Hub.lean ====
section
/-! DEFINITION. The L2, the controllers and the hub's own steps: fills, write-backs and the write queues (R187, R192, R208 to R210, R280,
R281), changes of split (R206), prefetches (R360), errors (R403 to R408), the Cellar (R381, R414 to R417), the arbiter (R15, R382), the
recorder's appends (R383), attestation (R386, R387), boot and reset (R384, R385, R388). -/

namespace Sys2Proof.Machine
open Sys2Proof

/-! ### Cellar stacks (R381, R415) -/

/-- STATE by SPARE (Table 25.8); a failed stack stays failed. -/
def Cellar.settled (c : Cellar) : Cellar :=
  { c with state := if c.state = 3 then 3 else if c.spare = 0 then 2 else if c.spare < 100 then 1 else 0 }

/-- `CELLAR_MAINTENANCE` (R415, Table 25.8): stack `args.id` levels wear, relocates data, or retires a block; `args.flag` says that the stack
fails with it. No value changes; the wear, and the spare that a retirement costs, are free (log 29). -/
def execCellarMaintenance (s : State) : Host.Outcome State Fault Refusal :=
  let k := s.args.id
  if 8 ≤ k then .next s.tick
  else .next (changeCellar s k fun c =>
    let c : Cellar := match s.args.act with
      | .wearLevel => { c with wear := c.wear + s.pick 8702 % 65536, wearmax := max c.wearmax (c.wear + s.pick 8702 % 65536) + s.pick 8703 % 65536 }
      | .relocate _ => { c with reloc := c.reloc + 1 }
      | .retireBlock => { c with badblk := c.badblk + 1, spare := c.spare - s.pick 8704 % (c.spare + 1) }
    if s.args.flag then { c with state := 3 } else c.settled).tick

/-- A slice of the programming cap in nanoseconds: 1 h (R381). -/
def sliceTime : Nat := 3600000000000

/-- `PROGRAMMING_SLICE_END` (R381): the 1 h slice of stack `args.id` ends, once its hour is over; what waits beyond the cap may proceed. -/
def execProgrammingSliceEnd (s : State) : Host.Outcome State Fault Refusal :=
  let c := s.cellar s.args.id
  if 8 ≤ s.args.id ∨ s.time < c.sliceStart + sliceTime then .next s.tick
  else .next (s.setCellar s.args.id { c with slice := 0, sliceStart := s.time }).tick

/-! ### Fills and write-backs -/

/-- Whether the controller may read a page now: it is resident, in a legal format, and not in reform (R183, R211, R358). -/
def pageReadable (e : ObjEnt) (pe : PageEnt) : Bool := e.valid && pe.resident e.page && pe.pairOk && !pe.rf

/-- Whether a byte of the sector of an offset cannot be read from the Cellar. -/
def sectorFails (s : State) (obj : Nat) (e : ObjEnt) (pe : PageEnt) (off : Nat) : Bool :=
  (List.range 128).any fun i => flashBad s obj e pe (off / 128 * 128 + i)

/-- `SECTOR_FILL` (R187): the sector of object `args.obj` that holds offset `args.off` comes into its home slice; a controller that has spent
its count holds it (R15). -/
def execSectorFill (s : State) : Host.Outcome State Fault Refusal :=
  let obj := s.args.obj
  let off := s.args.off
  let e := s.objEnt obj
  let pe := s.pageEnt e off
  if s.isTable obj && decide (off < e.size) && pageReadable e pe && !sectorFails s obj e pe off then
    .next (if s.spent (deviceOf pe.base) then s.holdReq ⟨deviceOf pe.base, obj, off / 128 * 128, false⟩ else fillSector s obj e pe off).tick
  else .next s.tick

/-- `HARDWARE_PREFETCH` (R360): core `args.core`'s context causes a prefetch of the sector of object `args.obj` at `args.off`. It passes the
port checks, or it is dropped and counted; it sets neither AC nor DI. -/
def execHardwarePrefetch (s : State) : Host.Outcome State Fault Refusal :=
  let core := s.args.core
  let obj := s.args.obj
  let off := s.args.off
  match s.ctxOf core with
  | none => .next s.tick
  | some c =>
    if isLocal obj then .next s.tick
    else
      let e := s.seenObj obj 0
      let pe := pageFor s obj e (off / e.page * e.page) 0
      match portCheck s (whoOf core c) none obj off 1 false 0 with
      | .ok () =>
        if 2 ≤ pe.tier ∨ sectorFails s obj e pe off then .next (countDrop s core).tick
        else if s.spent (deviceOf pe.base) then .next s.tick
        else .next (fillSector s obj e pe off).tick
      | .error _ => .next (countDrop s core).tick

/-- `L2_WRITEBACK` (R192, R210, R281): the line of object `args.obj` that holds offset `args.off`; `args.flag` says that it leaves the L2, as one
that makes room for another does. One that must wait stays dirty and readable. The dirty bytes of a line that its page has left behind at
another home, or that its page's formats cannot take, are gone (R359; log 81). -/
def execL2Writeback (s : State) : Host.Outcome State Fault Refusal :=
  let obj := s.args.obj
  let off := s.args.off
  let e := s.objEnt obj
  let pe := s.pageEnt e off
  match s.lines.find? fun l => l.obj == obj && l.line == off / 256 && (l.home == pe.home obj off || decide (s.args.code = l.home + 1)) with
  | none => .next s.tick
  | some l =>
    let out := fun t : State => if s.args.flag || l.place == .leaving then t.dropLine l else t
    if l.dirty = 0 then .next (out s).tick
    else if !(e.valid && pe.resident e.page) then .next s.tick
    else if !lineGoes e pe l then .next (s.dropLine l).tick
    else
      let r := sendLine s e pe l
      .next (if r.2 then out r.1 else r.1).tick

/-- `WRITE_QUEUE_DRAIN` (R280, R281): pseudo-channel `args.off` of stack `args.id`. At 48 entries the oldest are applied until 16 are left; with
`args.flag`, a read of `args.len` bytes at `args.val` is held, and the entries that it meets are applied first. -/
def execWriteQueueDrain (s : State) : Host.Outcome State Fault Refusal :=
  let mine := fun q : Burst => q.stack == s.args.id && q.chan == s.args.off
  if s.args.flag then .next (s.drainIf fun q => mine q && meets (s.args.val.toNat, s.args.len) (q.addr, 64)).tick
  else if 48 ≤ s.queueLength s.args.id s.args.off then .next (s.drainBatch s.args.id s.args.off).tick
  else .next s.tick

/-! ### Changes of split (R206) -/

/-- The lines at a vault's slice that stand in the ways a change to a share releases. -/
def releasedLines (s : State) (v tgt : Nat) : List Line :=
  s.lines.filter fun l => l.home == v && (match l.place with | .way n => decide (2 * tgt ≤ n) | _ => false)

/-- A line leaves its way (R206): written back where it is dirty, then invalidated, with its watches woken (R322), unless its write-back
must wait. One whose page is not resident goes on waiting outside the ways. With whether it has left. -/
def expelLine (s : State) (l : Line) : State × Bool :=
  let e := s.objEnt l.obj
  let pe := s.pageEnt e (256 * l.line)
  let gone := fun t : State => wakeSpan (t.dropLine l) l.obj (256 * l.line) 256
  if l.dirty = 0 then (gone s, true)
  else if !(e.valid && pe.resident e.page) then (s.setLine { l with place := .leaving }, true)
  else if !lineGoes e pe l then (gone s, true)
  else
    let r := sendLine s e pe l
    if r.2 then (gone r.1, true) else r

/-- The lines of a list that may leave do; whether all have. A line that a merge has made invalid before its turn is as it stands then. -/
def expelAll (s : State) (ls : List Line) : State × Bool :=
  ls.foldl (fun r l => match r.1.lineOf l.obj l.line l.home with
    | none => r
    | some l =>
      let x := expelLine r.1 l
      (x.1, r.2 && x.2)) (s, true)

/-- `PHASE_SHRINK_COMPLETE` (R206): vault `args.id` gives ways to its room: they are written back, invalidated and cleared, then CUR := TGT and
BUSY := 0. While a write-back must wait, BUSY stays (R210, R281). -/
def execPhaseShrinkComplete (s : State) : Host.Outcome State Fault Refusal :=
  let v := s.args.id
  let p := s.phaseOf v
  if p.busy ∧ p.tgt < p.cur then
    let r := expelAll s (releasedLines s v p.tgt)
    if r.2 then
      let size := 0x380000 - 0x40000 * p.cur
      let t := r.1.clearSpan (spaceAddr (0xFF9000 + v) size) (0x40000 * (p.cur - p.tgt))
      .next ({ t with phases := sput Phase.initial t.phases v ⟨p.tgt, p.tgt, false⟩ } : State).tick
    else .next r.1.tick
  else .next s.tick

/-- `PHASE_GROW_COMPLETE` (R206): the room bytes of vault `args.id` at and above ROOMSZ have become ways of the L2, and BUSY := 0. -/
def execPhaseGrowComplete (s : State) : Host.Outcome State Fault Refusal :=
  let v := s.args.id
  let p := s.phaseOf v
  if p.busy ∧ p.tgt = p.cur then
    let size := 0x380000 - 0x40000 * p.cur
    let t := s.clearSpan (spaceAddr (0xFF9000 + v) size) (0x380000 - size)
    .next ({ t with phases := sput Phase.initial t.phases v ⟨p.tgt, p.tgt, false⟩ } : State).tick
  else .next s.tick

/-! ### Errors (R403 to R408) -/

/-- `SRAM_SCRUB` (R403): a full scrub of the SRAMs of class `args.code` of die `args.id` (2 is the hub) has corrected `args.len` errors. -/
def execSramScrub (s : State) : Host.Outcome State Fault Refusal :=
  .next (countCorrected s (min 2 s.args.id) (min 7 s.args.code) s.args.len (if s.args.id < 2 then 0 else 3) (s.pick 8300 % 4096)).tick

/-- `HBM_SCRUB` (R403): a full scrub of HBM stack `args.id` has corrected `args.len` errors. -/
def execHbmScrub (s : State) : Host.Outcome State Fault Refusal := .next (countCorrected s (stackDie s.args.id) 5 s.args.len 4 (s.args.id % 8)).tick

/-- An uncorrectable error is counted in its class and recorded, with the row of Table 25.2 that acts and where it is (R404, R414, R418). -/
def countError (s : State) (die cls unit index row : Nat) (at' : List Nat) : State :=
  (s.bump (128 * die + 16 * cls + 8) 1).logBody unit index 2 ([cls, row] ++ at')

/-- An uncorrectable error in a core's own state of a class (Table 25.2, R405, R414): its context's segment is aborted, or the context is killed. The third
within 1 s asks for a self-test. -/
def coreError (s : State) (core cls : Nat) : State :=
  let replays := (s.ctxOf core).any Ctx.abortable
  let s := countError s (dieOf core) cls (unitOf core) (unitIndex core) (if replays then 1 else 2) [core]
  let s := match s.ctxOf core with
    | none => s
    | some c =>
      if c.abortable then (abortSegment s core).bump countReplays 1
      else if c.doomed.isSome then s
      else (doom s core kError).bump countKills 1
  s.modCore core fun x =>
    let l := (s.time :: x.errTimes.filter fun t => decide (s.time < t + 1000000000)).take 3
    { x with errTimes := l, selfTest := x.selfTest || (decide (core < 288) && l.length == 3) }

/-- The bits of retired cores, 64 to a word of the health page (Table 25.7). -/
def retiredAt (core : Nat) : Nat := 0x180 + 8 * (core / 64)

/-- A core's bit is set in the health page (R405, R414). -/
def showRetired (s : State) (core : Nat) : State :=
  let v := sget 0 s.health (retiredAt core) ||| ((1 : Word) <<< (core % 64))
  ({ s with health := sput 0 s.health (retiredAt core) v } : State).hubWrite (s.ptabBase + 0xE8000 + retiredAt core) 8 v.toNat

/-- `CORE_SELF_TEST` (R405): core `args.core` has run its self-test; one that fails retires the core. -/
def execCoreSelfTest (s : State) : Host.Outcome State Fault Refusal :=
  let core := s.args.core
  if !(s.core core).selfTest then .next s.tick
  else if s.args.flag then .next (s.modCore core fun x => { x with selfTest := false, errTimes := [] }).tick
  else
    let s := s.modCore core fun x => { x with selfTest := false, retired := true }
    .next ((showRetired s core).logBody (unitOf core) (unitIndex core) 7 [2, core]).tick

/-- Whether the page of `args.obj` at `args.off` is resident on a stack and holds a physical address in its stored image. -/
def pageHolds (s : State) (obj off pa : Nat) : Bool :=
  let e := s.objEnt obj
  let pe := s.pageEnt e off
  s.isTable obj && e.valid && pe.resident e.page && decide (pe.base ≤ pa) && decide (pa < pe.base + pe.image e.page)

/-- Every page of every valid object, as object and offset. -/
def State.allPages (s : State) : List (Nat × Nat) :=
  (List.range s.objCount).flatMap fun obj =>
    let e := s.objEnt obj
    if s.isTable obj && e.valid then (pagesOf e.page 0 e.size).map fun pg => (obj, pg) else []

/-- Whether a page is compressed, resident, and covered in part or whole by the metadata entry of a physical address: 512 KiB (R197). -/
def metaCovers (s : State) (pa : Nat) (x : Nat × Nat) : Bool :=
  let e := s.objEnt x.1
  let pe := s.pageEnt e x.2
  pe.cmp && pe.resident e.page && meets (pe.base, e.page) (pa / 2 ^ 19 * 2 ^ 19, 2 ^ 19)

/-- The records that share a watch entry with a waiting record (R322): those that watch the same word. -/
def entryMates (s : State) (ix : Nat) : List Waiting :=
  match (s.waiting[ix]?).map Waiting.on with
  | some (.word n _ _ _ obj off _ _) => s.waiting.filter fun w => match w.on with
    | .word k _ _ _ o x _ _ => k == n && o == obj && x == off
    | _ => false
  | _ => []

/-- An error in a Drover's queue entry (Table 25.2): a predicted request is dropped, its handle no longer fetched; a demand request is sent again. -/
def droverError (s : State) (die ix : Nat) : State :=
  let q := s.drover die
  match q[ix]? with
  | none => s
  | some r =>
    if r.demand then s.setDrover die (q.map fun x => if x = r then { x with sent := false } else x)
    else countDrop ((s.setDrover die (q.filter fun x => x != r)).unfetch r.handle) r.core

/-- A region of a local space is lost (R407). -/
def loseRegion (s : State) (sp o : Nat) : State :=
  let s := { s with lost := sput 0 s.lost sp (sget 0 s.lost sp ||| ((1 : BitVec 56) <<< (o / 65536))) }
  sweepWatches ((s.bump countLostRegions 1).logBody 3 0 7 [1, sp, o / 65536])

/-- The page, or the region of a local space, that holds a frame is lost (Table 25.2, R407). -/
def loseFrame (s : State) (obj off : Nat) : State := if isLocal obj then loseRegion s (spaceNo obj) off else markLost s obj off

/-- A walk that met an error in a table takes the lost-page fault (Table 25.2): a core's, where `args.code` is 0; a responder's, whose message `args.seq` is
refused, where it is 1; a Drover's, whose fetch fails, where it is 2, `args.flag` for the destination. `x` is the core, the connection or the handle. -/
def walkFault (s : State) (x : Nat) : State :=
  if s.args.code = 0 then fatalIn s x s.args.slot.idx ⟨kLostPage, 0, some (s.args.id, s.args.len), 0, false⟩
  else if s.args.code = 1 then
    let a := s.args
    { receive { s with args := { a with id := x } } false (some [reasonOf kLostPage]) .none [] with args := a }
  else match sentRequest s x with
    | none => s
    | some r => if r.demand then failHandle s x (if s.args.flag then 2 else 4) else dropFetch s r

/-- `UNCORRECTABLE_ERROR` (R404, Table 25.2): `args.loc` is where; of a core's own state `args.code` is the class. For stored bytes and tables, `args.obj` and
`args.off` name the page that holds them; for a table, the walk was for object `args.id` at `args.len`. -/
def execUncorrectableError (s : State) : Host.Outcome State Fault Refusal :=
  let obj := s.args.obj
  let off := s.args.off
  match s.args.loc with
  | .core c => .next (coreError s c (min 1 s.args.code)).tick
  | .space sp o =>
    let die := if sp < 288 then dieOf sp else (sp - 288) / 144
    .next (loseRegion (countError s die (if sp < 288 then 2 else 3) 0 (sp % 288) 3 [spaceObj sp, o]) sp o).tick
  | .l2 o ln sec =>
    let pe := s.pageEnt (s.objEnt o) (256 * ln)
    match s.lineAt o pe (256 * ln) with
    | none => .next s.tick
    | some l =>
      let dirty := l.dirty.getLsbD (sec % 2)
      let t := countError s (l.home / 144) 3 3 l.home (if dirty then 5 else 4) [o, 256 * ln + 128 * (sec % 2)]
      if dirty then .next (markLost t o (256 * ln)).tick
      else .next (t.setLine { l with valid := l.valid &&& ~~~sectorMask (128 * (sec % 2)) }).tick
  | .hbm pa =>
    let t := countError s (stackDie (deviceOf pa)) 5 4 (deviceOf pa) 5 [pa]
    .next (if pageHolds s obj off pa && decide (deviceOf pa < 8) then markLost t obj off else t).tick
  | .table pa c =>
    let t := countError s (stackDie (deviceOf pa)) 5 4 (deviceOf pa) 6 [pa]
    .next (walkFault (if pageHolds s obj off pa then markLost t obj off else t) c).tick
  | .compression o x =>
    let e := s.objEnt o
    let pe := s.pageEnt e x
    if !(s.isTable o && pe.cmp && pe.resident e.page) then .next s.tick
    else
      let t := countError s (stackDie (deviceOf pe.base)) 5 4 (deviceOf pe.base) 7 [o, x]
      .next ((s.allPages.filter (metaCovers s (pe.base + x % e.page))).foldl (fun t p => markLost t p.1 p.2) t).tick
  | .saveArea c =>
    match takeRecord s c with
    | some (t, _, b) =>
      let r := b.record
      if r.srv then
        .next (rejectRecord (loseFrame (countError t (dieOf c) 5 0 c 8 [r.frameObj, r.frameOff]) r.frameObj r.frameOff) c b [.reads]).tick
      else .next s.tick
    | none => .next s.tick
  | .cellar pa =>
    if deviceOf pa < 8 then .next s.tick
    else .next (changeCellar (s.logBody 5 (deviceOf pa - 8) 2 [5, 9, pa]) (deviceOf pa - 8) fun c =>
      let f := pa / flashPage
      { c with uncorr := c.uncorr + 1, failed := if c.failed.contains f then c.failed else c.failed ++ [f], mended := sput 0 c.mended f 0 }).tick
  | .watch ix => .next ((entryMates s ix).foldl (fun s w => wakeRecord s w 4 none) (countError s 2 6 3 0 10 [ix])).tick
  | .drover die ix => .next (droverError (countError s 2 6 3 0 11 [die, ix]) die ix).tick
  | .hub => .next (fatalPackage (countError s 2 6 3 0 12 [])).tick

/-- `JUNCTION_OVERTEMP` (R419): a junction 10 °C above TJMAX. -/
def execJunctionOvertemp (s : State) : Host.Outcome State Fault Refusal := .next (fatalPackage s).tick

/-- A management or arbiter event arrives for the housekeeper, to be delivered to it (R374). -/
def tellHousekeeper (s : State) : State := { s with hubEvents := s.hubEvents + 1 }

/-! ### The policy block and the arbiter (R15, R381 to R383) -/

/-- The peak of a stack in tenths of a watt: the nominal allocation of Table 1.5 (log 30). -/
def stackPeak (dev : Nat) : Nat := if dev < 8 then 400 else 300
/-- The peak bytes of a stack in 1 ms: the Cellar's is its read rate (Table 17.8). -/
def stackRate (dev : Nat) : Nat := if dev < 8 then 3200000000 else 1200000000
/-- The peak bytes that a Cellar stack programs in 1 ms (Table 17.8). -/
def cellarWriteRate : Nat := 32000000

/-- The ceilings of an interval (R382): base ceiling, `tsteps`, `die`. -/
def ceilings (s : State) (hot cool : Bool) : Nat × Nat × Nat :=
  let pkgw := s.num s.policy 2
  let diew := s.num (s.policy + 2) 2
  let base := min 2800 (if pkgw = 0 then 2800 else pkgw)
  let steps := if hot then s.arbiter.tsteps + 1 else if cool then s.arbiter.tsteps - 1 else s.arbiter.tsteps
  -- the sum of the stacks' floors, 8 × 10 W and 8 × 7.5 W, and 250 W for each compute die
  (base, min steps ((base - 640) / 140), min 1150 (if diew = 0 then 1150 else diew))

/-- Watts in excess go to consumers below their limit with demand, in proportion to it; what a limit cuts goes to the others (R15). The
consumers: share, limit, demand. -/
def passOn : Nat → Nat → List (Nat × Nat × Nat) → List Nat
  | 0, _, l => l.map (·.1)
  | k + 1, rest, l =>
    let want := fun x : Nat × Nat × Nat => if x.1 < x.2.1 then x.2.2 else 0
    let total := (l.map want).foldl (· + ·) 0
    let add := fun x : Nat × Nat × Nat => min (x.2.1 - x.1) (rest * want x / max 1 total)
    let given := (l.map add).foldl (· + ·) 0
    if given = 0 then l.map (·.1) else passOn k (rest - given) (l.map fun x => (x.1 + add x, x.2))

/-- The stacks' floors under a ceiling in tenths of a watt: a quarter of each peak (R15); where the ceiling is below their sum, each in
proportion (log 30). -/
def floors (ceil : Nat) : List Nat := (List.range 16).map fun k => if ceil < 1400 then stackPeak k / 4 * ceil / 1400 else stackPeak k / 4

/-- The shares of R15, in tenths of a watt, for dies 0 and 1 and the stacks: floors, then up to 1,000 W for each die, then what is left by
demand. How two dies share what does not suffice for both is free (log 30). -/
def shares (s : State) (ceil die : Nat) (demand : List Nat) : List Nat :=
  let fl := floors (10 * ceil)
  let left := 10 * ceil - fl.foldl (· + ·) 0
  let lim := 10 * min 1000 die
  let hi := min lim left
  let lo := left - hi
  let d0 := if 2 * lim ≤ left then lim else lo + s.pick 8900 % (hi + 1 - lo)
  let d1 := if 2 * lim ≤ left then lim else left - d0
  passOn 18 (left - d0 - d1) ((d0 :: d1 :: fl).zipIdx.map fun x =>
    (x.1, if x.2 < 2 then 10 * die else stackPeak (x.2 - 2), demand.getD x.2 0))

/-- A request that a controller has held is served: the fill, or the line's write-back (R309). -/
def serveReq (s : State) (r : HeldReq) : State :=
  let e := s.objEnt r.obj
  let pe := s.pageEnt e r.off
  if deviceOf pe.base ≠ r.dev ∨ !pageReadable e pe then s
  else if r.write then
    match s.lineAt r.obj pe r.off with
    | some l => if l.dirty != 0 && lineGoes e pe l then (sendLine s e pe l).1 else s
    | none => s
  else if sectorFails s r.obj e pe r.off then s else fillSector s r.obj e pe r.off

/-- The requests that controllers have held are served in the order in which they were held, until a controller has spent its count (R309). -/
def serveHeld : List HeldReq → State → State
  | [], s => s
  | r :: t, s => serveHeld t (if s.spent r.dev then s.holdReq r else serveReq s r)

/-- `ARBITER_INTERVAL` (R15, R309, R382): a 1 ms interval begins; `args.flag`: a junction is above TJMAX; `args.code` not 0: every junction is at
or below TJMAX − 3 °C; `args.nats`: the demand of the dies and stacks. Each controller gets its count of bytes, never less than Table 17.8
gives, and serves what it has held. A change of a ceiling is an event for the housekeeper (R374), and so is another interval where `args.seq` says so
(log 93). -/
def execArbiterInterval (s : State) : Host.Outcome State Fault Refusal :=
  let (base, steps, die) := ceilings s s.args.flag (s.args.code != 0)
  let ceil := base - 140 * steps
  let al : List Nat := shares s ceil die s.args.nats
  let changed := ceil != s.arbiter.ceil || die != s.arbiter.die
  let count := fun (rate : Nat) (x : Nat × Nat) => max (rate / 4) (rate * x.1 / stackPeak x.2)
  let perStack := (al.drop 2).zipIdx
  let held := s.arbiter.held
  let s := { s with arbiter := ⟨steps, ceil, die, al, perStack.map fun x => count (stackRate x.2) x, (perStack.drop 8).map (count cellarWriteRate), []⟩ }
  let s := serveHeld held s
  let s := if changed then s.logBody 7 0 4 [ceil, die, steps] else s
  .next (if changed ∨ s.args.seq ≠ 0 then tellHousekeeper s else s).tick

/-- `RECORDER_APPEND` (R383, R418): the hub finds AV, appends the 31 bytes of APPEND as two entries, and clears AV. -/
def execRecorderAppend (s : State) : Host.Outcome State Fault Refusal :=
  let a := s.policy
  if (s.byte (a + 63)).getLsbD 0 then
    .next (((s.log 3 0 0x7E 0 (s.num (a + 32) 16)).log 3 0 0x7F 0 (s.num (a + 48) 15)).hubWrite (a + 63) 1 0).tick
  else .next s.tick

/-! ### Boot (R384, R385) -/

/-- The number of the fuse that holds the ROM's digest. -/
def romFuse : Nat := 0
/-- The number of the fuse that holds the vendor key's digest (R385). -/
def keyFuse : Nat := 1
/-- The fused values of Table 23.1 (R387): the package ceiling and a die's allocation in watts, TJMAX in degrees, the bytes programmed in 24 h. -/
def fusedValues : List Nat := [2800, 1150, 105, 2 ^ 41]

/-- A field of an image's header. -/
def imageField (l : List Byte) (o n : Nat) : Nat := ofBytes ((l.drop o).take n)
/-- The bytes of the signature after an image's header: none where no signature that R385 admits stands there. -/
def signatureLength (l : List Byte) : Nat := (hssLength ((l.drop 64).take hssLongest)).getD 0
/-- The signature of an image. -/
def imageSignature (l : List Byte) : List Byte := (l.drop 64).take (signatureLength l)
/-- The body of an image. -/
def imageBody (l : List Byte) : List Byte := l.drop (64 + signatureLength l)

/-- The image of a KIND in the boot region of a Cellar stack: the header, the signature and the body (Table 23.4). -/
def imageAt (s : State) (k kind : Nat) : List Byte :=
  let a := 2 ^ 56 * (8 + k) + Config.bootRegion k kind
  s.bytes a (64 + signatureLength (s.bytes a (64 + hssLongest)) + s.num (a + 12) 4)

/-- Whether an image of a KIND is accepted (R385, Table 23.4): the signature over the header verifies under the fused vendor key, HASH is the body's SHA-256, and
SVN is at least the fused minimum. -/
def imageOk (s : State) (kind : Nat) (l : List Byte) : Bool :=
  imageField l 0 4 == 0x4D494B4E && imageField l 4 1 == kind && decide (kind ≤ 2) && imageField l 5 3 == 0 && imageField l 48 16 == 0
    && (imageBody l).length == imageField l 12 4 && digest Config.vendorKey == Config.fuse keyFuse
    && hssVerifies Config.vendorKey (l.take 64) (imageSignature l) && imageField l 16 32 == digest (imageBody l)
    && decide (sget 0 s.svn kind ≤ imageField l 8 4)

/-- The peer table of a configuration (Table 23.1): up to 1,024 peers. -/
def peersOf (cfg : List Byte) : List Peer :=
  let f := Config.setting cfg
  (List.range (min 1024 (f 0))).map fun i =>
    let g := fun j => f (4096 + 8 * i + j)
    ⟨g 0, g 1, g 2, g 3, g 4 % 2 == 1, max 1 (min 800 (g 5)), g 6 % 16⟩

/-- The connections of a configuration: up to 16,384 (R213), and for each peer no more than its limit (R381). -/
def connsOf (cfg : List Byte) : Sparse Conn :=
  let f := Config.setting cfg
  (List.range (min 16384 (f 1))).foldl (fun t i =>
    let p := f (65537 + 4 * i)
    if (peersOf cfg)[p]?.any fun x => decide (t.countP (fun c => c.2.peer == p) < x.limit) then
      sput Conn.initial t (f (65536 + 4 * i) % 16384) { Conn.initial with up := true, peer := p, port := f (65538 + 4 * i) % 4 }
    else t) []

/-- A firmware context that starts (R384 steps 4 and 5), at an entry that its image or the configuration gives (log 7). -/
def startFirmware (entry : Nat → Nat) (s : State) (core : Nat) : State :=
  s.setCore core { Core.idle core with ctx := some { freshCtx with codeObj := Config.firmwareObject, pc := 32 * (entry core % 2 ^ 35) } }

/-- THE HOUSEKEEPER'S IMAGE RUNS (R384 step 4), whatever it finds the other images to be: from the tables that it brings itself (log 21). -/
def startHousekeeper (s : State) (image : List Byte) : State :=
  let f := Config.setting (imageBody image)
  let s := (Config.bootWrites (imageBody image)).foldl (fun s x => s.poke x.1 (BitVec.ofNat 8 x.2)) s
  startFirmware (fun core => f (2048 + core)) { s with otab := setBits (BitVec.ofNat 64 (f 7)) 60 1 0, attest := { s.attest with images := [digest image] } } 294

/-- The configuration is applied and level S starts (R384 steps 4 and 5): what the housekeeper's image does until then is the image's
(log 21). -/
def applyConfig (s : State) (cfg : List Byte) (images : List (List Byte)) : State :=
  let f := Config.setting cfg
  let s := (Config.bootWrites cfg).foldl (fun s x => s.poke x.1 (BitVec.ofNat 8 x.2)) s
  let s : State := { s with
    peers := peersOf cfg, conns := connsOf cfg, egress := (List.range 4).foldl (fun t p => sput 0 t p (max 1 (min 800 (f (2 + p))))) []
    ports := (List.range 4).foldl (fun t p =>
      sput Port.initial t p { s.portOf p with ipv4 := f (16 + 4 * p) % 2 ^ 32, ipv6 := f (17 + 4 * p) % 2 ^ 128, vlan := f (18 + 4 * p) % 4096
                                              dscp := f (19 + 4 * p) % 64 }) s.ports
    policy := f 6 % 2 ^ 60 / 64 * 64
    otab := setBits (BitVec.ofNat 64 (f 7)) 60 1 0, ptab := setBits (BitVec.ofNat 64 (f 8)) 60 4 0, htab := setBits (BitVec.ofNat 64 (f 9)) 60 4 0
    padtab := setBits (BitVec.ofNat 64 (f 10)) 60 4 0
    -- the fused minima rise where the configuration's commit flag says so
    svn := if f 11 % 2 = 1 then images.foldl (fun t l => sput 0 t (imageField l 4 1) (max (sget 0 t (imageField l 4 1)) (imageField l 8 4))) s.svn
      else s.svn
    attest := { s.attest with images := images.map digest }
    boot := .running }
  let s := (List.range 8).foldl showCellar s.showHealth
  [288, 289, 290, 291, 292, 293, 294].foldl (startFirmware fun core => f (2048 + core)) s

/-- THE BOOT SEQUENCE (R384) after memory is cleared: the housekeeper's image from `cel0`, or its copy on `cel4`; where both fail, a recorder
entry and `eth0` alone. Where a shepherd image or a configuration fails, the housekeeper alone runs. -/
def bootSequence (s : State) : State :=
  match [0, 4].find? fun k => imageOk s 0 (imageAt s k 0) with
  | none => ({ s with boot := .recovery } : State).logOpen 2 0
  | some k =>
    let l := [imageAt s k 0, imageAt s k 1, imageAt s k 2]
    let s := startHousekeeper s (imageAt s k 0)
    if imageOk s 1 (imageAt s k 1) && imageOk s 2 (imageAt s k 2) then applyConfig s (imageBody (imageAt s k 2)) l else s

/-- `RECOVERY_EXCHANGE` (R384): in recovery, with `eth0` up, the image `args.data` is received; where it verifies it is written to the boot
region of stack `args.id`, 0 or 4, once the stack may program it (R381). -/
def execRecoveryExchange (s : State) : Host.Outcome State Fault Refusal :=
  let l := s.args.data
  let kind := imageField l 4 1
  if s.boot = .recovery ∧ (s.portOf 0).up ∧ imageOk s kind l ∧ (s.args.id = 0 ∨ s.args.id = 4) then
    let a := 2 ^ 56 * (8 + s.args.id) + Config.bootRegion s.args.id kind
    .next ((programSpans (s.pokes a l) s.args.id [(a, l.length)]).getD s).tick
  else .next s.tick

/-! ### Reset (R388, Table 23.5) -/

/-- The counts of the health page that a warm reset keeps: those of cores, which it takes out of retirement, are cleared (R405). -/
def keptHealth (l : Sparse Word) : Sparse Word := l.filter fun h => !(decide (0x180 ≤ h.1) && decide (h.1 < 0x1A8))

/-- What every reset keeps and clears: the Cellar, non-volatile memory and fuses stay; everything else is as after a reset, and the reset
is the recorder's next entry. The slices of the programming cap begin with `TIME` again, with what they hold. The model's own fields go on. -/
def resetAll (s : State) (warm : Bool) : State :=
  let r := State.reset
  let s' : State := { r with
    inputs := s.inputs, free := s.free, args := s.args, turn := 294
    mem := s.mem.filter fun x => decide (2 ^ 59 ≤ x.1) && decide (x.1 < 2 ^ 60)
    cellars := (s.cellars.map fun c => (c.1, { c.2 with sliceStart := 0 })).filter fun c => c.2 != Cellar.new, svn := s.svn, bootCount := s.bootCount + 1, attest := { s.attest with report := none, images := [] }
    recorder := if warm then s.recorder else r.recorder
    health := if warm then keptHealth s.health else r.health }
  bootSequence (s'.logBody 3 0 3 [b2n warm, s'.bootCount])

/-- `COLD_RESET` (R388). -/
def execColdReset (s : State) : Host.Outcome State Fault Refusal := .next (resetAll s false).tick

/-- `WARM_RESET` (R388). -/
def execWarmReset (s : State) : Host.Outcome State Fault Refusal := .next (resetAll s true).tick

/-- `HUB_WATCHDOG` (R388, R419): 100 ms after a fatal package error, the hub takes a warm reset. -/
def execHubWatchdog (s : State) : Host.Outcome State Fault Refusal :=
  match s.watchdog with
  | some t => if t ≤ s.time then .next (resetAll (fatalPackage s) true).tick else .next s.tick
  | none => .next s.tick

/-! ### Attestation (R386, R387) -/

/-- The signatures of a lower tree, and the trees of the top (R386). -/
def leaves : Nat := 32768
/-- The top tree's leaves. -/
def tops : Nat := 1024

/-- The report for a nonce (R387), signed with a key's number. -/
def reportFor (s : State) (nonce : List Byte) (key : Nat) : Report :=
  let digests := Config.fuse romFuse :: s.attest.images
  let minima := (List.range 3).map fun k => sget 0 s.svn k
  let fused := fusedValues
  let whole := nonce ++ toBytes 8 s.bootCount ++ (digests.flatMap (toBytes 32)) ++ (minima.flatMap (toBytes 4)) ++ (fused.flatMap (toBytes 8))
    ++ toBytes 8 s.time
  ⟨nonce, s.bootCount, digests, minima, fused, s.time, Config.signature key (digest whole)⟩

/-- `ATTESTATION_REQUEST` (R386, R387): connection `args.id` asks with the nonce `args.data`; `args.flag`: the advanced next leaf is confirmed
in non-volatile memory. Where it is not, the top counter advances and nothing is signed under that tree again. `args.code` not 0: the
peer of the connection has answered the report it received with its own admission. -/
def execAttestationRequest (s : State) : Host.Outcome State Fault Refusal :=
  let cn := s.args.id
  let a := s.attest
  let s := tellHousekeeper s
  if s.args.code ≠ 0 then
    if (s.conn cn).reported && (peerOf s cn).any (·.management) then .next (s.setConn cn { s.conn cn with attested := true }).tick else .next s.tick
  else
    let top := if leaves ≤ a.leaf then a.top + 1 else a.top
    let leaf := if leaves ≤ a.leaf then 0 else a.leaf
    if s.boot ≠ .running ∨ s.args.data.length ≠ 32 then .next s.tick
    else if tops ≤ top then .next (s.logOpen 2 0).tick
    else if s.args.flag then
      let s : State := { s with attest := { a with top := top, leaf := leaf + 1, report := some (reportFor s s.args.data (leaves * top + leaf)) } }
      .next (s.setConn cn { s.conn cn with reported := true }).tick
    else .next ({ s with attest := { a with top := top + 1, leaf := 0 } } : State).tick

end Sys2Proof.Machine
end

