-- ==== Sys2Proof/Machine/Scalar.lean ====
section
/-! DEFINITION. Scalar integer, compare and predicate operations and `stg` (R113 to R124, R132). -/

namespace Sys2Proof.Machine
open Sys2Proof

/-! ### Results (Tables 7.1 to 7.4) -/

/-- A register result of a scalar slot: the register unless `d` = 1, and the ring (R114, R50). -/
def scalarFly (u : IUnit) (c : Ctx) (x : Bool) (d : BitVec 5) (lat : Nat) (v : Word) : Fly :=
  { Fly.nil u.slot c.pos lat with
    dst := if x then none else some (.s d.toNat, .word v (BitVec.allOnes 64))
    ring := .b (.bits v) }

/-- A predicate result: the ring is unchanged (R114). -/
def predFly (u : IUnit) (c : Ctx) (p : BitVec 2) (v : Bool) : Fly :=
  { Fly.nil u.slot c.pos 1 with dst := some (.p p.toNat, .bit v) }

/-- A two-operand integer operation (R114, R116). -/
def int2 (u : IUnit) (x : Bool) (d : BitVec 5) (a b : BitVec 6) (lat : Nat) (f : Word → Word → Word) (c : Ctx) (s : State) :
    Except Stop State :=
  .ok (s.launch (scalarFly u c x d lat (f (readInt s c u.slot a) (readInt s c u.slot b))))

/-- A one-operand integer operation (R117). -/
def int1 (u : IUnit) (x : Bool) (d : BitVec 5) (a : BitVec 6) (f : Word → Word) (c : Ctx) (s : State) : Except Stop State :=
  .ok (s.launch (scalarFly u c x d 1 (f (readInt s c u.slot a))))

/-- A compare or predicate operation (R123, R124). -/
def pred2 (u : IUnit) (p : BitVec 2) (a b : BitVec 6) (f : Word → Word → Bool) (c : Ctx) (s : State) : Except Stop State :=
  .ok (s.launch (predFly u c p (f (readInt s c u.slot a) (readInt s c u.slot b))))

/-- A division (R122): each slot has one divider, so an earlier one has completed, which the interlock sees to. -/
def division (u : IUnit) (x : Bool) (d : BitVec 5) (a b : BitVec 6) (f : Word → Word → Word) (c : Ctx) (s : State) : Except Stop State :=
  .ok (s.launch
    { scalarFly u c x d 1 (f (readInt s c u.slot a) (readInt s c u.slot b)) with var := true, divider := true })

/-- `div` (Table 6.6): truncated toward zero. -/
def divOf (a b : Word) : Word := if b = 0 then BitVec.allOnes 64 else BitVec.ofInt 64 (a.toInt.tdiv b.toInt)
/-- `divu` (Table 6.6). -/
def divuOf (a b : Word) : Word := if b = 0 then BitVec.allOnes 64 else BitVec.ofNat 64 (a.toNat / b.toNat)
/-- `rem` (Table 6.6). -/
def remOf (a b : Word) : Word := if b = 0 then a else BitVec.ofInt 64 (a.toInt.tmod b.toInt)
/-- `remu` (Table 6.6). -/
def remuOf (a b : Word) : Word := if b = 0 then a else BitVec.ofNat 64 (a.toNat % b.toNat)

/-- Trailing zero bits; 64 for zero (R117). -/
def trailing (a : Word) : Nat := ((List.range 64).find? fun i => a.getLsbD i).getD 64
/-- One bits (R117). -/
def popCount {n : Nat} (a : BitVec n) : Nat := (List.range n).foldl (fun k i => k + b2n (a.getLsbD i)) 0
/-- The eight bytes in reverse order (R117). -/
def swapBytes (a : Word) : Word := BitVec.ofNat 64 (ofBytes (toBytes 8 a.toNat).reverse)
/-- `bext` (R118). -/
def bextOf (a b : Word) : Word := BitVec.ofNat 64 (a.toNat / 2 ^ (b.toNat % 64) % 2 ^ (bits b 8 6 + 1))
/-- `bins` (R118): the field of `a` into `old`. -/
def binsOf (old a b : Word) : Word :=
  let mask := 2 ^ (bits b 8 6 + 1) - 1
  let lo := b.toNat % 64
  (old &&& ~~~(BitVec.ofNat 64 (mask * 2 ^ lo))) ||| BitVec.ofNat 64 (a.toNat % (mask + 1) * 2 ^ lo)
/-- The width that `sext` and `zext` take (R120). -/
def extWidth (b : Word) : Nat := if b.toNat % 64 = 0 then 64 else b.toNat % 64
/-- `sext` (R120). -/
def sextOf (a b : Word) : Word := BitVec.ofInt 64 (signed (extWidth b) a.toNat)
/-- `zext` (R120). -/
def zextOf (a b : Word) : Word := BitVec.ofNat 64 (a.toNat % 2 ^ extWidth b)

/-! ### Operations -/

/-- `add` (R116). -/
def execAdd (u : IUnit) (x : Bool) (d : BitVec 5) (a b : BitVec 6) (s : State) : Host.Outcome State Fault Refusal :=
  slotOp (.add u x d a b) (int2 u x d a b 1 fun a b => a + b) s

/-- `sub` (R116). -/
def execSub (u : IUnit) (x : Bool) (d : BitVec 5) (a b : BitVec 6) (s : State) : Host.Outcome State Fault Refusal :=
  slotOp (.sub u x d a b) (int2 u x d a b 1 fun a b => a - b) s

/-- `mul` (R116). -/
def execMul (u : IUnit) (x : Bool) (d : BitVec 5) (a b : BitVec 6) (s : State) : Host.Outcome State Fault Refusal :=
  slotOp (.mul u x d a b) (int2 u x d a b 3 fun a b => a * b) s

/-- `mulh` (R116). -/
def execMulh (u : IUnit) (x : Bool) (d : BitVec 5) (a b : BitVec 6) (s : State) : Host.Outcome State Fault Refusal :=
  slotOp (.mulh u x d a b) (int2 u x d a b 3 fun a b => BitVec.ofInt 64 (a.toInt * b.toInt / 2 ^ 64)) s

/-- `mulhu` (R116). -/
def execMulhu (u : IUnit) (x : Bool) (d : BitVec 5) (a b : BitVec 6) (s : State) : Host.Outcome State Fault Refusal :=
  slotOp (.mulhu u x d a b) (int2 u x d a b 3 fun a b => BitVec.ofNat 64 (a.toNat * b.toNat / 2 ^ 64)) s

/-- `and` (R116). -/
def execAnd (u : IUnit) (x : Bool) (d : BitVec 5) (a b : BitVec 6) (s : State) : Host.Outcome State Fault Refusal :=
  slotOp (.and u x d a b) (int2 u x d a b 1 fun a b => a &&& b) s

/-- `or` (R116). -/
def execOr (u : IUnit) (x : Bool) (d : BitVec 5) (a b : BitVec 6) (s : State) : Host.Outcome State Fault Refusal :=
  slotOp (.or u x d a b) (int2 u x d a b 1 fun a b => a ||| b) s

/-- `xor` (R116). -/
def execXor (u : IUnit) (x : Bool) (d : BitVec 5) (a b : BitVec 6) (s : State) : Host.Outcome State Fault Refusal :=
  slotOp (.xor u x d a b) (int2 u x d a b 1 fun a b => a ^^^ b) s

/-- `andn` (R116). -/
def execAndn (u : IUnit) (x : Bool) (d : BitVec 5) (a b : BitVec 6) (s : State) : Host.Outcome State Fault Refusal :=
  slotOp (.andn u x d a b) (int2 u x d a b 1 fun a b => a &&& ~~~b) s

/-- `orn` (R116). -/
def execOrn (u : IUnit) (x : Bool) (d : BitVec 5) (a b : BitVec 6) (s : State) : Host.Outcome State Fault Refusal :=
  slotOp (.orn u x d a b) (int2 u x d a b 1 fun a b => a ||| ~~~b) s

/-- `xnor` (R116). -/
def execXnor (u : IUnit) (x : Bool) (d : BitVec 5) (a b : BitVec 6) (s : State) : Host.Outcome State Fault Refusal :=
  slotOp (.xnor u x d a b) (int2 u x d a b 1 fun a b => ~~~(a ^^^ b)) s

/-- `shl` (R116). -/
def execShl (u : IUnit) (x : Bool) (d : BitVec 5) (a b : BitVec 6) (s : State) : Host.Outcome State Fault Refusal :=
  slotOp (.shl u x d a b) (int2 u x d a b 1 fun a b => a <<< (b.toNat % 64)) s

/-- `shr` (R116). -/
def execShr (u : IUnit) (x : Bool) (d : BitVec 5) (a b : BitVec 6) (s : State) : Host.Outcome State Fault Refusal :=
  slotOp (.shr u x d a b) (int2 u x d a b 1 fun a b => a >>> (b.toNat % 64)) s

/-- `sar` (R116). -/
def execSar (u : IUnit) (x : Bool) (d : BitVec 5) (a b : BitVec 6) (s : State) : Host.Outcome State Fault Refusal :=
  slotOp (.sar u x d a b) (int2 u x d a b 1 fun a b => a.sshiftRight (b.toNat % 64)) s

/-- `rotr` (R116). -/
def execRotr (u : IUnit) (x : Bool) (d : BitVec 5) (a b : BitVec 6) (s : State) : Host.Outcome State Fault Refusal :=
  slotOp (.rotr u x d a b) (int2 u x d a b 1 fun a b => a.rotateRight (b.toNat % 64)) s

/-- `min` (R116). -/
def execMin (u : IUnit) (x : Bool) (d : BitVec 5) (a b : BitVec 6) (s : State) : Host.Outcome State Fault Refusal :=
  slotOp (.min u x d a b) (int2 u x d a b 1 fun a b => if b.slt a then b else a) s

/-- `max` (R116). -/
def execMax (u : IUnit) (x : Bool) (d : BitVec 5) (a b : BitVec 6) (s : State) : Host.Outcome State Fault Refusal :=
  slotOp (.max u x d a b) (int2 u x d a b 1 fun a b => if a.slt b then b else a) s

/-- `minu` (R116). -/
def execMinu (u : IUnit) (x : Bool) (d : BitVec 5) (a b : BitVec 6) (s : State) : Host.Outcome State Fault Refusal :=
  slotOp (.minu u x d a b) (int2 u x d a b 1 fun a b => if b.ult a then b else a) s

/-- `maxu` (R116). -/
def execMaxu (u : IUnit) (x : Bool) (d : BitVec 5) (a b : BitVec 6) (s : State) : Host.Outcome State Fault Refusal :=
  slotOp (.maxu u x d a b) (int2 u x d a b 1 fun a b => if a.ult b then b else a) s

/-- `bext` (R118). -/
def execBext (u : IUnit) (x : Bool) (d : BitVec 5) (a b : BitVec 6) (s : State) : Host.Outcome State Fault Refusal :=
  slotOp (.bext u x d a b) (int2 u x d a b 1 fun a b => bextOf a b) s

/-- `addS2` (R116). -/
def execAddS2 (u : IUnit) (x : Bool) (d : BitVec 5) (a b : BitVec 6) (s : State) : Host.Outcome State Fault Refusal :=
  slotOp (.addS2 u x d a b) (int2 u x d a b 1 fun a b => a + b <<< 2) s

/-- `addS3` (R116). -/
def execAddS3 (u : IUnit) (x : Bool) (d : BitVec 5) (a b : BitVec 6) (s : State) : Host.Outcome State Fault Refusal :=
  slotOp (.addS3 u x d a b) (int2 u x d a b 1 fun a b => a + b <<< 3) s

/-- `sext` (R120). -/
def execSext (u : IUnit) (x : Bool) (d : BitVec 5) (a b : BitVec 6) (s : State) : Host.Outcome State Fault Refusal :=
  slotOp (.sext u x d a b) (int2 u x d a b 1 fun a b => sextOf a b) s

/-- `zext` (R120). -/
def execZext (u : IUnit) (x : Bool) (d : BitVec 5) (a b : BitVec 6) (s : State) : Host.Outcome State Fault Refusal :=
  slotOp (.zext u x d a b) (int2 u x d a b 1 fun a b => zextOf a b) s

/-- `litHi` (R121). -/
def execLitHi (u : IUnit) (x : Bool) (d : BitVec 5) (a b : BitVec 6) (s : State) : Host.Outcome State Fault Refusal :=
  slotOp (.litHi u x d a b) (int2 u x d a b 1 fun a b => a <<< 24 ||| (b &&& 0xFFFFFF)) s

/-- `div` (R122, Table 6.6). -/
def execDiv (u : IUnit) (x : Bool) (d : BitVec 5) (a b : BitVec 6) (s : State) : Host.Outcome State Fault Refusal :=
  slotOp (.div u x d a b) (division u x d a b divOf) s

/-- `divu` (R122, Table 6.6). -/
def execDivu (u : IUnit) (x : Bool) (d : BitVec 5) (a b : BitVec 6) (s : State) : Host.Outcome State Fault Refusal :=
  slotOp (.divu u x d a b) (division u x d a b divuOf) s

/-- `rem` (R122, Table 6.6). -/
def execRem (u : IUnit) (x : Bool) (d : BitVec 5) (a b : BitVec 6) (s : State) : Host.Outcome State Fault Refusal :=
  slotOp (.rem u x d a b) (division u x d a b remOf) s

/-- `remu` (R122, Table 6.6). -/
def execRemu (u : IUnit) (x : Bool) (d : BitVec 5) (a b : BitVec 6) (s : State) : Host.Outcome State Fault Refusal :=
  slotOp (.remu u x d a b) (division u x d a b remuOf) s

/-- `clz` (R117). -/
def execClz (u : IUnit) (x : Bool) (d : BitVec 5) (a : BitVec 6) (s : State) : Host.Outcome State Fault Refusal :=
  slotOp (.clz u x d a) (int1 u x d a fun a => BitVec.ofNat 64 (64 - bitLen a.toNat)) s

/-- `ctz` (R117). -/
def execCtz (u : IUnit) (x : Bool) (d : BitVec 5) (a : BitVec 6) (s : State) : Host.Outcome State Fault Refusal :=
  slotOp (.ctz u x d a) (int1 u x d a fun a => BitVec.ofNat 64 (trailing a)) s

/-- `popc` (R117). -/
def execPopc (u : IUnit) (x : Bool) (d : BitVec 5) (a : BitVec 6) (s : State) : Host.Outcome State Fault Refusal :=
  slotOp (.popc u x d a) (int1 u x d a fun a => BitVec.ofNat 64 (popCount a)) s

/-- `bswap` (R117). -/
def execBswap (u : IUnit) (x : Bool) (d : BitVec 5) (a : BitVec 6) (s : State) : Host.Outcome State Fault Refusal :=
  slotOp (.bswap u x d a) (int1 u x d a fun a => swapBytes a) s

/-- `mov` (R117). -/
def execMov (u : IUnit) (x : Bool) (d : BitVec 5) (a : BitVec 6) (s : State) : Host.Outcome State Fault Refusal :=
  slotOp (.mov u x d a) (int1 u x d a fun a => a) s

/-- `bins` (R118, R119): the destination is read like a source. -/
def execBins (u : IUnit) (d : BitVec 5) (a b : BitVec 6) (s : State) : Host.Outcome State Fault Refusal :=
  slotOp (.bins u d a b) (fun c s => int2 u false d a b 1 (binsOf (readS s c u.slot d.toNat)) c s) s

/-- `cmpEq` (R123). -/
def execCmpEq (u : IUnit) (p : BitVec 2) (a b : BitVec 6) (s : State) : Host.Outcome State Fault Refusal :=
  slotOp (.cmpEq u p a b) (pred2 u p a b fun a b => a == b) s

/-- `cmpNe` (R123). -/
def execCmpNe (u : IUnit) (p : BitVec 2) (a b : BitVec 6) (s : State) : Host.Outcome State Fault Refusal :=
  slotOp (.cmpNe u p a b) (pred2 u p a b fun a b => a != b) s

/-- `cmpLt` (R123). -/
def execCmpLt (u : IUnit) (p : BitVec 2) (a b : BitVec 6) (s : State) : Host.Outcome State Fault Refusal :=
  slotOp (.cmpLt u p a b) (pred2 u p a b fun a b => a.slt b) s

/-- `cmpLtu` (R123). -/
def execCmpLtu (u : IUnit) (p : BitVec 2) (a b : BitVec 6) (s : State) : Host.Outcome State Fault Refusal :=
  slotOp (.cmpLtu u p a b) (pred2 u p a b fun a b => a.ult b) s

/-- `cmpLe` (R123). -/
def execCmpLe (u : IUnit) (p : BitVec 2) (a b : BitVec 6) (s : State) : Host.Outcome State Fault Refusal :=
  slotOp (.cmpLe u p a b) (pred2 u p a b fun a b => a.sle b) s

/-- `cmpLeu` (R123). -/
def execCmpLeu (u : IUnit) (p : BitVec 2) (a b : BitVec 6) (s : State) : Host.Outcome State Fault Refusal :=
  slotOp (.cmpLeu u p a b) (pred2 u p a b fun a b => a.ule b) s

/-- `pand` (R124). -/
def execPand (u : IUnit) (p : BitVec 2) (a b : BitVec 6) (s : State) : Host.Outcome State Fault Refusal :=
  slotOp (.pand u p a b) (pred2 u p a b fun a b => a != 0 && b != 0) s

/-- `por` (R124). -/
def execPor (u : IUnit) (p : BitVec 2) (a b : BitVec 6) (s : State) : Host.Outcome State Fault Refusal :=
  slotOp (.por u p a b) (pred2 u p a b fun a b => a != 0 || b != 0) s

/-- `pxor` (R124). -/
def execPxor (u : IUnit) (p : BitVec 2) (a b : BitVec 6) (s : State) : Host.Outcome State Fault Refusal :=
  slotOp (.pxor u p a b) (pred2 u p a b fun a b => (a != 0) != (b != 0)) s

/-- `tstBit` (R124). -/
def execTstBit (u : IUnit) (p : BitVec 2) (a b : BitVec 6) (s : State) : Host.Outcome State Fault Refusal :=
  slotOp (.tstBit u p a b) (pred2 u p a b fun a b => a.getLsbD (b.toNat % 64)) s

/-- `pnot` (R124). -/
def execPnot (u : IUnit) (p : BitVec 2) (a : BitVec 6) (s : State) : Host.Outcome State Fault Refusal :=
  slotOp (.pnot u p a) (fun c s => .ok (s.launch (predFly u c p (readInt s c u.slot a == 0)))) s

/-! ### Staging registers (R132) -/

/-- A write of some bits of a staging register, with latency 1 in CF. -/
def stage (r : BitVec 5) (v mask : Word) (c : Ctx) (s : State) : Except Stop State :=
  .ok (s.launch { Fly.nil .cf c.pos 1 with dst := some (.stage r.toNat, .word v mask) })

/-- `stg` (R132). -/
def execStg (r : BitVec 5) (src : BitVec 6) (s : State) : Host.Outcome State Fault Refusal :=
  slotOp (.stg r src) (fun c s => stage r (readInt s c .cf src) (BitVec.allOnes 64) c s) s

/-- `stg.lo` (R132). -/
def execStgLo (r : BitVec 5) (src : BitVec 6) (s : State) : Host.Outcome State Fault Refusal :=
  slotOp (.stgLo r src) (fun c s => stage r (readInt s c .cf src) 0xFFFFFFFF c s) s

/-- `stg.hi` (R132). -/
def execStgHi (r : BitVec 5) (src : BitVec 6) (s : State) : Host.Outcome State Fault Refusal :=
  slotOp (.stgHi r src) (fun c s => stage r (readInt s c .cf src <<< 32) 0xFFFFFFFF00000000 c s) s

end Sys2Proof.Machine
end

