-- ==== Sys2Proof/Machine/ScalarFp.lean ====
section
/-! DEFINITION. Scalar FP32 operations of IA (R125 to R128). -/

namespace Sys2Proof.Machine
open Sys2Proof

/-- How a scalar FP32 result is rounded (R125): into the chain format with `d` = 1 while STEP is 0. -/
def scalarCtl (c : Ctx) (x : Bool) : RoundCtl := { rm := c.rm, sat := c.sat, chain := x && !c.step }

/-- The mode of a result's rounding, which gives an exact zero its sign (R96). -/
def scalarMode (c : Ctx) (x : Bool) : RM := if (scalarCtl c x).chain then 0 else c.rm

/-- An FP32 result of latency 4 in IA, from the exact result (R125). -/
def fpFly (c : Ctx) (x : Bool) (d : BitVec 5) (v : FV × Flags) : Fly :=
  let r := finish (scalarCtl c x) .fp32 v
  let w := BitVec.ofNat 64 (pack .fp32 r.1)
  { Fly.nil .ia c.pos 4 with
    dst := if x then none else some (.s d.toNat, .word w (BitVec.allOnes 64))
    ring := .b (if (scalarCtl c x).chain then .chain r.1 else .bits w)
    flags := r.2 }

/-- A two-operand FP32 operation (R126). -/
def fp2 (x : Bool) (d : BitVec 5) (a b : BitVec 6) (f : RM → FV → FV → FV × Flags) (c : Ctx) (s : State) : Except Stop State :=
  .ok (s.launch (fpFly c x d (f (scalarMode c x) (readFp s c .ia a) (readFp s c .ia b))))

/-- `fadd.s` (R126). -/
def execFaddS (x : Bool) (d : BitVec 5) (a b : BitVec 6) (s : State) : Host.Outcome State Fault Refusal :=
  slotOp (.faddS x d a b) (fp2 x d a b fun rm a b => fvAdd rm a b) s

/-- `fsub.s` (R126). -/
def execFsubS (x : Bool) (d : BitVec 5) (a b : BitVec 6) (s : State) : Host.Outcome State Fault Refusal :=
  slotOp (.fsubS x d a b) (fp2 x d a b fun rm a b => fvAdd rm a b.negate) s

/-- `fmul.s` (R126). -/
def execFmulS (x : Bool) (d : BitVec 5) (a b : BitVec 6) (s : State) : Host.Outcome State Fault Refusal :=
  slotOp (.fmulS x d a b) (fp2 x d a b fun _ a b => fvMul a b) s

/-- The addend of `ffma.s` (R126, R50): the destination register, or with `d` = 1 the newest entry of IA's ring. -/
def fmaAddend (s : State) (c : Ctx) (x : Bool) (d : BitVec 5) : FV :=
  if x then readFp s c .ia 0x20 else unpack .fp32 ((readS s c .ia d.toNat).toNat % 2 ^ 32)

/-- `ffma.s` (R126). -/
def execFfmaS (x : Bool) (d : BitVec 5) (a b : BitVec 6) (s : State) : Host.Outcome State Fault Refusal :=
  slotOp (.ffmaS x d a b) (fun c s => fp2 x d a b (fun rm a b => fvFma rm a b (fmaAddend s c x d)) c s) s

/-- `fmin.s` (R126). -/
def execFminS (x : Bool) (d : BitVec 5) (a b : BitVec 6) (s : State) : Host.Outcome State Fault Refusal :=
  slotOp (.fminS x d a b) (fp2 x d a b fun _ a b => fvMin a b) s

/-- `fmax.s` (R126). -/
def execFmaxS (x : Bool) (d : BitVec 5) (a b : BitVec 6) (s : State) : Host.Outcome State Fault Refusal :=
  slotOp (.fmaxS x d a b) (fp2 x d a b fun _ a b => fvMax a b) s

/-- An FP32 compare (R127). -/
def fpCmp (p : BitVec 2) (v : Bool × Flags) (c : Ctx) (s : State) : Except Stop State :=
  .ok (s.launch { Fly.nil .ia c.pos 4 with dst := some (.p p.toNat, .bit v.1), flags := v.2 })

/-- `fcmp.lt.s` (R127). -/
def execFcmpLtS (p : BitVec 2) (a b : BitVec 6) (s : State) : Host.Outcome State Fault Refusal :=
  slotOp (.fcmpLtS p a b) (fun c s => fpCmp p (fvLt (readFp s c .ia a) (readFp s c .ia b)) c s) s

/-- `fcmp.eq.s` (R127). -/
def execFcmpEqS (p : BitVec 2) (a b : BitVec 6) (s : State) : Host.Outcome State Fault Refusal :=
  slotOp (.fcmpEqS p a b) (fun c s => fpCmp p (fvEq (readFp s c .ia a) (readFp s c .ia b)) c s) s

/-- `fcvt.s.i` (R128). -/
def execFcvtSI (x : Bool) (d : BitVec 5) (a : BitVec 6) (s : State) : Host.Outcome State Fault Refusal :=
  slotOp (.fcvtSI x d a) (fun c s => .ok (s.launch (fpFly c x d (ofInt (readInt s c .ia a).toInt 0 false, 0)))) s

/-- `fcvt.s.i.u` (R128). -/
def execFcvtSIU (x : Bool) (d : BitVec 5) (a : BitVec 6) (s : State) : Host.Outcome State Fault Refusal :=
  slotOp (.fcvtSIU x d a) (fun c s => .ok (s.launch (fpFly c x d (ofInt (readInt s c .ia a).toNat 0 false, 0)))) s

/-- An FP32 value to an integer of a range (R128, R112): the flags are raised whatever `d` and STEP hold. -/
def fpToInt (x : Bool) (d : BitVec 5) (a : BitVec 6) (lo hi : Int) (c : Ctx) (s : State) : Except Stop State :=
  let r := fvToInt c.rm lo hi (readFp s c .ia a)
  let w := BitVec.ofInt 64 r.1
  .ok (s.launch { Fly.nil .ia c.pos 4 with
    dst := if x then none else some (.s d.toNat, .word w (BitVec.allOnes 64))
    ring := .b (.bits w)
    flags := r.2 })

/-- `fcvt.i.s` (R128). -/
def execFcvtIS (x : Bool) (d : BitVec 5) (a : BitVec 6) (s : State) : Host.Outcome State Fault Refusal :=
  slotOp (.fcvtIS x d a) (fpToInt x d a (-2 ^ 63) (2 ^ 63 - 1)) s

/-- `fcvt.i.s.u` (R128). -/
def execFcvtISU (x : Bool) (d : BitVec 5) (a : BitVec 6) (s : State) : Host.Outcome State Fault Refusal :=
  slotOp (.fcvtISU x d a) (fpToInt x d a 0 (2 ^ 64 - 1)) s

/-- `fcvt.i.s.w` (R128). -/
def execFcvtISW (x : Bool) (d : BitVec 5) (a : BitVec 6) (s : State) : Host.Outcome State Fault Refusal :=
  slotOp (.fcvtISW x d a) (fpToInt x d a (-2 ^ 31) (2 ^ 31 - 1)) s

end Sys2Proof.Machine
end

