-- ==== Sys2Proof/Machine/Special.lean ====
section
/-! DEFINITION. The special functions of VB (R156): each value is enclosed between two fixed-point numbers and handed on as enough bits with
a sticky last bit, so that every rounding of R96 takes it as it would take the exact value. Log 20. -/

namespace Sys2Proof.Machine
open Sys2Proof

/-- Fraction bits of the fixed-point numbers here. -/
def spP : Nat := 384
/-- One. -/
def spOne : Nat := 2 ^ spP
/-- A bound on the error of a computation here, in units of the last place: each has at most some thousand steps. -/
def spErr : Nat := 2 ^ 40

/-- A product of fixed-point numbers. -/
def spMul (a b : Nat) : Nat := a * b / spOne
/-- A quotient of fixed-point numbers. -/
def spDiv (a b : Nat) : Nat := a * spOne / b
/-- The fixed-point number of a finite magnitude `m × 2^e`. -/
def spOf (m : Nat) (e : Int) : Nat := scaleTo m e (-(spP : Int))

/-- `Σ t^(2k+1) / (2k+1)` over `k` to `k + n - 1`: the series of the inverse hyperbolic tangent; `p` is `t^(2k+1)`, `q` is `t²`. -/
def atanhSum (q : Nat) : Nat → Nat → Nat → Nat
  | 0, _, _ => 0
  | n + 1, k, p => p / (2 * k + 1) + atanhSum q n (k + 1) (spMul p q)

/-- The natural logarithm of a number from 1 to 2. -/
def lnSmall (z : Nat) : Nat :=
  let t := spDiv (z - spOne) (z + spOne)
  2 * atanhSum (spMul t t) 130 0 t

/-- ln 2. -/
def ln2 : Nat := lnSmall (2 * spOne)

/-- `Σ x^k / k!` from `k` on; `t` is the term. -/
def expSum (x : Nat) : Nat → Nat → Nat → Nat
  | 0, _, _ => 0
  | n + 1, k, t => t + expSum x n (k + 1) (spMul t x / (k + 1))

/-- The exponential of a number from 0 to 1. -/
def expSmall (x : Nat) : Nat := expSum x 90 0 spOne

/-- `e^-y` for a fixed-point `y ≥ 0`: a number from 1/2 to 1 and the power of two that it is divided by. -/
def expNeg (y : Nat) : Nat × Nat :=
  let n := y / ln2
  -- e^-y = 2^-(n+1) × e^(ln2 - r), r the remainder
  (expSmall (ln2 - y % ln2) / 2, n)

/-- `Σ (-1)^k / ((2k+1) d^(2k+1))`: the inverse tangent of `1/d`; the two signs' sums apart. -/
def atanSum (d : Nat) : Nat → Nat → Nat → Nat × Nat
  | 0, _, _ => (0, 0)
  | n + 1, k, p =>
    let r := atanSum d n (k + 1) (p / (d * d))
    (p / (2 * k + 1) + r.2, r.1)

/-- The inverse tangent of `1/d`. -/
def atanInv (d : Nat) : Nat := let r := atanSum d 200 0 (spOne / d); r.1 - r.2

/-- π. -/
def spPi : Nat := 16 * atanInv 5 - 4 * atanInv 239

/-- `2 / √π`. -/
def twoOverSqrtPi : Nat := spDiv (2 * spOne) (isqrt (spP + 2) (spPi * spOne))

/-- `Σ 2^k x^(2k+1) / (2k+1)!!`; `t` is the term, `q` is `2 x²`. -/
def erfSum (q : Nat) : Nat → Nat → Nat → Nat
  | 0, _, _ => 0
  | n + 1, k, t => t + erfSum q n (k + 1) (spMul t q / (2 * k + 3))

/-! ### From an enclosure to a value -/

/-- The bits of a value that an enclosure keeps before the sticky bit. -/
def spKeep : Nat := 100

/-- An inexact value between `lo × 2^e` and `hi × 2^e`, where the two agree in the bits kept. -/
def enclosed (neg : Bool) (lo hi : Nat) (e : Int) : Option FV :=
  let k := bitLen hi - spKeep
  if lo / 2 ^ k = hi / 2 ^ k ∧ 0 < lo then some (.fin neg (2 * (lo / 2 ^ k) + 1) (e + k - 1)) else none

/-- An inexact value whose fixed-point approximation is `v × 2^e`. -/
def around (neg : Bool) (v : Nat) (e : Int) : Option FV := enclosed neg (v - spErr) (v + spErr) (e - spP)

/-- A value just below a magnitude. -/
def justBelow (neg : Bool) (m : Nat) (e : Int) : FV := .fin neg (2 * (m * 2 ^ spKeep - 1) + 1) (e - spKeep - 1)
/-- A value just above a magnitude. -/
def justAbove (neg : Bool) (m : Nat) (e : Int) : FV := .fin neg (2 * (m * 2 ^ spKeep) + 1) (e - spKeep - 1)

/-- Whether `m × 2^e` is at least `2^k`. -/
def atLeast (m : Nat) (e k : Int) : Bool := decide (k < e + bitLen m)

/-- Whether a finite magnitude is an integer. -/
def isInteger (m : Nat) (e : Int) : Bool := decide (0 ≤ e) || m % 2 ^ (-e).toNat == 0

/-! ### The functions of finite, non-zero operands; none where the enclosure does not decide -/

/-- `2^a`. -/
def exp2Of (neg : Bool) (m : Nat) (e : Int) : Option FV :=
  if atLeast m e 14 then some (.fin false 3 (if neg then -20000 else 20000))
  else if isInteger m e then some (.fin false 1 (signedM neg (scaleTo m e 0)))
  else if !atLeast m e (-120) then some (if neg then justBelow false 1 0 else justAbove false 1 0)
  else
    let x := spOf m e
    let n := x / spOne
    let f := x % spOne
    if neg then around false (expSmall (spMul (spOne - f) ln2)) (-(n : Int) - 1)
    else around false (expSmall (spMul f ln2)) n

/-- `log₂` of a positive value. -/
def log2Of (m : Nat) (e : Int) : Option FV :=
  let k : Int := e + bitLen m - 1
  -- z = m / 2^(bitLen m - 1), from 1 to 2
  let z := m * spOne / 2 ^ (bitLen m - 1)
  if z = spOne then some (ofInt k 0 false)
  else
    let l := spDiv (lnSmall z) ln2
    let v : Int := k * spOne + l
    around (decide (v < 0)) v.natAbs 0

/-- `tanh`. -/
def tanhOf (neg : Bool) (m : Nat) (e : Int) : Option FV :=
  if !atLeast m e (-57) then some (justBelow neg m e)
  else if atLeast m e 6 then some (justBelow neg 1 0)
  else
    let y := expNeg (2 * spOf m e)
    let u := y.1 / 2 ^ y.2
    around neg (spDiv (spOne - u) (spOne + u)) 0

/-- `erf`. -/
def erfOf (neg : Bool) (m : Nat) (e : Int) : Option FV :=
  if !atLeast m e (-57) then
    -- 2/√π × a × (1 - a²/3 + some part of a⁴)
    let q := scaleTo (m * m) (2 * e) (-(spP : Int))
    let v := m * twoOverSqrtPi * (spOne - q / 3) / spOne
    enclosed neg (v - (v / 2 ^ 320 + m * spErr)) (v + v * (spMul q q + 1) / spOne + m * spErr) (e - spP)
  else if atLeast m e 4 || decide (12 * spOne ≤ spOf m e) then some (justBelow neg 1 0)
  else
    let x := spOf m e
    let q := spMul x x
    let y := expNeg q
    around neg (spMul twoOverSqrtPi (spMul (erfSum (2 * q) 1200 0 x) y.1) / 2 ^ y.2) 0

/-- `1 / (1 + e^-a)`. -/
def sigmOf (neg : Bool) (m : Nat) (e : Int) : Option FV :=
  if !atLeast m e (-120) then some (if neg then justBelow false 1 (-1) else justAbove false 1 (-1))
  else if neg then
    if atLeast m e 13 then some (.fin false 3 (-20000))
    else
      let y := expNeg (spOf m e)
      around false (spDiv y.1 (spOne + y.1 / 2 ^ y.2)) (-(y.2 : Int))
  else if atLeast m e 7 then some (justBelow false 1 0)
  else
    let y := expNeg (spOf m e)
    around false (spDiv spOne (spOne + y.1 / 2 ^ y.2)) 0

/-- Whether a value is not zero and lies below the smallest normal magnitude of a format (R99). -/
def belowNormalOf (f : Fmt) : FV → Bool
  | .fin _ m e => m != 0 && decide (e + bitLen m ≤ f.qmin + f.mant)
  | _ => false

/-- A value that the enclosure does not decide: correctly rounded to a format under a mode by the hardware, inexact. -/
def undecided (fn : Nat) (f : Fmt) (rm : RM) (a : FV) : FV × Flags :=
  let v := unpack f (Config.special fn (pack .chain a) f.width rm.toNat)
  (v, fNX ||| flagIf (belowNormalOf f v) fUF)

/-- The value of an enclosure, or the hardware's. -/
def decided (fn : Nat) (f : Fmt) (rm : RM) (a : FV) : Option FV → FV × Flags
  | some v => (v, 0)
  | none => undecided fn f rm a

/-! ### The functions of Table 8.11 -/

/-- `vexp2`. -/
def fvExp2 (f : Fmt) (rm : RM) : FV → FV × Flags
  | .nan s => (.nan false, flagIf s fNV)
  | .inf n => (if n then .fin false 0 0 else .inf false, 0)
  | .fin n m e => if m = 0 then (.fin false 1 0, 0) else decided 0 f rm (.fin n m e) (exp2Of n m e)

/-- `vlog2`. -/
def fvLog2 (f : Fmt) (rm : RM) : FV → FV × Flags
  | .nan s => (.nan false, flagIf s fNV)
  | .inf n => if n then (.nan false, fNV) else (.inf false, 0)
  | .fin n m e =>
    if m = 0 then (.inf true, fDZ) else if n then (.nan false, fNV) else decided 1 f rm (.fin n m e) (log2Of m e)

/-- `vtanh`. -/
def fvTanh (f : Fmt) (rm : RM) : FV → FV × Flags
  | .nan s => (.nan false, flagIf s fNV)
  | .inf n => (.fin n 1 0, 0)
  | .fin n m e => if m = 0 then (.fin n 0 0, 0) else decided 2 f rm (.fin n m e) (tanhOf n m e)

/-- `verf`. -/
def fvErf (f : Fmt) (rm : RM) : FV → FV × Flags
  | .nan s => (.nan false, flagIf s fNV)
  | .inf n => (.fin n 1 0, 0)
  | .fin n m e => if m = 0 then (.fin n 0 0, 0) else decided 3 f rm (.fin n m e) (erfOf n m e)

/-- `vsigm`. -/
def fvSigm (f : Fmt) (rm : RM) : FV → FV × Flags
  | .nan s => (.nan false, flagIf s fNV)
  | .inf n => (if n then .fin false 0 0 else .fin false 1 0, 0)
  | .fin n m e => if m = 0 then (.fin false 1 (-1), 0) else decided 4 f rm (.fin n m e) (sigmOf n m e)

/-- `vfloor`: the largest integer at or below a value, exact. -/
def fvFloor : FV → FV × Flags
  | .nan s => (.nan false, flagIf s fNV)
  | .inf n => (.inf n, 0)
  | .fin n m e => if m = 0 then (.fin n 0 0, 0) else (ofInt (signedM n (roundAt 3 n m e 0).1) 0 n, 0)

end Sys2Proof.Machine
end

