-- ==== Sys2Proof/Machine/Vector.lean ====
section
/-! DEFINITION. The vector unit: its operand forms, arithmetic, compares, conversions, reductions, lane movement, scratchpad accesses and
codebook expansion (08_vector). -/

namespace Sys2Proof.Machine
open Sys2Proof

/-! ### Lanes (R22, Table 2.2) -/

/-- The FP format of an element type of Tables 2.9 and 8.3; none for an integer type. -/
def tyFmt (t : Nat) : Option Fmt :=
  if t = 0 then some .fp32 else if t = 1 then some .bf16 else if t = 2 then some .fp16 else if t = 6 then some .e4m3
  else if t = 7 then some .e5m2 else none
/-- The bytes of an element type. -/
def tyBytes (t : Nat) : Nat := if t = 0 ∨ t = 3 then 4 else if t = 1 ∨ t = 2 ∨ t = 4 then 2 else 1
/-- The lanes of a row. -/
def tyLanes (t : Nat) : Nat := 512 / tyBytes t
/-- Element i of a row, as a pattern. -/
def elemAt (w : Nat) (r : Row) (i : Nat) : Nat := bits r (8 * w * i) (8 * w)
/-- The elements of a row. -/
def elems (t : Nat) (r : Row) : List Nat := (List.range (tyLanes t)).map (elemAt (tyBytes t) r)
/-- A row of some patterns. -/
def rowOf (w : Nat) (l : List Nat) : Row := BitVec.ofNat 4096 (packNum (8 * w) l)
/-- The value of a pattern of an integer type. -/
def intOf (w p : Nat) : Int := signed (8 * w) p
/-- The pattern of an integer, wrapped (R111). -/
def wrapTo (w : Nat) (z : Int) : Nat := (z % (256 ^ w : Nat)).toNat

/-- What a vector operation works under: `VTYPE`, the write mask, and the rounding controls (R135). -/
structure VEnv where
  t : Nat
  mask : Mask
  rm : RM
  sat : Bool
  step : Bool
  deriving DecidableEq, Repr

/-- The setting of an operation of slot `y`. -/
def venv (s : State) (c : Ctx) (y : Slot) : VEnv :=
  { t := bits c.vtypeNow 0 3, mask := readM s c y (bits c.vactNow 0 2), rm := c.rm, sat := c.sat, step := c.step }

/-- The element width. -/
def VEnv.w (e : VEnv) : Nat := tyBytes e.t
/-- The lanes. -/
def VEnv.n (e : VEnv) : Nat := tyLanes e.t
/-- Whether a lane is active. -/
def VEnv.active (e : VEnv) (i : Nat) : Bool := e.mask.getLsbD i
/-- The bytes of the active lanes (R135). -/
def VEnv.bytes (e : VEnv) : Mask :=
  if e.mask = BitVec.allOnes 512 then e.mask
  else (List.range 512).foldl (fun m k => if e.active (k / e.w) then m ||| ((1 : Mask) <<< k) else m) 0
/-- Whether any lane is active. -/
def VEnv.any (e : VEnv) : Bool := (List.range e.n).any e.active
/-- How a result is rounded (Table 6.2). -/
def VEnv.ctl (e : VEnv) (x : Bool) : RoundCtl := { rm := e.rm, sat := e.sat, chain := x && !e.step }
/-- The mode of a result's rounding, which gives an exact zero its sign (R96). -/
def VEnv.mode (e : VEnv) (x : Bool) : RM := if (e.ctl x).chain then 0 else e.rm

/-! ### Operands (R58, R52) -/

/-- A vector operand: its patterns, the chain values that enter exactly, and the flags of a literal's conversion. -/
structure VOp where
  pats : List Nat
  chain : Option (List FV)
  flags : Flags
  deriving DecidableEq, Repr

/-- A vector ring entry as slot `y` reads it: free where R51 leaves it unspecified. -/
def ringW (s : State) (c : Ctx) (y : Slot) (i : Nat) : RingW :=
  let x : Slot := if i < 4 then .va else .vb
  if c.ringJoined y x then (if i < 4 then c.wA else c.wB).getD (i % 4) (.bits 0)
  else .bits (BitVec.ofNat 4096 (s.pick (2500 + 8 * y.idx + i)))

/-- The row that a ring entry is read as where its chain values do not enter exactly (R52). -/
def ringRow (c : Ctx) : RingW → Row
  | .bits r => r
  | .chain ty l => rowOf (tyBytes ty.toNat) (l.map (chainBits c ((tyFmt ty.toNat).getD .fp32)))

/-- The row that `vN` names (R22). -/
def vRow (s : State) (c : Ctx) (y : Slot) (n : Nat) : Row :=
  readRow s c y (bits c.vwinNow 2 1) (32 * bits c.vwinNow 0 2 + n)

/-- A constant of Table 3.11 in lane i. -/
def vecConst (t k i : Nat) : Nat :=
  let w := tyBytes t
  if k = 7 then 256 ^ w - 1
  else match tyFmt t with
    | some f =>
      pack f (if k = 0 then .fin false 0 0 else if k = 1 then .fin false 1 0 else if k = 2 then .fin true 1 0 else if k = 3 then .fin false 1 (-1)
        else if k = 4 then .fin false 1 1 else if k = 5 then .inf false else .fin false i 0)
    | none =>
      if k = 1 then 1 else if k = 2 then 256 ^ w - 1 else if k = 4 then 2 else if k = 5 then 256 ^ w / 2 - 1
      else if k = 6 then i % 256 ^ w else 0

/-- A vector source code as slot `y` reads it under a setting (R58). -/
def readV (s : State) (c : Ctx) (e : VEnv) (y : Slot) (code : BitVec 6) : VOp :=
  let n := code.toNat
  if n < 0x20 then ⟨elems e.t (vRow s c y n), none, 0⟩
  else if n < 0x28 then
    let r := ringW s c y (n - 0x20)
    ⟨elems e.t (ringRow c r), match r with
      | .bits _ => none
      | .chain ty l => if (tyFmt e.t).isSome && tyBytes ty.toNat == e.w then some l else none, 0⟩
  else if n < 0x30 then ⟨List.replicate e.n ((readS s c y (n - 0x28)).toNat % 256 ^ e.w), none, 0⟩
  else if n < 0x38 then
    let l := c.literal (n - 0x30)
    match tyFmt e.t with
    | some f =>
      let r := roundTo f e.rm e.sat (unpack .fp32 (l.toNat * 256))
      ⟨List.replicate e.n (pack f r.1), none, r.2⟩
    | none => ⟨List.replicate e.n (wrapTo e.w l.toInt), none, 0⟩
  else ⟨(List.range e.n).map (vecConst e.t (n - 0x38)), none, 0⟩

/-- The FP values of an operand. -/
def VOp.fps (f : Fmt) (o : VOp) : List FV := match o.chain with
  | some l => l
  | none => o.pats.map (unpack f)
/-- The integer values of an operand. -/
def VOp.ints (w : Nat) (o : VOp) : List Int := o.pats.map (intOf w)
/-- The values of an operand as exact numbers: an integer's are exact. -/
def VOp.vals (e : VEnv) (o : VOp) : List FV := match tyFmt e.t with
  | some f => o.fps f
  | none => (o.ints e.w).map fun z => ofInt z 0 false

/-! ### Results (R135, R136) -/

/-- The result of an operation: what enters the ring, the row, and the flags of its lanes in lanes of `w` bytes. -/
structure VRes where
  ring : RingW
  row : Row
  w : Nat
  flags : List Flags
  deriving DecidableEq, Repr

/-- Patterns as a result: no flag. -/
def patRes (w : Nat) (l : List Nat) : VRes := ⟨.bits (rowOf w l), rowOf w l, w, []⟩

/-- Exact FP values as a result of element type `t`, rounded once (Table 6.2). -/
def fpRes (e : VEnv) (x : Bool) (t : Nat) (f : Fmt) (l : List (FV × Flags)) : VRes :=
  let l := l.map (finish (e.ctl x) f)
  let row := rowOf (tyBytes t) (l.map fun v => pack f v.1)
  ⟨if (e.ctl x).chain then .chain (BitVec.ofNat 3 t) (l.map (·.1)) else .bits row, row, tyBytes t, l.map (·.2)⟩

/-- Integers as a result, wrapped. -/
def intRes (w : Nat) (l : List Int) : VRes := patRes w (l.map (wrapTo w))

/-- The flags of the active lanes. DESIGN CHOICE: a result lane of another width than `VTYPE`'s, as that of a `vdot4`, is active as the lane of `VTYPE` that
holds its first byte; R135 and R148 name no other mask bit for it (log 58). -/
def activeFlags (e : VEnv) (w : Nat) (l : List Flags) : Flags :=
  l.zipIdx.foldl (fun a f => if e.active (f.2 * w / e.w) then a ||| f.1 else a) 0

/-- The row of the window's bank that a destination names. -/
def Ctx.rowDst (c : Ctx) (d : BitVec 5) : Dst := .row (bits c.vwinNow 2 1) (32 * bits c.vwinNow 0 2 + d.toNat)

/-- The result in flight of a row operation: `extra` are flags of its operands, raised where any lane is active. -/
def rowFly (e : VEnv) (c : Ctx) (u : VUnit) (x : Bool) (d : BitVec 5) (lat : Nat) (extra : Flags) (bytes : Mask) (r : VRes) : Fly :=
  { Fly.nil u.slot c.pos lat with
    dst := if x then none else some (c.rowDst d, .row r.row bytes)
    ring := .w r.ring
    flags := activeFlags e r.w r.flags ||| (if e.any then extra else 0) }

/-- The registers `vN` that some source codes name. -/
def vNames (l : List (BitVec 6)) : List Nat := (l.filter fun k => decide (k.toNat < 0x20)).map (·.toNat)

/-- Whether the watermark covers the rows of some registers (R24). -/
def rowsReady (s : State) (c : Ctx) (l : List Nat) : Bool :=
  l.all fun n => decide (32 * bits c.vwinNow 0 2 + n < s.wm s.turn (bits c.vwinNow 2 1))

/-- An operation that names a `v` register needs its bank (R137, R23). -/
def bankGate (s : State) (c : Ctx) (l : List Nat) : Except Stop Unit := need (l.isEmpty || bankOwner s s.turn (bits c.vwinNow 2 1)) kBank

/-- An access of path V needs its bank, and its registers' rows wait for the watermark (R24, R137, R174). -/
def vecGate (s : State) (c : Ctx) (reads writes : List Nat) : Except Stop Unit := do
  bankGate s c (reads ++ writes)
  if !rowsReady s c (reads ++ writes) then .error .wait

/-- The same for a row operation, which keeps that a read of it has waited: it then has variable latency (R45). -/
def rowGate (u : VUnit) (s : State) (c : Ctx) (reads writes : List Nat) : Except Stop Bool := do
  bankGate s c (reads ++ writes)
  if !rowsReady s c reads then .error (.later (keepOperands s s.turn u.slot []))
  if !rowsReady s c writes then .error .wait
  .ok (c.caught u.slot).isSome

/-- A result of variable latency (R45). -/
def Fly.late (w : Fly) : Fly := { w with var := true, due := w.pos + 1 }
/-- A row operation's result is launched, with variable latency where a read has waited. -/
def State.launchRow (s : State) (late : Bool) (w : Fly) : State := s.launch (if late then w.late else w)

/-- The destination's number, where there is one. -/
def dstOf (x : Bool) (d : BitVec 5) : List Nat := if x then [] else [d.toNat]

/-- A row operation of two sources (R135). -/
def vec2 (u : VUnit) (x : Bool) (d : BitVec 5) (a b : BitVec 6) (lat : Nat) (f : VEnv → VOp → VOp → VRes) (c : Ctx) (s : State) :
    Except Stop State := do
  let late ← rowGate u s c (vNames [a, b]) (dstOf x d)
  let e := venv s c u.slot
  let p := readV s c e u.slot a
  let q := readV s c e u.slot b
  .ok (s.launchRow late (rowFly e c u x d lat (p.flags ||| q.flags) e.bytes (f e p q)))

/-- A row operation of one source. -/
def vec1 (u : VUnit) (x : Bool) (d : BitVec 5) (a : BitVec 6) (lat : Nat) (f : VEnv → VOp → VRes) (c : Ctx) (s : State) :
    Except Stop State := do
  let late ← rowGate u s c (vNames [a]) (dstOf x d)
  let e := venv s c u.slot
  let p := readV s c e u.slot a
  .ok (s.launchRow late (rowFly e c u x d lat p.flags e.bytes (f e p)))

/-- Lane by lane: FP values, or integers that wrap. -/
def lanes2 (x : Bool) (fp : RM → FV → FV → FV × Flags) (int : Int → Int → Int) (e : VEnv) (a b : VOp) : VRes :=
  match tyFmt e.t with
  | some f => fpRes e x e.t f (List.zipWith (fp (e.mode x)) (a.fps f) (b.fps f))
  | none => intRes e.w (List.zipWith int (a.ints e.w) (b.ints e.w))

/-- Lane by lane on patterns. -/
def pats2 (f : Nat → Nat → Nat → Nat) (e : VEnv) (a b : VOp) : VRes := patRes e.w (List.zipWith (f e.w) a.pats b.pats)

/-! ### Elementwise operations (Table 8.1) -/

/-- `vadd`. -/
def execVadd (u : VUnit) (x : Bool) (d : BitVec 5) (a b : BitVec 6) (s : State) : Host.Outcome State Fault Refusal :=
  slotOp (.vadd u x d a b) (vec2 u x d a b 3 (lanes2 x (fun rm p q => fvAdd rm p q) fun p q => p + q)) s

/-- `vsub`. -/
def execVsub (u : VUnit) (x : Bool) (d : BitVec 5) (a b : BitVec 6) (s : State) : Host.Outcome State Fault Refusal :=
  slotOp (.vsub u x d a b) (vec2 u x d a b 3 (lanes2 x (fun rm p q => fvAdd rm p q.negate) fun p q => p - q)) s

/-- `vmul`. -/
def execVmul (u : VUnit) (x : Bool) (d : BitVec 5) (a b : BitVec 6) (s : State) : Host.Outcome State Fault Refusal :=
  slotOp (.vmul u x d a b) (vec2 u x d a b 5 (lanes2 x (fun _ p q => fvMul p q) fun p q => p * q)) s

/-- Lane by lane over three operands. -/
def zip3 {α β γ δ : Type} (f : α → β → γ → δ) : List α → List β → List γ → List δ
  | a :: as, b :: bs, c :: cs => f a b c :: zip3 f as bs cs
  | _, _, _ => []

/-- An FMA-type operation (R139): the addend is the destination, or with `d` = 1 the slot's newest ring entry. -/
def vecFma (u : VUnit) (x : Bool) (d : BitVec 5) (a b : BitVec 6) (fp : RM → FV → FV → FV → FV × Flags) (int : Int → Int → Int → Int)
    (c : Ctx) (s : State) : Except Stop State := do
  let late ← rowGate u s c (vNames [a, b] ++ dstOf x d) []
  let e := venv s c u.slot
  let p := readV s c e u.slot a
  let q := readV s c e u.slot b
  let r := readV s c e u.slot (if x then (if u = .va then 0x20 else 0x24) else d.setWidth 6)
  let v := match tyFmt e.t with
    | some f => fpRes e x e.t f (zip3 (fp (e.mode x)) (p.fps f) (q.fps f) (r.fps f))
    | none => intRes e.w (zip3 int (p.ints e.w) (q.ints e.w) (r.ints e.w))
  .ok (s.launchRow late (rowFly e c u x d 5 (p.flags ||| q.flags) e.bytes v))

/-- `vfma`. -/
def execVfma (u : VUnit) (x : Bool) (d : BitVec 5) (a b : BitVec 6) (s : State) : Host.Outcome State Fault Refusal :=
  slotOp (.vfma u x d a b) (vecFma u x d a b (fun rm p q r => fvFma rm p q r) fun p q r => p * q + r) s

/-- `vfms`. -/
def execVfms (u : VUnit) (x : Bool) (d : BitVec 5) (a b : BitVec 6) (s : State) : Host.Outcome State Fault Refusal :=
  slotOp (.vfms u x d a b) (vecFma u x d a b (fun rm p q r => fvFma rm p q r.negate) fun p q r => p * q - r) s

/-- `vfnma`. -/
def execVfnma (u : VUnit) (x : Bool) (d : BitVec 5) (a b : BitVec 6) (s : State) : Host.Outcome State Fault Refusal :=
  slotOp (.vfnma u x d a b) (vecFma u x d a b (fun rm p q r => fvFma rm p.negate q r) fun p q r => r - p * q) s

/-- `vmin`. -/
def execVmin (u : VUnit) (x : Bool) (d : BitVec 5) (a b : BitVec 6) (s : State) : Host.Outcome State Fault Refusal :=
  slotOp (.vmin u x d a b) (vec2 u x d a b 3 (lanes2 x (fun _ p q => fvMin p q) fun p q => min p q)) s

/-- `vmax`. -/
def execVmax (u : VUnit) (x : Bool) (d : BitVec 5) (a b : BitVec 6) (s : State) : Host.Outcome State Fault Refusal :=
  slotOp (.vmax u x d a b) (vec2 u x d a b 3 (lanes2 x (fun _ p q => fvMax p q) fun p q => max p q)) s

/-- Lane by lane on one operand. -/
def lanes1 (x : Bool) (fp : FV → FV × Flags) (int : Int → Int) (e : VEnv) (a : VOp) : VRes :=
  match tyFmt e.t with
  | some f => fpRes e x e.t f ((a.fps f).map fp)
  | none => intRes e.w ((a.ints e.w).map int)

/-- `vabs`. -/
def execVabs (u : VUnit) (x : Bool) (d : BitVec 5) (a : BitVec 6) (s : State) : Host.Outcome State Fault Refusal :=
  slotOp (.vabs u x d a) (vec1 u x d a 3 (lanes1 x (fun p => (p.abs, 0)) fun p => p.natAbs)) s

/-- `vneg`. -/
def execVneg (u : VUnit) (x : Bool) (d : BitVec 5) (a : BitVec 6) (s : State) : Host.Outcome State Fault Refusal :=
  slotOp (.vneg u x d a) (vec1 u x d a 3 (lanes1 x (fun p => (p.negate, 0)) fun p => -p)) s

/-- `vmov`: patterns move unchanged; chain values are rounded where they are written (R138). DESIGN CHOICE: a chain value that goes to the ring (`d` = 1,
STEP = 0) stays one, and a rounding raises all five flags (log 59). -/
def vmovRes (x : Bool) (e : VEnv) (a : VOp) : VRes :=
  match a.chain, tyFmt e.t with
  | some l, some f => fpRes e x e.t f (l.map fun v => (v, 0))
  | _, _ => patRes e.w a.pats

/-- `vmov`. -/
def execVmov (u : VUnit) (x : Bool) (d : BitVec 5) (a : BitVec 6) (s : State) : Host.Outcome State Fault Refusal :=
  slotOp (.vmov u x d a) (vec1 u x d a 3 (vmovRes x)) s

/-- `vand`. -/
def execVand (u : VUnit) (x : Bool) (d : BitVec 5) (a b : BitVec 6) (s : State) : Host.Outcome State Fault Refusal :=
  slotOp (.vand u x d a b) (vec2 u x d a b 3 (pats2 fun _ p q => p &&& q)) s

/-- `vor`. -/
def execVor (u : VUnit) (x : Bool) (d : BitVec 5) (a b : BitVec 6) (s : State) : Host.Outcome State Fault Refusal :=
  slotOp (.vor u x d a b) (vec2 u x d a b 3 (pats2 fun _ p q => p ||| q)) s

/-- `vxor`. -/
def execVxor (u : VUnit) (x : Bool) (d : BitVec 5) (a b : BitVec 6) (s : State) : Host.Outcome State Fault Refusal :=
  slotOp (.vxor u x d a b) (vec2 u x d a b 3 (pats2 fun _ p q => p ^^^ q)) s

/-- `vnot`. -/
def execVnot (u : VUnit) (x : Bool) (d : BitVec 5) (a : BitVec 6) (s : State) : Host.Outcome State Fault Refusal :=
  slotOp (.vnot u x d a) (vec1 u x d a 3 fun e p => patRes e.w (p.pats.map fun v => 256 ^ e.w - 1 - v)) s

/-- `vshl`. -/
def execVshl (u : VUnit) (x : Bool) (d : BitVec 5) (a b : BitVec 6) (s : State) : Host.Outcome State Fault Refusal :=
  slotOp (.vshl u x d a b) (vec2 u x d a b 3 (pats2 fun w p q => p * 2 ^ (q % (8 * w)) % 256 ^ w)) s

/-- `vshr`. -/
def execVshr (u : VUnit) (x : Bool) (d : BitVec 5) (a b : BitVec 6) (s : State) : Host.Outcome State Fault Refusal :=
  slotOp (.vshr u x d a b) (vec2 u x d a b 3 (pats2 fun w p q => p / 2 ^ (q % (8 * w)))) s

/-- `vsar`. -/
def execVsar (u : VUnit) (x : Bool) (d : BitVec 5) (a b : BitVec 6) (s : State) : Host.Outcome State Fault Refusal :=
  slotOp (.vsar u x d a b) (vec2 u x d a b 3 (pats2 fun w p q => wrapTo w (intOf w p / (2 ^ (q % (8 * w)) : Nat)))) s

/-- `vmulhi`. -/
def execVmulhi (x : Bool) (d : BitVec 5) (a b : BitVec 6) (s : State) : Host.Outcome State Fault Refusal :=
  slotOp (.vmulhi x d a b) (vec2 .va x d a b 5 (pats2 fun w p q => wrapTo w (intOf w p * intOf w q / (256 ^ w : Nat)))) s

/-- `vfloor`: exact, so NX is never raised. -/
def execVfloor (x : Bool) (d : BitVec 5) (a : BitVec 6) (s : State) : Host.Outcome State Fault Refusal :=
  slotOp (.vfloor x d a) (vec1 .vb x d a 3 fun e p =>
    let r := lanes1 x fvFloor (fun z => z) e p
    { r with flags := r.flags.map fun f => f &&& ~~~fNX }) s

/-! ### Compares and select (R140, R141) -/

/-- A compare: every lane's bit; NV of the active lanes. -/
def vecCmp (u : VUnit) (m : BitVec 2) (a b : BitVec 6) (fp : FV → FV → Bool × Flags) (int : Int → Int → Bool) (c : Ctx) (s : State) :
    Except Stop State := do
  let late ← rowGate u s c (vNames [a, b]) []
  let e := venv s c u.slot
  let p := readV s c e u.slot a
  let q := readV s c e u.slot b
  let r : List (Bool × Flags) := match tyFmt e.t with
    | some f => List.zipWith fp (p.fps f) (q.fps f)
    | none => List.zipWith (fun x y => (int x y, 0)) (p.ints e.w) (q.ints e.w)
  .ok (s.launchRow late { Fly.nil u.slot c.pos 3 with
    dst := some (.m m.toNat, .mask (BitVec.ofNat 512 (packNum 1 (r.map fun v => b2n v.1))))
    flags := activeFlags e e.w (r.map (·.2)) ||| (if e.any then p.flags ||| q.flags else 0) })

/-- `vcmp.eq`. -/
def execVcmpEq (u : VUnit) (m : BitVec 2) (a b : BitVec 6) (s : State) : Host.Outcome State Fault Refusal :=
  slotOp (.vcmpEq u m a b) (vecCmp u m a b fvEq fun p q => decide (p = q)) s

/-- `vcmp.ne`. -/
def execVcmpNe (u : VUnit) (m : BitVec 2) (a b : BitVec 6) (s : State) : Host.Outcome State Fault Refusal :=
  slotOp (.vcmpNe u m a b) (vecCmp u m a b (fun p q => ((!(fvEq p q).1), (fvEq p q).2)) fun p q => decide (p ≠ q)) s

/-- `vcmp.lt`. -/
def execVcmpLt (u : VUnit) (m : BitVec 2) (a b : BitVec 6) (s : State) : Host.Outcome State Fault Refusal :=
  slotOp (.vcmpLt u m a b) (vecCmp u m a b fvLt fun p q => decide (p < q)) s

/-- `vcmp.le`. -/
def execVcmpLe (u : VUnit) (m : BitVec 2) (a b : BitVec 6) (s : State) : Host.Outcome State Fault Refusal :=
  slotOp (.vcmpLe u m a b) (vecCmp u m a b fvLe fun p q => decide (p ≤ q)) s

/-- `vsel`: every lane is written. -/
def execVsel (u : VUnit) (x : Bool) (d : BitVec 5) (a b : BitVec 6) (s : State) : Host.Outcome State Fault Refusal :=
  slotOp (.vsel u x d a b) (fun c s => do
    let late ← rowGate u s c (vNames [a, b]) (dstOf x d)
    let e := venv s c u.slot
    let p := readV s c e u.slot a
    let q := readV s c e u.slot b
    let r := patRes e.w ((List.zip p.pats q.pats).zipIdx.map fun v => if e.active v.2 then v.1.1 else v.1.2)
    .ok (s.launchRow late (rowFly e c u x d 3 (p.flags ||| q.flags) (BitVec.allOnes 512) r))) s

/-! ### Conversions (R142 to R144) -/

/-- One element converted (R143): its pattern and flags. -/
def convertElem (rm : RM) (sat : Bool) (src dst : Nat) (v : FV) (p : Nat) : Nat × Flags :=
  let w := tyBytes dst
  match tyFmt src, tyFmt dst with
  | none, none => (wrapTo w (intOf (tyBytes src) p), 0)
  | _, some f => let r := roundTo f rm sat v; (pack f r.1, r.2)
  | some _, none =>
    let r := fvToInt rm (-(2 ^ (8 * w - 1) : Nat)) (2 ^ (8 * w - 1) - 1 : Nat) v
    (wrapTo w r.1, r.2)

/-- The elements of an operand of a type, as values and patterns. -/
def typed (t : Nat) (l : List Nat) (chain : Option (List FV)) : List (FV × Nat) :=
  match tyFmt t with
  | some f => List.zip (chain.getD (l.map (unpack f))) l
  | none => l.map fun p => (ofInt (intOf (tyBytes t) p) 0 false, p)

/-- Places converted elements in a row (R143): the new row, the bytes that it writes, and the flags of the active elements. -/
def placeElems (e : VEnv) (old : Row) (wd start : Nat) (l : List (Nat × Flags)) : Row × Mask × Flags :=
  let on := l.zipIdx.map fun v => (start + v.2, v.1, e.active ((start + v.2) * wd / e.w))
  (on.foldl (fun r v => setBits r (8 * wd * v.1) (8 * wd) v.2.1.1) old,
   on.foldl (fun m v => if v.2.2 then m ||| BitVec.ofNat 512 ((2 ^ wd - 1) * 2 ^ (wd * v.1)) else m) 0,
   on.foldl (fun f v => if v.2.2 then f ||| v.2.1.2 else f) 0)

/-- The part of a row that a conversion takes (R143): how many elements, and which of the wider side. -/
def partOfRow (ws wd q : Nat) : Nat × Nat := (512 / max ws wd, q % (max ws wd / min ws wd))

/-- A conversion of elements (R143): `f` converts one, `on` tells whether one is active. -/
def convert (e : VEnv) (old : Row) (ws wd q : Nat) (src : List (FV × Nat)) (f : FV × Nat → Nat × Flags) : Row × Mask × Flags :=
  let (n, k) := partOfRow ws wd q
  if wd ≤ ws then placeElems e old wd (k * n) ((src.take n).map f)
  else placeElems e old wd 0 (((src.drop (k * n)).take n).map f)

/-- The result of a conversion. -/
def cvtFly (e : VEnv) (c : Ctx) (u : VUnit) (x : Bool) (d : BitVec 5) (extra : Flags) (r : Row × Mask × Flags) : Fly :=
  { Fly.nil u.slot c.pos 3 with
    dst := if x then none else some (c.rowDst d, .row r.1 r.2.1)
    ring := .w (.bits r.1)
    flags := r.2.2 ||| (if e.any then extra else 0) }

/-- The row that a conversion starts from (R143): the old destination, or zeros with `d` = 1. -/
def oldRow (s : State) (c : Ctx) (u : VUnit) (x : Bool) (d : BitVec 5) : Row := if x then 0 else vRow s c u.slot d.toNat

/-- `vcvt` with DIR 0 (R142, R143). -/
def execVcvtTo (u : VUnit) (x : Bool) (d : BitVec 5) (a : BitVec 6) (t : BitVec 3) (q : BitVec 2) (s : State) :
    Host.Outcome State Fault Refusal :=
  slotOp (.vcvtTo u x d a t q) (fun c s => do
    let late ← rowGate u s c (vNames [a] ++ dstOf x d) []
    let e := venv s c u.slot
    let p := readV s c e u.slot a
    .ok (s.launchRow late (cvtFly e c u x d p.flags (convert e (oldRow s c u x d) e.w (tyBytes t.toNat) q.toNat (typed e.t p.pats p.chain)
      fun v => convertElem e.rm e.sat e.t t.toNat v.1 v.2)))) s

/-- `vcvt` with DIR 1: the source's bytes are patterns of OTHER. -/
def execVcvtFrom (u : VUnit) (x : Bool) (d : BitVec 5) (a : BitVec 6) (t : BitVec 3) (q : BitVec 2) (s : State) :
    Host.Outcome State Fault Refusal :=
  slotOp (.vcvtFrom u x d a t q) (fun c s => do
    let late ← rowGate u s c (vNames [a] ++ dstOf x d) []
    let e := venv s c u.slot
    let row := if a.toNat < 0x20 then vRow s c u.slot a.toNat else ringRow c (ringW s c u.slot (a.toNat - 0x20))
    .ok (s.launchRow late (cvtFly e c u x d 0 (convert e (oldRow s c u x d) (tyBytes t.toNat) e.w q.toNat (typed t.toNat (elems t.toNat row) none)
      fun v => convertElem e.rm e.sat t.toNat e.t v.1 v.2)))) s

/-- `vcvt.sc` (R144): scaled, narrowed into FP8; the source values of the active elements update `AMAX`. -/
def execVcvtSc (u : VUnit) (x : Bool) (d : BitVec 5) (a : BitVec 6) (sr : BitVec 3) (g : Bool) (q : BitVec 2) (s : State) :
    Host.Outcome State Fault Refusal :=
  slotOp (.vcvtSc u x d a sr g q) (fun c s => do
    let late ← rowGate u s c (vNames [a] ++ dstOf x d) []
    let e := venv s c u.slot
    let p := readV s c e u.slot a
    let scale := unpack .fp32 ((readS s c u.slot sr.toNat).toNat % 2 ^ 32)
    let f : Fmt := if g then .e5m2 else .e4m3
    let src := typed e.t p.pats p.chain
    let (n, k) := partOfRow e.w 1 q.toNat
    let am := (src.take n).zipIdx.foldl (fun a v => if e.active ((k * n + v.2) / e.w) then amaxUpdate v.1.1 a else a) (0, false)
    let r := convert e (oldRow s c u x d) e.w 1 q.toNat src fun v =>
      let y := fvMul v.1 scale
      let z := roundTo f e.rm e.sat y.1
      (pack f z.1, y.2 ||| z.2)
    .ok (s.launchRow late { cvtFly e c u x d p.flags r with amax := am.1, amaxNan := am.2 })) s

/-- `vamax` (R145). -/
def execVamax (x : Bool) (d : BitVec 5) (a b : BitVec 6) (s : State) : Host.Outcome State Fault Refusal :=
  slotOp (.vamax x d a b) (fun c s => do
    let late ← rowGate .va s c (vNames [a, b]) (dstOf x d)
    let e := venv s c .va
    let p := readV s c e .va a
    let q := readV s c e .va b
    let r := lanes2 x (fun _ p q => fvMax p.abs q.abs) (fun p q => max p.natAbs q.natAbs) e p q
    let am := (p.vals e).zipIdx.foldl (fun a v => if e.active v.2 then amaxUpdate v.1 a else a) (0, false)
    .ok (s.launchRow late { rowFly e c .va x d 3 (p.flags ||| q.flags) e.bytes r with amax := am.1, amaxNan := am.2 })) s

/-! ### Reductions, scans and dot products (R146 to R148) -/

/-- The exact sum of some values (R146): a NaN where a term is one, or where both infinities occur. -/
def sumFV (rm : RM) (l : List FV) : FV × Flags :=
  if l.any FV.isNan then (.nan false, flagIf (l.any FV.isSig) fNV)
  else
    let p := l.contains (.inf false)
    let n := l.contains (.inf true)
    if p && n then (.nan false, fNV) else if p then (.inf false, 0) else if n then (.inf true, 0)
    else
      let q := l.foldl (fun a v => min a (expOf v)) 0
      let z := l.foldl (fun a v => match v with | .fin s m e => if m = 0 then a else a + signedM s m * 2 ^ (e - q).toNat | _ => a) 0
      if z = 0 then
        (.fin (if l.all (fun v => v.isZero && v.neg) then true else if l.all (fun v => v.isZero && !v.neg) then false else rm == 3) 0 0, 0)
      else (ofInt z q false, 0)

/-- The active lanes of a list. -/
def actives {α : Type} (e : VEnv) (l : List α) : List α := (l.zipIdx.filter fun v => e.active v.2).map (·.1)

/-- The flags of a reduction: NV in every lane where a signalling NaN lies among the active lanes. -/
def redFlags (l : List FV) (r : VRes) : VRes :=
  if l.any FV.isSig then { r with flags := r.flags.map (· ||| fNV) } else r

/-- `vred.add`. -/
def redAdd (x : Bool) (e : VEnv) (a b : VOp) : VRes :=
  match tyFmt e.t with
  | some f =>
    let l := actives e (a.fps f)
    redFlags l (fpRes e x e.t f ((b.fps f).map fun v => sumFV (e.mode x) (v :: l)))
  | none =>
    let z := (actives e (a.ints e.w)).foldl (· + ·) 0
    intRes e.w ((b.ints e.w).map (· + z))

/-- `vred.max` and `vred.min`, by the operation that combines two. -/
def redBy (x : Bool) (fp : FV → FV → FV × Flags) (int : Int → Int → Int) (e : VEnv) (a b : VOp) : VRes :=
  match tyFmt e.t with
  | some f =>
    let l := actives e (a.fps f)
    redFlags l (fpRes e x e.t f ((b.fps f).map fun v => l.foldl (fun r w => ((fp r.1 w).1, r.2 ||| (fp r.1 w).2)) (v, flagIf v.isSig fNV)))
  | none =>
    let l := actives e (a.ints e.w)
    intRes e.w ((b.ints e.w).map fun z => l.foldl int z)

/-- `vred.add` (R146). -/
def execVredAdd (u : VUnit) (x : Bool) (d : BitVec 5) (a b : BitVec 6) (s : State) : Host.Outcome State Fault Refusal :=
  slotOp (.vredAdd u x d a b) (vec2 u x d a b 6 (redAdd x)) s

/-- `vred.max` (R146). -/
def execVredMax (u : VUnit) (x : Bool) (d : BitVec 5) (a b : BitVec 6) (s : State) : Host.Outcome State Fault Refusal :=
  slotOp (.vredMax u x d a b) (vec2 u x d a b 6 (redBy x fvMax max)) s

/-- `vred.min` (R146). -/
def execVredMin (u : VUnit) (x : Bool) (d : BitVec 5) (a b : BitVec 6) (s : State) : Host.Outcome State Fault Refusal :=
  slotOp (.vredMin u x d a b) (vec2 u x d a b 6 (redBy x fvMin min)) s

/-- The active lanes up to each lane. -/
def prefixes {α : Type} (e : VEnv) (l : List α) : List (List α) := (List.range l.length).map fun i => actives e (l.take (i + 1))

/-- `vscan.add`. -/
def scanAdd (x : Bool) (e : VEnv) (a b : VOp) : VRes :=
  match tyFmt e.t with
  | some f =>
    let l := a.fps f
    let last := (b.fps f).getLastD (.fin false 0 0)
    redFlags (actives e l) (fpRes e x e.t f ((prefixes e l).map fun p => sumFV (e.mode x) (last :: p)))
  | none =>
    let last := (b.ints e.w).getLastD 0
    intRes e.w ((prefixes e (a.ints e.w)).map fun p => p.foldl (· + ·) last)

/-- `vscan.add` (R147). -/
def execVscanAdd (u : VUnit) (x : Bool) (d : BitVec 5) (a b : BitVec 6) (s : State) : Host.Outcome State Fault Refusal :=
  slotOp (.vscanAdd u x d a b) (vec2 u x d a b 6 (scanAdd x)) s

/-- `vdot4` (R148): sums of four products in 128 lanes of the wide type. -/
def dot4 (x : Bool) (e : VEnv) (a b : VOp) : VRes :=
  match tyFmt e.t with
  | some f =>
    let ps := List.zipWith fvMul (a.fps f) (b.fps f)
    let sums := (chunks (e.n / 4) 4 ps).map fun g =>
      let r := sumFV (e.mode x) (g.map (·.1))
      (r.1, g.foldl (fun f p => f ||| p.2) r.2)
    fpRes e x 0 .fp32 (sums ++ List.replicate (128 - sums.length) (.fin false 0 0, 0))
  | none =>
    let ps := List.zipWith (· * ·) (a.ints e.w) (b.ints e.w)
    let sums := (chunks (e.n / 4) 4 ps).map fun g => g.foldl (· + ·) 0
    intRes 4 (sums ++ List.replicate (128 - sums.length) 0)

/-- `vdot4`. -/
def execVdot4 (x : Bool) (d : BitVec 5) (a b : BitVec 6) (s : State) : Host.Outcome State Fault Refusal :=
  slotOp (.vdot4 x d a b) (vec2 .va x d a b 5 (dot4 x)) s

/-! ### Lane movement (R149, R150) -/

/-- `vperm`. -/
def execVperm (u : VUnit) (x : Bool) (d : BitVec 5) (a b : BitVec 6) (s : State) : Host.Outcome State Fault Refusal :=
  slotOp (.vperm u x d a b) (vec2 u x d a b 6 fun e p q => patRes e.w (q.pats.map fun i => p.pats.getD (i % e.n) 0)) s

/-- `vrot`. -/
def execVrot (u : VUnit) (x : Bool) (d : BitVec 5) (a b : BitVec 6) (s : State) : Host.Outcome State Fault Refusal :=
  slotOp (.vrot u x d a b) (vec2 u x d a b 6 fun e p q =>
    patRes e.w ((List.range e.n).map fun i => p.pats.getD ((i + q.pats.headD 0 % e.n) % e.n) 0)) s

/-- `vbcast`. -/
def execVbcast (u : VUnit) (x : Bool) (d : BitVec 5) (a b : BitVec 6) (s : State) : Host.Outcome State Fault Refusal :=
  slotOp (.vbcast u x d a b) (vec2 u x d a b 3 fun e p q =>
    patRes e.w (List.replicate e.n (p.pats.getD (q.pats.headD 0 % e.n) 0))) s

/-- `vext`: an integer lane sign-extended, an FP lane as its pattern. -/
def execVext (u : VUnit) (d : BitVec 5) (a b : BitVec 6) (s : State) : Host.Outcome State Fault Refusal :=
  slotOp (.vext u d a b) (fun c s => do
    let late ← rowGate u s c (vNames [a, b]) []
    let e := venv s c u.slot
    let p := readV s c e u.slot a
    let q := readV s c e u.slot b
    let v := p.pats.getD (q.pats.headD 0 % e.n) 0
    let w : Word := if (tyFmt e.t).isSome then BitVec.ofNat 64 v else BitVec.ofInt 64 (intOf e.w v)
    .ok (s.launchRow late { Fly.nil u.slot c.pos 6 with
      dst := some (.s d.toNat, .word w (BitVec.allOnes 64))
      ring := .w (.bits (rowOf e.w (List.replicate e.n v)))
      flags := if e.any then p.flags ||| q.flags else 0 })) s

/-- `vpart` (R150): the lanes whose key bit is 1 first; the count where it is asked for. -/
def execVpart (u : VUnit) (x : Bool) (d : BitVec 5) (a : BitVec 6) (xs : BitVec 3) (cv : Bool) (msk : BitVec 2) (cnt : BitVec 5) (s : State) :
    Host.Outcome State Fault Refusal :=
  slotOp (.vpart u x d a xs cv msk cnt) (fun c s => do
    let late ← rowGate u s c (vNames [a]) (dstOf x d)
    let e := venv s c u.slot
    let p := readV s c e u.slot a
    let key := readM s c u.slot msk.toNat
    let l := p.pats.zipIdx
    let one := l.filter fun v => key.getLsbD v.2
    let r := patRes e.w ((one ++ l.filter fun v => !key.getLsbD v.2).map (·.1))
    let s := s.launchRow late (rowFly e c u x d 6 p.flags e.bytes r)
    .ok (if cv then s.launchRow late { Fly.nil u.slot c.pos 6 with dst := some (.s cnt.toNat, .word (BitVec.ofNat 64 one.length) (BitVec.allOnes 64)) }
      else s)) s

/-! ### Scratchpad accesses (R151 to R153) -/

/-- The checks on every active lane's bytes, each over all lanes before the next (R152). DESIGN CHOICE: with no active lane the spec does not say
which checks are made; the tag and the right are, since they are the capability's and no lane's (log 88). Whether a page may be written is
checked at the commit (R348). -/
def laneChecks (s : State) (c : Ctx) (cap : Cap) (right : Nat) (n : Nat) (offs : List Nat) : Except Stop Unit := do
  need (cap.tag && cap.has right) kRights
  offs.forM fun o => if cap.len < o + n then fatalAt kBounds cap.obj ((cap.base + max o cap.len) % 2 ^ 40) else .ok ()
  offs.forM fun o => tierCheck s s.turn cap.obj (cap.base + o) n 0
  offs.forM fun o => portCheck s (whoOf s.turn c) (some cap.gen) cap.obj (cap.base + o) n false 0

/-- The lanes' offsets of an operation, and the flags of its index operand. -/
abbrev LaneIdx := Ctx → State → VEnv → List Nat × Flags

/-- The active lanes with their offsets. -/
def laneOffs (e : VEnv) (offs : List Nat) : List (Nat × Nat) := (offs.zipIdx.filter fun o => e.active o.2).map fun o => (o.2, o.1)

/-- An access of path V. -/
def accessV (s : State) (c : Ctx) (u : VUnit) (cls : Nat) : Act := readAct s.turn c u.slot .v cls 0 0 0

/-- What a load of lanes starts with: its checks, and the capability, the mask, and the units of the active lanes (R152, R153). -/
def laneUnits (u : VUnit) (x : Bool) (v : BitVec 5) (k : BitVec 3) (cls : Nat) (idx : LaneIdx) (names : List Nat) (c : Ctx) (s : State) :
    Except Stop (Cap × Nat × List RUnit) := do
  if c.fenced (accessV s c u cls) then .error .wait
  vecGate s c names (dstOf x v)
  let e := venv s c u.slot
  let cap := readK s c u.slot k.toNat
  let l := laneOffs e (idx c s e).1
  laneChecks s c cap rightR e.w (l.map (·.2))
  .ok (cap, e.mask.toNat, l.flatMap fun o => unitsAt (o.2 % e.w == 0) (cap.base + o.2) e.w)

/-- A load of lanes (R152, R153): each element, or byte of one that is not aligned, is a read of its own (R269). Variable latency; the inactive
lanes are zero in the ring. -/
def vecLoad (u : VUnit) (x : Bool) (v : BitVec 5) (k : BitVec 3) (cls : Nat) (idx : LaneIdx) (names : List Nat) (c : Ctx) (s : State) :
    Except Stop State := do
  let (s, mask, data) ← readIn u.slot (accessV s c u cls) (laneUnits u x v k cls idx names) c s
  let e := { venv s c u.slot with mask := BitVec.ofNat 512 mask }
  let lanes := (List.range e.n).filter e.active
  let row := (lanes.zip (chunks lanes.length e.w data)).foldl (fun r o => setBits r (8 * e.w * o.1) (8 * e.w) (ofBytes o.2)) (0 : Row)
  .ok (s.launch { rowFly e c u x v 1 (idx c s e).2 e.bytes (⟨.bits row, row, e.w, []⟩) with var := true })

/-- Data without the writes that a later one of the same offset replaces. -/
def lastWrites (l : List (Nat × Byte)) : List (Nat × Byte) :=
  l.foldr (fun x t => if t.any fun y => y.1 == x.1 then t else x :: t) []

/-- A store of lanes (R152, R153): held on path V, each element, or byte of one that is not aligned, a unit (R269). -/
def vecStore (u : VUnit) (v : BitVec 5) (k c3 : BitVec 3) (idx : LaneIdx) (names : List Nat) (c : Ctx) (s : State) : Except Stop State := do
  vecGate s c (v.toNat :: names) []
  let e := venv s c u.slot
  let cap := readK s c u.slot k.toNat
  let offs := idx c s e
  let l := laneOffs e offs.1
  laneChecks s c cap rightW e.w (l.map (·.2))
  let row := vRow s c u.slot v.toNat
  let data := lastWrites (l.flatMap fun o => atOffsets (cap.base + o.2) (toBytes e.w (elemAt e.w row o.1)))
  let s := l.foldl (fun s o => touch s cap.obj (cap.base + o.2) e.w 0) s
  let s := s.launch { Fly.nil u.slot c.pos 1 with flags := if e.any then offs.2 else 0 }
  if data.isEmpty then .ok s
  else holdFenced s c {
    path := .v, cls := c3.toNat, rel := false, scope := 0, group := c.group, slot := u.slot, pos := c.pos, cap := cap, off := 0, len := 0, fold := none,
    cmd := none, tile := none, op := .bytes data, unit := if l.all fun o => o.2 % e.w == 0 then e.w else 1 }

/-- The lanes' offsets of `vld` and `vst` (Table 8.9). -/
def rowOffset (u : VUnit) (o : BitVec 6) (c : Ctx) (s : State) (e : VEnv) : List Nat × Flags :=
  ((List.range e.n).map fun i => (readInt s c u.slot o).toNat + e.w * i, 0)
/-- The lanes' offsets of `vgath` and `vscat`: a literal index is converted, with its flags (R58, Table 6.2). -/
def idxOffset (u : VUnit) (v : BitVec 6) (c : Ctx) (s : State) (e : VEnv) : List Nat × Flags :=
  let p := readV s c e u.slot v
  (p.pats.map fun p => e.w * p, p.flags)

/-- `vld`. -/
def execVld (u : VUnit) (x : Bool) (v : BitVec 5) (o : BitVec 6) (k c : BitVec 3) (s : State) : Host.Outcome State Fault Refusal :=
  slotOp (.vld u x v o k c) (vecLoad u x v k c.toNat (rowOffset u o) []) s

/-- `vst`. -/
def execVst (u : VUnit) (v : BitVec 5) (o : BitVec 6) (k c : BitVec 3) (s : State) : Host.Outcome State Fault Refusal :=
  slotOp (.vst u v o k c) (vecStore u v k c (rowOffset u o) []) s

/-- `vgath`. -/
def execVgath (u : VUnit) (x : Bool) (v : BitVec 5) (i : BitVec 6) (k c : BitVec 3) (s : State) : Host.Outcome State Fault Refusal :=
  slotOp (.vgath u x v i k c) (vecLoad u x v k c.toNat (idxOffset u i) (vNames [i])) s

/-- `vscat`. -/
def execVscat (u : VUnit) (v : BitVec 5) (i : BitVec 6) (k c : BitVec 3) (s : State) : Host.Outcome State Fault Refusal :=
  slotOp (.vscat u v i k c) (vecStore u v k c (idxOffset u i) (vNames [i])) s

/-! ### Codebook expansion (R92, R154, R155) -/

/-- Whether an operation is a `vlut`. -/
def isVlut : Instr → Bool
  | .vlut _ _ _ _ _ => true
  | _ => false
/-- Whether an operation is a `vlut.ld`. -/
def isVlutLd : Instr → Bool
  | .vlutLd _ _ _ => true
  | _ => false

/-- `vlut`: 64 index bytes expand to 256 halves; the `vlut.ld` of an earlier position comes first. -/
def execVlut (u : VUnit) (x : Bool) (d : BitVec 5) (a : BitVec 6) (q : BitVec 3) (s : State) : Host.Outcome State Fault Refusal :=
  slotOp (.vlut u x d a q) (fun c s => do
    if c.beforeIt isVlutLd then .error .wait
    let late ← rowGate u s c (vNames [a]) (dstOf x d)
    let e := venv s c u.slot
    let p := readV s c e u.slot a
    let row := if 0x20 ≤ a.toNat ∧ a.toNat < 0x28 then ringRow c (ringW s c u.slot (a.toNat - 0x20)) else rowOf e.w p.pats
    let lut := (s.core s.turn).lut
    let r := rowOf 8 ((List.range 64).map fun k => bits lut (64 * elemAt 1 row (64 * q.toNat + k)) 64)
    .ok (s.launchRow late (rowFly e c u x d 6 p.flags e.bytes ⟨.bits r, r, e.w, []⟩))) s

/-- Whether a `vlut` of this position or an earlier one has still to issue: it uses the codebook as it stands (R154). -/
def Ctx.vlutLeft (c : Ctx) : Bool :=
  (c.bundles.filter fun b => decide (b.pos ≤ c.pos)).any fun b =>
    [Slot.va, .vb].any fun y => b.issue.awaits y && (issuing b.issue.bits y).any isVlut

/-- `vlut.ld`: the 2,048 bytes, which take effect together. -/
def execVlutLd (k : BitVec 3) (c : BitVec 4) (blk : BitVec 11) (s : State) : Host.Outcome State Fault Refusal :=
  slotOp (.vlutLd k c blk) (fun x s => do
    let r := readAct s.turn x .cf .p c.toNat 0 0 0
    let (s, _, l) ← readIn .cf r (fun x s => do
      if x.fenced r || x.vlutLeft then .error .wait
      let cap := readK s x .cf k.toNat
      let off := 2048 * blk.toNat
      laneChecks s x cap rightR 2048 [off]
      .ok (cap, 0, unitsAt false (cap.base + off) 2048)) x s
    .ok (s.modCore s.turn fun y => { y with lut := BitVec.ofNat 16384 (ofBytes l) })) s

/-! ### Special functions (R156) -/

/-- A special function of one operand: under an integer type the result converts to the lane's type (R112). -/
def special1 (x : Bool) (fn : Fmt → RM → FV → FV × Flags) (e : VEnv) (a : VOp) : VRes :=
  match tyFmt e.t with
  | some f => fpRes e x e.t f ((a.fps f).map (fn (if (e.ctl x).chain then .chain else f) (e.mode x)))
  | none =>
    let l := (a.vals e).map fun v =>
      let r := fn .chain e.rm v
      let z := fvToInt e.rm (-(2 ^ (8 * e.w - 1) : Nat)) (2 ^ (8 * e.w - 1) - 1 : Nat) r.1
      (z.1, r.2 ||| z.2)
    { intRes e.w (l.map (·.1)) with flags := l.map (·.2) }

/-- `vexp2`. -/
def execVexp2 (x : Bool) (d : BitVec 5) (a : BitVec 6) (s : State) : Host.Outcome State Fault Refusal :=
  slotOp (.vexp2 x d a) (vec1 .vb x d a 8 (special1 x fvExp2)) s

/-- `vlog2`. -/
def execVlog2 (x : Bool) (d : BitVec 5) (a : BitVec 6) (s : State) : Host.Outcome State Fault Refusal :=
  slotOp (.vlog2 x d a) (vec1 .vb x d a 8 (special1 x fvLog2)) s

/-- `vrcp`. -/
def execVrcp (x : Bool) (d : BitVec 5) (a : BitVec 6) (s : State) : Host.Outcome State Fault Refusal :=
  slotOp (.vrcp x d a) (vec1 .vb x d a 8 (special1 x fun _ _ v => fvDiv (.fin false 1 0) v)) s

/-- `vrsqrt`. -/
def execVrsqrt (x : Bool) (d : BitVec 5) (a : BitVec 6) (s : State) : Host.Outcome State Fault Refusal :=
  slotOp (.vrsqrt x d a) (vec1 .vb x d a 8 (special1 x fun _ _ v => fvRsqrt v)) s

/-- `vsqrt`. -/
def execVsqrt (x : Bool) (d : BitVec 5) (a : BitVec 6) (s : State) : Host.Outcome State Fault Refusal :=
  slotOp (.vsqrt x d a) (vec1 .vb x d a 8 (special1 x fun _ _ v => fvSqrt v)) s

/-- `vtanh`. -/
def execVtanh (x : Bool) (d : BitVec 5) (a : BitVec 6) (s : State) : Host.Outcome State Fault Refusal :=
  slotOp (.vtanh x d a) (vec1 .vb x d a 8 (special1 x fvTanh)) s

/-- `verf`. -/
def execVerf (x : Bool) (d : BitVec 5) (a : BitVec 6) (s : State) : Host.Outcome State Fault Refusal :=
  slotOp (.verf x d a) (vec1 .vb x d a 8 (special1 x fvErf)) s

/-- `vsigm`. -/
def execVsigm (x : Bool) (d : BitVec 5) (a : BitVec 6) (s : State) : Host.Outcome State Fault Refusal :=
  slotOp (.vsigm x d a) (vec1 .vb x d a 8 (special1 x fvSigm)) s

/-- `vdiv`. -/
def divRes (x : Bool) (e : VEnv) (a b : VOp) : VRes :=
  match tyFmt e.t with
  | some f => fpRes e x e.t f (List.zipWith fvDiv (a.fps f) (b.fps f))
  | none =>
    let l := List.zipWith (fun p q =>
      let r := fvDiv p q
      let z := fvToInt e.rm (-(2 ^ (8 * e.w - 1) : Nat)) (2 ^ (8 * e.w - 1) - 1 : Nat) r.1
      (z.1, r.2 ||| z.2)) (a.vals e) (b.vals e)
    { intRes e.w (l.map (·.1)) with flags := l.map (·.2) }

/-- `vdiv`. -/
def execVdiv (x : Bool) (d : BitVec 5) (a b : BitVec 6) (s : State) : Host.Outcome State Fault Refusal :=
  slotOp (.vdiv x d a b) (vec2 .vb x d a b 8 (divRes x)) s

/-! ### The vector state (R157 to R159) -/

/-- `vt.set`. -/
def execVtSet (t : BitVec 3) (s : State) : Host.Outcome State Fault Refusal :=
  slotOp (.vtSet t) (fun c s => .ok (s.modCur fun x => { x with vtypeQ := (c.pos, t.setWidth 32) :: x.vtypeQ })) s

/-- `vwin.set`. -/
def execVwinSet (b : Bool) (q : BitVec 2) (s : State) : Host.Outcome State Fault Refusal :=
  slotOp (.vwinSet b q) (fun c s =>
    .ok (s.modCur fun x => { x with vwinQ := (c.pos, BitVec.ofNat 32 (4 * b2n b + q.toNat)) :: x.vwinQ })) s

/-- `vact.set`. -/
def execVactSet (m : BitVec 2) (s : State) : Host.Outcome State Fault Refusal :=
  slotOp (.vactSet m) (fun c s => .ok (s.modCur fun x => { x with vactQ := (c.pos, m.setWidth 32) :: x.vactQ })) s

/-- The control fields that `fpc.set` writes, as `FPCTL` [4:0]. -/
def fpcValue (so ws st : Bool) (rm : BitVec 2) : BitVec 5 := BitVec.ofNat 5 (16 * b2n so + 8 * b2n ws + 4 * b2n st + rm.toNat)

/-- A write of the control fields (R27). -/
def writeControl (pos : Nat) (v : BitVec 5) (c : Ctx) : Ctx := { c with fpcQ := (pos, v) :: c.fpcQ }

/-- `fpc.set` with WF and WC equal (R158). -/
def execFpcSet (wf wc : Bool) (fl : BitVec 5) (so ws st : Bool) (rm : BitVec 2) (s : State) : Host.Outcome State Fault Refusal :=
  slotOp (.fpcSet wf wc fl so ws st rm) (fun c s => .ok (s.modCur fun x =>
    let x := if wc then writeControl c.pos (fpcValue so ws st rm) x else x
    if wf then x.setFlags fl else x)) s

/-- `fpc.set.c`. -/
def execFpcSetC (so ws st : Bool) (rm : BitVec 2) (s : State) : Host.Outcome State Fault Refusal :=
  slotOp (.fpcSetC so ws st rm) (fun c s => .ok (s.modCur (writeControl c.pos (fpcValue so ws st rm)))) s

/-- `fpc.set.f`. -/
def execFpcSetF (fl : BitVec 5) (s : State) : Host.Outcome State Fault Refusal :=
  slotOp (.fpcSetF fl) (fun _ s => .ok (s.modCur fun x => x.setFlags fl)) s

/-- `amax.clr`. -/
def execAmaxClr (s : State) : Host.Outcome State Fault Refusal :=
  slotOp .amaxClr (fun _ s => .ok (s.modCur fun x => x.clearAmax)) s

end Sys2Proof.Machine
end

