-- ==== Sys2Proof/Machine/Dispatch.lean ====
section
/-! DEFINITION. What an instruction does: one direct call of its meaning for each constructor. -/

namespace Sys2Proof.Machine
open Sys2Proof

/-- The effect of an instruction on the machine (R60). -/
def exec (i : Instr) (s : State) : Host.Outcome State Fault Refusal :=
  match i with
  | .nop sl => Sys2Proof.Machine.execNop sl s
  | .br disp => Sys2Proof.Machine.execBr disp s
  | .jmp a0 => Sys2Proof.Machine.execJmp a0 s
  | .call disp => Sys2Proof.Machine.execCall disp s
  | .callr a0 => Sys2Proof.Machine.execCallr a0 s
  | .ret => Sys2Proof.Machine.execRet s
  | .loop l c e => Sys2Proof.Machine.execLoop l c e s
  | .bktJmp c xs tdisp np => Sys2Proof.Machine.execBktJmp c xs tdisp np s
  | .park xs mask => Sys2Proof.Machine.execPark xs mask s
  | .exit => Sys2Proof.Machine.execExit s
  | .spawn k o p => Sys2Proof.Machine.execSpawn k o p s
  | .waitw k xs o cond w64 scope v => Sys2Proof.Machine.execWaitw k xs o cond w64 scope v s
  | .wakew k xs o scope n => Sys2Proof.Machine.execWakew k xs o scope n s
  | .foldArrive fid => Sys2Proof.Machine.execFoldArrive fid s
  | .foldWait fid => Sys2Proof.Machine.execFoldWait fid s
  | .foldSync fid => Sys2Proof.Machine.execFoldSync fid s
  | .foldBytes c fid => Sys2Proof.Machine.execFoldBytes c fid s
  | .whWait a0 => Sys2Proof.Machine.execWhWait a0 s
  | .probe k w o l => Sys2Proof.Machine.execProbe k w o l s
  | .segMark => Sys2Proof.Machine.execSegMark s
  | .fence scope xs cmask => Sys2Proof.Machine.execFence scope xs cmask s
  | .fenceX scope paths => Sys2Proof.Machine.execFenceX scope paths s
  | .trap a code => Sys2Proof.Machine.execTrap a code s
  | .brk code => Sys2Proof.Machine.execBrk code s
  | .rfe => Sys2Proof.Machine.execRfe s
  | .ctxResumeRun a b => Sys2Proof.Machine.execCtxResumeRun a b s
  | .ctxResumePark a b => Sys2Proof.Machine.execCtxResumePark a b s
  | .ctxResumePre a b => Sys2Proof.Machine.execCtxResumePre a b s
  | .ctxKill a => Sys2Proof.Machine.execCtxKill a s
  | .ctxKillRun a => Sys2Proof.Machine.execCtxKillRun a s
  | .halt => Sys2Proof.Machine.execHalt s
  | .add u x d a b => Sys2Proof.Machine.execAdd u x d a b s
  | .sub u x d a b => Sys2Proof.Machine.execSub u x d a b s
  | .mul u x d a b => Sys2Proof.Machine.execMul u x d a b s
  | .mulh u x d a b => Sys2Proof.Machine.execMulh u x d a b s
  | .mulhu u x d a b => Sys2Proof.Machine.execMulhu u x d a b s
  | .div u x d a b => Sys2Proof.Machine.execDiv u x d a b s
  | .divu u x d a b => Sys2Proof.Machine.execDivu u x d a b s
  | .rem u x d a b => Sys2Proof.Machine.execRem u x d a b s
  | .remu u x d a b => Sys2Proof.Machine.execRemu u x d a b s
  | .and u x d a b => Sys2Proof.Machine.execAnd u x d a b s
  | .or u x d a b => Sys2Proof.Machine.execOr u x d a b s
  | .xor u x d a b => Sys2Proof.Machine.execXor u x d a b s
  | .andn u x d a b => Sys2Proof.Machine.execAndn u x d a b s
  | .orn u x d a b => Sys2Proof.Machine.execOrn u x d a b s
  | .xnor u x d a b => Sys2Proof.Machine.execXnor u x d a b s
  | .shl u x d a b => Sys2Proof.Machine.execShl u x d a b s
  | .shr u x d a b => Sys2Proof.Machine.execShr u x d a b s
  | .sar u x d a b => Sys2Proof.Machine.execSar u x d a b s
  | .rotr u x d a b => Sys2Proof.Machine.execRotr u x d a b s
  | .min u x d a b => Sys2Proof.Machine.execMin u x d a b s
  | .max u x d a b => Sys2Proof.Machine.execMax u x d a b s
  | .minu u x d a b => Sys2Proof.Machine.execMinu u x d a b s
  | .maxu u x d a b => Sys2Proof.Machine.execMaxu u x d a b s
  | .clz u x d a => Sys2Proof.Machine.execClz u x d a s
  | .ctz u x d a => Sys2Proof.Machine.execCtz u x d a s
  | .popc u x d a => Sys2Proof.Machine.execPopc u x d a s
  | .bswap u x d a => Sys2Proof.Machine.execBswap u x d a s
  | .bext u x d a b => Sys2Proof.Machine.execBext u x d a b s
  | .bins u d a b => Sys2Proof.Machine.execBins u d a b s
  | .addS2 u x d a b => Sys2Proof.Machine.execAddS2 u x d a b s
  | .addS3 u x d a b => Sys2Proof.Machine.execAddS3 u x d a b s
  | .sext u x d a b => Sys2Proof.Machine.execSext u x d a b s
  | .zext u x d a b => Sys2Proof.Machine.execZext u x d a b s
  | .mov u x d a => Sys2Proof.Machine.execMov u x d a s
  | .litHi u x d a b => Sys2Proof.Machine.execLitHi u x d a b s
  | .cmpEq u p a b => Sys2Proof.Machine.execCmpEq u p a b s
  | .cmpNe u p a b => Sys2Proof.Machine.execCmpNe u p a b s
  | .cmpLt u p a b => Sys2Proof.Machine.execCmpLt u p a b s
  | .cmpLtu u p a b => Sys2Proof.Machine.execCmpLtu u p a b s
  | .cmpLe u p a b => Sys2Proof.Machine.execCmpLe u p a b s
  | .cmpLeu u p a b => Sys2Proof.Machine.execCmpLeu u p a b s
  | .pand u p a b => Sys2Proof.Machine.execPand u p a b s
  | .por u p a b => Sys2Proof.Machine.execPor u p a b s
  | .pxor u p a b => Sys2Proof.Machine.execPxor u p a b s
  | .pnot u p a => Sys2Proof.Machine.execPnot u p a s
  | .tstBit u p a b => Sys2Proof.Machine.execTstBit u p a b s
  | .faddS x d a b => Sys2Proof.Machine.execFaddS x d a b s
  | .fsubS x d a b => Sys2Proof.Machine.execFsubS x d a b s
  | .fmulS x d a b => Sys2Proof.Machine.execFmulS x d a b s
  | .ffmaS x d a b => Sys2Proof.Machine.execFfmaS x d a b s
  | .fminS x d a b => Sys2Proof.Machine.execFminS x d a b s
  | .fmaxS x d a b => Sys2Proof.Machine.execFmaxS x d a b s
  | .fcmpLtS p a b => Sys2Proof.Machine.execFcmpLtS p a b s
  | .fcmpEqS p a b => Sys2Proof.Machine.execFcmpEqS p a b s
  | .fcvtSI x d a => Sys2Proof.Machine.execFcvtSI x d a s
  | .fcvtSIU x d a => Sys2Proof.Machine.execFcvtSIU x d a s
  | .fcvtIS x d a => Sys2Proof.Machine.execFcvtIS x d a s
  | .fcvtISU x d a => Sys2Proof.Machine.execFcvtISU x d a s
  | .fcvtISW x d a => Sys2Proof.Machine.execFcvtISW x d a s
  | .sysRd x d a => Sys2Proof.Machine.execSysRd x d a s
  | .sysWr a b => Sys2Proof.Machine.execSysWr a b s
  | .budRd x d => Sys2Proof.Machine.execBudRd x d s
  | .timeRd x d => Sys2Proof.Machine.execTimeRd x d s
  | .ldU8 r k o c => Sys2Proof.Machine.execLdU8 r k o c s
  | .ldS8 r k o c => Sys2Proof.Machine.execLdS8 r k o c s
  | .ldU16 r k o c => Sys2Proof.Machine.execLdU16 r k o c s
  | .ldS16 r k o c => Sys2Proof.Machine.execLdS16 r k o c s
  | .ldU32 r k o c => Sys2Proof.Machine.execLdU32 r k o c s
  | .ldS32 r k o c => Sys2Proof.Machine.execLdS32 r k o c s
  | .ld64 r k o c => Sys2Proof.Machine.execLd64 r k o c s
  | .ldAcq r k o scope => Sys2Proof.Machine.execLdAcq r k o scope s
  | .st8 r k o c => Sys2Proof.Machine.execSt8 r k o c s
  | .st16 r k o c => Sys2Proof.Machine.execSt16 r k o c s
  | .st32 r k o c => Sys2Proof.Machine.execSt32 r k o c s
  | .st64 r k o c => Sys2Proof.Machine.execSt64 r k o c s
  | .stRel r k o scope => Sys2Proof.Machine.execStRel r k o scope s
  | .ldk kd o c => Sys2Proof.Machine.execLdk kd o c s
  | .amoAdd r k xs w scope c v => Sys2Proof.Machine.execAmoAdd r k xs w scope c v s
  | .amoInc r k xs w scope c => Sys2Proof.Machine.execAmoInc r k xs w scope c s
  | .amoAnd r k xs w scope c v => Sys2Proof.Machine.execAmoAnd r k xs w scope c v s
  | .amoOr r k xs w scope c v => Sys2Proof.Machine.execAmoOr r k xs w scope c v s
  | .amoXor r k xs w scope c v => Sys2Proof.Machine.execAmoXor r k xs w scope c v s
  | .amoSmin r k xs w scope c v => Sys2Proof.Machine.execAmoSmin r k xs w scope c v s
  | .amoSmax r k xs w scope c v => Sys2Proof.Machine.execAmoSmax r k xs w scope c v s
  | .amoUmin r k xs w scope c v => Sys2Proof.Machine.execAmoUmin r k xs w scope c v s
  | .amoUmax r k xs w scope c v => Sys2Proof.Machine.execAmoUmax r k xs w scope c v s
  | .amoSwap r k xs w scope c v => Sys2Proof.Machine.execAmoSwap r k xs w scope c v s
  | .amoCas r k xs w scope c v cmp => Sys2Proof.Machine.execAmoCas r k xs w scope c v cmp s
  | .amoFadd r k xs w scope c v => Sys2Proof.Machine.execAmoFadd r k xs w scope c v s
  | .redAdd k xs w scope c v => Sys2Proof.Machine.execRedAdd k xs w scope c v s
  | .redInc k xs w scope c => Sys2Proof.Machine.execRedInc k xs w scope c s
  | .redAnd k xs w scope c v => Sys2Proof.Machine.execRedAnd k xs w scope c v s
  | .redOr k xs w scope c v => Sys2Proof.Machine.execRedOr k xs w scope c v s
  | .redXor k xs w scope c v => Sys2Proof.Machine.execRedXor k xs w scope c v s
  | .redSmin k xs w scope c v => Sys2Proof.Machine.execRedSmin k xs w scope c v s
  | .redSmax k xs w scope c v => Sys2Proof.Machine.execRedSmax k xs w scope c v s
  | .redUmin k xs w scope c v => Sys2Proof.Machine.execRedUmin k xs w scope c v s
  | .redUmax k xs w scope c v => Sys2Proof.Machine.execRedUmax k xs w scope c v s
  | .redFadd k xs w scope c v => Sys2Proof.Machine.execRedFadd k xs w scope c v s
  | .vadd u x d a b => Sys2Proof.Machine.execVadd u x d a b s
  | .vsub u x d a b => Sys2Proof.Machine.execVsub u x d a b s
  | .vmul u x d a b => Sys2Proof.Machine.execVmul u x d a b s
  | .vfma u x d a b => Sys2Proof.Machine.execVfma u x d a b s
  | .vfms u x d a b => Sys2Proof.Machine.execVfms u x d a b s
  | .vfnma u x d a b => Sys2Proof.Machine.execVfnma u x d a b s
  | .vmin u x d a b => Sys2Proof.Machine.execVmin u x d a b s
  | .vmax u x d a b => Sys2Proof.Machine.execVmax u x d a b s
  | .vabs u x d a => Sys2Proof.Machine.execVabs u x d a s
  | .vneg u x d a => Sys2Proof.Machine.execVneg u x d a s
  | .vmov u x d a => Sys2Proof.Machine.execVmov u x d a s
  | .vand u x d a b => Sys2Proof.Machine.execVand u x d a b s
  | .vor u x d a b => Sys2Proof.Machine.execVor u x d a b s
  | .vxor u x d a b => Sys2Proof.Machine.execVxor u x d a b s
  | .vnot u x d a => Sys2Proof.Machine.execVnot u x d a s
  | .vshl u x d a b => Sys2Proof.Machine.execVshl u x d a b s
  | .vshr u x d a b => Sys2Proof.Machine.execVshr u x d a b s
  | .vsar u x d a b => Sys2Proof.Machine.execVsar u x d a b s
  | .vcmpEq u m a b => Sys2Proof.Machine.execVcmpEq u m a b s
  | .vcmpNe u m a b => Sys2Proof.Machine.execVcmpNe u m a b s
  | .vcmpLt u m a b => Sys2Proof.Machine.execVcmpLt u m a b s
  | .vcmpLe u m a b => Sys2Proof.Machine.execVcmpLe u m a b s
  | .vsel u x d a b => Sys2Proof.Machine.execVsel u x d a b s
  | .vcvtTo u x d a t q => Sys2Proof.Machine.execVcvtTo u x d a t q s
  | .vcvtFrom u x d a t q => Sys2Proof.Machine.execVcvtFrom u x d a t q s
  | .vcvtSc u x d a a0 g q => Sys2Proof.Machine.execVcvtSc u x d a a0 g q s
  | .vredAdd u x d a b => Sys2Proof.Machine.execVredAdd u x d a b s
  | .vredMax u x d a b => Sys2Proof.Machine.execVredMax u x d a b s
  | .vredMin u x d a b => Sys2Proof.Machine.execVredMin u x d a b s
  | .vscanAdd u x d a b => Sys2Proof.Machine.execVscanAdd u x d a b s
  | .vbcast u x d a b => Sys2Proof.Machine.execVbcast u x d a b s
  | .vext u d a b => Sys2Proof.Machine.execVext u d a b s
  | .vperm u x d a b => Sys2Proof.Machine.execVperm u x d a b s
  | .vrot u x d a b => Sys2Proof.Machine.execVrot u x d a b s
  | .vpart u x d a xs cv msk cnt => Sys2Proof.Machine.execVpart u x d a xs cv msk cnt s
  | .vld u x v o k c => Sys2Proof.Machine.execVld u x v o k c s
  | .vst u v o k c => Sys2Proof.Machine.execVst u v o k c s
  | .vgath u x v idx k c => Sys2Proof.Machine.execVgath u x v idx k c s
  | .vscat u v idx k c => Sys2Proof.Machine.execVscat u v idx k c s
  | .vlut u x d a q => Sys2Proof.Machine.execVlut u x d a q s
  | .vmulhi x d a b => Sys2Proof.Machine.execVmulhi x d a b s
  | .vdot4 x d a b => Sys2Proof.Machine.execVdot4 x d a b s
  | .vamax x d a b => Sys2Proof.Machine.execVamax x d a b s
  | .vexp2 x d a => Sys2Proof.Machine.execVexp2 x d a s
  | .vlog2 x d a => Sys2Proof.Machine.execVlog2 x d a s
  | .vrcp x d a => Sys2Proof.Machine.execVrcp x d a s
  | .vrsqrt x d a => Sys2Proof.Machine.execVrsqrt x d a s
  | .vsqrt x d a => Sys2Proof.Machine.execVsqrt x d a s
  | .vtanh x d a => Sys2Proof.Machine.execVtanh x d a s
  | .verf x d a => Sys2Proof.Machine.execVerf x d a s
  | .vsigm x d a => Sys2Proof.Machine.execVsigm x d a s
  | .vdiv x d a b => Sys2Proof.Machine.execVdiv x d a b s
  | .vfloor x d a => Sys2Proof.Machine.execVfloor x d a s
  | .mma a b n z tb a0 => Sys2Proof.Machine.execMma a b n z tb a0 s
  | .maccClr n r c => Sys2Proof.Machine.execMaccClr n r c s
  | .maccLd t n r => Sys2Proof.Machine.execMaccLd t n r s
  | .maccSt t n r => Sys2Proof.Machine.execMaccSt t n r s
  | .mcancel m => Sys2Proof.Machine.execMcancel m s
  | .cpFill t k xb a c => Sys2Proof.Machine.execCpFill t k xb a c s
  | .cpDrain t k xb a c => Sys2Proof.Machine.execCpDrain t k xb a c s
  | .cpGath t k xb c => Sys2Proof.Machine.execCpGath t k xb c s
  | .cpScat t k xb c => Sys2Proof.Machine.execCpScat t k xb c s
  | .cpBcst t k xb c => Sys2Proof.Machine.execCpBcst t k xb c s
  | .cpRedFadd t k xb c => Sys2Proof.Machine.execCpRedFadd t k xb c s
  | .cpRedBf2Add t k xb c => Sys2Proof.Machine.execCpRedBf2Add t k xb c s
  | .cpRedIntAdd t k xb c => Sys2Proof.Machine.execCpRedIntAdd t k xb c s
  | .cpRedSmax t k xb c => Sys2Proof.Machine.execCpRedSmax t k xb c s
  | .cpRedUmax t k xb c => Sys2Proof.Machine.execCpRedUmax t k xb c s
  | .cpSelr t k xb c => Sys2Proof.Machine.execCpSelr t k xb c s
  | .cpSelc t k xb c => Sys2Proof.Machine.execCpSelc t k xb c s
  | .cpRmaPut t k xb c => Sys2Proof.Machine.execCpRmaPut t k xb c s
  | .cpRmaGet t k xb c => Sys2Proof.Machine.execCpRmaGet t k xb c s
  | .cpRamo t k xb c => Sys2Proof.Machine.execCpRamo t k xb c s
  | .cpGdrain t k xb c => Sys2Proof.Machine.execCpGdrain t k xb c s
  | .cpPmtGrant k xb c => Sys2Proof.Machine.execCpPmtGrant k xb c s
  | .cpPmtTake k xb c => Sys2Proof.Machine.execCpPmtTake k xb c s
  | .cpCancel t => Sys2Proof.Machine.execCpCancel t s
  | .cpCancelAll => Sys2Proof.Machine.execCpCancelAll s
  | .whFetchPred a0 => Sys2Proof.Machine.execWhFetchPred a0 s
  | .whFetchDem a0 => Sys2Proof.Machine.execWhFetchDem a0 s
  | .whDrop a0 => Sys2Proof.Machine.execWhDrop a0 s
  | .whPin a0 => Sys2Proof.Machine.execWhPin a0 s
  | .whUnpin a0 => Sys2Proof.Machine.execWhUnpin a0 s
  | .whQry a0 => Sys2Proof.Machine.execWhQry a0 s
  | .stg r a0 => Sys2Proof.Machine.execStg r a0 s
  | .stgLo r a0 => Sys2Proof.Machine.execStgLo r a0 s
  | .stgHi r a0 => Sys2Proof.Machine.execStgHi r a0 s
  | .ttDef t ts k => Sys2Proof.Machine.execTtDef t ts k s
  | .ttFree t => Sys2Proof.Machine.execTtFree t s
  | .ttBind t ts => Sys2Proof.Machine.execTtBind t ts s
  | .ttUnbind t => Sys2Proof.Machine.execTtUnbind t s
  | .ttMark t fid => Sys2Proof.Machine.execTtMark t fid s
  | .ttMarkWait t fid => Sys2Proof.Machine.execTtMarkWait t fid s
  | .ttMarkNofold t => Sys2Proof.Machine.execTtMarkNofold t s
  | .ttRd t h d => Sys2Proof.Machine.execTtRd t h d s
  | .fmtSet scm ofmt accf bf af => Sys2Proof.Machine.execFmtSet scm ofmt accf bf af s
  | .vtSet t => Sys2Proof.Machine.execVtSet t s
  | .vwinSet b q => Sys2Proof.Machine.execVwinSet b q s
  | .vactSet m => Sys2Proof.Machine.execVactSet m s
  | .fpcSet wf wc fl so ws st rm => Sys2Proof.Machine.execFpcSet wf wc fl so ws st rm s
  | .fpcSetC so ws st rm => Sys2Proof.Machine.execFpcSetC so ws st rm s
  | .fpcSetF fl => Sys2Proof.Machine.execFpcSetF fl s
  | .lendMx b => Sys2Proof.Machine.execLendMx b s
  | .lendVec b => Sys2Proof.Machine.execLendVec b s
  | .phase k t => Sys2Proof.Machine.execPhase k t s
  | .amaxClr => Sys2Proof.Machine.execAmaxClr s
  | .vlutLd k c blk => Sys2Proof.Machine.execVlutLd k c blk s
  | .kmov d a0 => Sys2Proof.Machine.execKmov d a0 s
  | .kderive d a0 xb => Sys2Proof.Machine.execKderive d a0 xb s
  | .krestrict d a0 keep => Sys2Proof.Machine.execKrestrict d a0 keep s
  | .kgetObj d a0 => Sys2Proof.Machine.execKgetObj d a0 s
  | .kgetBase d a0 => Sys2Proof.Machine.execKgetBase d a0 s
  | .kgetLen d a0 => Sys2Proof.Machine.execKgetLen d a0 s
  | .kgetRgt d a0 => Sys2Proof.Machine.execKgetRgt d a0 s
  | .kcheck p a0 xb need => Sys2Proof.Machine.execKcheck p a0 xb need s
  | .kclr d => Sys2Proof.Machine.execKclr d s
  | .kst k a0 o => Sys2Proof.Machine.execKst k a0 o s
  | .kld d k o => Sys2Proof.Machine.execKld d k o s
  | .kmint d xb => Sys2Proof.Machine.execKmint d xb s
  | .xlatSync => Sys2Proof.Machine.execXlatSync s
  | .pgReform k xb d => Sys2Proof.Machine.execPgReform k xb d s
  | .hresetWrite => Sys2Proof.Machine.execHresetWrite s
  | .foldloWrite => Sys2Proof.Machine.execFoldloWrite s
  | .foldhiWrite => Sys2Proof.Machine.execFoldhiWrite s
  | .spaceDescriptorWrite => Sys2Proof.Machine.execSpaceDescriptorWrite s
  | .localSpaceClearEnd => Sys2Proof.Machine.execLocalSpaceClearEnd s
  | .schcfgWrite => Sys2Proof.Machine.execSchcfgWrite s
  | .bundleCheck => Sys2Proof.Machine.execBundleCheck s
  | .budgetTrap => Sys2Proof.Machine.execBudgetTrap s
  | .trapDelivery => Sys2Proof.Machine.execTrapDelivery s
  | .mxCommandStart => Sys2Proof.Machine.execMxCommandStart s
  | .mmaRowFinal => Sys2Proof.Machine.execMmaRowFinal s
  | .mxCommandComplete => Sys2Proof.Machine.execMxCommandComplete s
  | .copySourceRead => Sys2Proof.Machine.execCopySourceRead s
  | .byteLanding => Sys2Proof.Machine.execByteLanding s
  | .copyCommandComplete => Sys2Proof.Machine.execCopyCommandComplete s
  | .atomicTile => Sys2Proof.Machine.execAtomicTile s
  | .groupDrainPerform => Sys2Proof.Machine.execGroupDrainPerform s
  | .groupDrainTimeout => Sys2Proof.Machine.execGroupDrainTimeout s
  | .spawnSlotReserve => Sys2Proof.Machine.execSpawnSlotReserve s
  | .porchSpill => Sys2Proof.Machine.execPorchSpill s
  | .put => Sys2Proof.Machine.execPut s
  | .get => Sys2Proof.Machine.execGet s
  | .getResponse => Sys2Proof.Machine.execGetResponse s
  | .fadd => Sys2Proof.Machine.execFadd s
  | .tail => Sys2Proof.Machine.execTail s
  | .permit => Sys2Proof.Machine.execPermit s
  | .ack => Sys2Proof.Machine.execAck s
  | .nak => Sys2Proof.Machine.execNak s
  | .messageResend => Sys2Proof.Machine.execMessageResend s
  | .connectionFail => Sys2Proof.Machine.execConnectionFail s
  | .frameReceive => Sys2Proof.Machine.execFrameReceive s
  | .portLinkDown => Sys2Proof.Machine.execPortLinkDown s
  | .flitCrcReplay => Sys2Proof.Machine.execFlitCrcReplay s
  | .linkRetrain => Sys2Proof.Machine.execLinkRetrain s
  | .permitLeaseExpiry => Sys2Proof.Machine.execPermitLeaseExpiry s
  | .droverRequestSend => Sys2Proof.Machine.execDroverRequestSend s
  | .handleFetchComplete => Sys2Proof.Machine.execHandleFetchComplete s
  | .handleFetchFail => Sys2Proof.Machine.execHandleFetchFail s
  | .handleEvictComplete => Sys2Proof.Machine.execHandleEvictComplete s
  | .pastureNonempty => Sys2Proof.Machine.execPastureNonempty s
  | .penMap => Sys2Proof.Machine.execPenMap s
  | .penRemap => Sys2Proof.Machine.execPenRemap s
  | .penClaim => Sys2Proof.Machine.execPenClaim s
  | .pickup => Sys2Proof.Machine.execPickup s
  | .recordReturn => Sys2Proof.Machine.execRecordReturn s
  | .wakeWithoutCause => Sys2Proof.Machine.execWakeWithoutCause s
  | .pinfoldWake => Sys2Proof.Machine.execPinfoldWake s
  | .sectorFill => Sys2Proof.Machine.execSectorFill s
  | .l2Writeback => Sys2Proof.Machine.execL2Writeback s
  | .writeQueueDrain => Sys2Proof.Machine.execWriteQueueDrain s
  | .phaseShrinkComplete => Sys2Proof.Machine.execPhaseShrinkComplete s
  | .phaseGrowComplete => Sys2Proof.Machine.execPhaseGrowComplete s
  | .uncorrectableError => Sys2Proof.Machine.execUncorrectableError s
  | .sramScrub => Sys2Proof.Machine.execSramScrub s
  | .hbmScrub => Sys2Proof.Machine.execHbmScrub s
  | .coreSelfTest => Sys2Proof.Machine.execCoreSelfTest s
  | .cellarMaintenance => Sys2Proof.Machine.execCellarMaintenance s
  | .arbiterInterval => Sys2Proof.Machine.execArbiterInterval s
  | .junctionOvertemp => Sys2Proof.Machine.execJunctionOvertemp s
  | .recorderAppend => Sys2Proof.Machine.execRecorderAppend s
  | .hubWatchdog => Sys2Proof.Machine.execHubWatchdog s
  | .coldReset => Sys2Proof.Machine.execColdReset s
  | .warmReset => Sys2Proof.Machine.execWarmReset s
  | .attestationRequest => Sys2Proof.Machine.execAttestationRequest s
  | .recorderFreezeRelease => Sys2Proof.Machine.execRecorderFreezeRelease s
  | .variableLatencyResult => Sys2Proof.Machine.execVariableLatencyResult s
  | .portLinkUp => Sys2Proof.Machine.execPortLinkUp s
  | .connectionReestablished => Sys2Proof.Machine.execConnectionReestablished s
  | .programmingSliceEnd => Sys2Proof.Machine.execProgrammingSliceEnd s
  | .recoveryExchange => Sys2Proof.Machine.execRecoveryExchange s
  | .hardwarePrefetch => Sys2Proof.Machine.execHardwarePrefetch s

end Sys2Proof.Machine
end

