-- ==== Sys2Proof/Machine/Step.lean ====
section
/-! DEFINITION. One step of the machine: an input from the world around the cores, or the next slot operation of the core that moves. -/

namespace Sys2Proof.Machine
open Sys2Proof

/-- A slot of the core that moves issues its part of the bundle in issue, once it may come to it (R40, R41); an operation whose guard does not
hold does nothing (R38), and one waits for the accesses that lagging slots have still to issue before its own (R271, R272). -/
def issueSlot (s : State) (sl : Slot) : Host.Outcome State Fault Refusal :=
  match arriveSlot s sl with
  | none => .next (markWaiting s).tick
  | some s =>
    match s.cur with
    | none => .next s.tick
    | some c =>
      match issuing c.bundle sl with
      | none => .next (finishSlot sl s).tick
      | some i =>
        if !guardHolds c sl then .next (finishSlot sl s).tick
        else if heldUp s sl then .next (markWaiting s).tick
        else exec i s

/-- The core that moves issues the first pending slot of the oldest bundle that a slot has still to issue. -/
def issueStep (s : State) : Host.Outcome State Fault Refusal :=
  match s.cur with
  | none => .next s.tick
  | some c =>
    match c.issue with
    | none => .next s.tick
    | some b =>
      match b.pending with
      | [] => .next (finishSlot .c s).tick
      | sl :: _ => issueSlot s sl

/-- A slot of a bundle in issue goes first, where it may: of the slots that a join covers, the first with an operation to issue (R39, R41). -/
def slotIn (s : State) (c : Ctx) (pos : Nat) (sl : Slot) : Host.Outcome State Fault Refusal :=
  let c := c.focus pos
  match c.issue with
  | none => .next s.tick
  | some i =>
    if (i.together sl).length ≠ 1 ∧ i.pending.find? (fun x => (i.together sl).contains x) ≠ some sl then .next s.tick
    else issueSlot (s.setCtx s.turn { c with issue := some { i with alone := true } }) sl

/-- The slot whose commit waits for room in a ring tries again; no other slot issues meanwhile (R319). -/
def retryCommit (s : State) (c : Ctx) (sl : Slot) : Host.Outcome State Fault Refusal :=
  match c.bundles.find? fun b => b.issue.awaits sl with
  | some b => slotIn s c b.pos sl
  | none => .next s.tick

/-- What goes on before the moving core's context does: the status words that its commands have still to write (R252), and the fences that have not completed
(R231). -/
def fenceStep (s : State) : Except Stop State :=
  let s := settleAll s s.turn
  match s.cur with
  | some c => if c.mode = .run ∧ c.doomed = none then pumpFences s s.turn else .ok s
  | none => .ok s

/-- What the core that moves does (R39): nothing while it holds no running context; a forced park that is due (R372); the budget trap where no bundle may issue any more
(R29); the next bundle, where none is in issue, with its first slot. While a fence's commit waits for room in a ring, it does nothing else (R319). -/
def coreGoes (s : State) : Host.Outcome State Fault Refusal :=
  match s.cur with
  | none => .next s.tick
  | some c =>
    if c.doomed.isSome then .next (doomStep s s.turn).tick
    else match c.mode, c.issue with
    | .resending n, _ => .next (resendStep s s.turn n c).tick
    | .aborting, _ => .next (abortWrite s s.turn).tick
    | .run, some _ =>
      if fenceShort s s.turn c then .next s.tick
      else match c.ringWait with
        | some sl => retryCommit s c sl
        | none => issueStep s
    | .run, none =>
      if fenceShort s s.turn c then .next s.tick
      else if c.parkAsked then .next (parkStep s s.turn).tick
      else if levelOf s.turn = Level.u ∧ c.budget = 0 then .next (budgetTrap s s.turn c).tick
      else issueStep (reachBundle s s.turn)
    | _, _ => .next s.tick

/-- A step of the core that moves. -/
def coreStep (s : State) : Host.Outcome State Fault Refusal := match fenceStep s with
  | .ok s' => coreGoes s'
  | .error (.fatal f) => .next (fatalLate s s.turn f).tick
  | .error (.after s' f) => .next (fatalLate s' s.turn f).tick
  | .error _ => coreGoes s

/-- The slot runs ahead to a bundle that no slot has reached (R40): not past a bundle that joins all slots, a due park (R48, R372) or the
budget (R29). -/
def slotAhead (s : State) (c : Ctx) (sl : Slot) : Host.Outcome State Fault Refusal :=
  match c.bundles.getLast? with
  | none => .next s.tick
  | some b =>
    if b.issue.join.length = 8 ∨ c.parkAsked = true ∨ (levelOf s.turn = Level.u ∧ c.budget = 0)
        ∨ (b.issue.together sl).any (b.issue.awaits ·) ∨ c.bundles.any (fun o => decide (o.pos + 16 ≤ b.after.1)) then .next s.tick
    else
      match reach s s.turn c b.after.2 with
      | (s', none) => .next s'.tick
      | (s', some w) =>
        let c := { c with pos := b.after.1, pc := b.after.2, slip := c.bundles, issue := none }
        let i := Issue.start c w
        let c := { c with issue := some { i with alone := true } }
        -- a slot that cannot come to it does not reach it yet
        if c.mayArrive (i.together sl) && (decide ((i.together sl).length = 1) || i.pending.find? (fun x => (i.together sl).contains x) == some sl)
        then issueSlot (s'.setCtx s.turn c) sl else .next s.tick

/-- The slot of the core that moves that an input has chosen issues its next bundle (R40, log 31): a step that it may not take changes nothing. -/
def slotStep (s : State) (sl : Slot) : Host.Outcome State Fault Refusal :=
  match s.cur with
  | none => .next s.tick
  | some c =>
    if c.doomed.isSome ∨ c.ringWait.any (· != sl) = true ∨ fenceShort s s.turn c = true then .next s.tick
    else match c.mode, c.issue with
    | .run, some _ =>
      match c.bundles.find? fun b => b.issue.awaits sl with
      | some b => slotIn s c b.pos sl
      | none => slotAhead s c sl
    | .run, none =>
      if c.parkAsked = true ∨ (levelOf s.turn = Level.u ∧ c.budget = 0) then .next s.tick
      else
        let s' := reachBundle s s.turn
        match s'.cur with
        | some c' => if c'.issue.isSome then slotIn s' c' c'.pos sl else .next s'.tick
        | none => .next s'.tick
    | _, _ => .next s.tick

/-- A scope race whose later operation is still to come touches a span of an object (R277): with an earlier operation that may be one of it, a read of the span may
return what was written since (log 84). -/
def State.foresee (s : State) (obj off len : Nat) : State :=
  if s.acts.any Act.syncs then { s with foreseen := s.foreseen ++ [(obj, off, len, s.acts.length)] } else s

/-- One step (log 2, log 3): the first input, where one is due, else the core that moves. A slot operation is no input. -/
def step (s : State) : Host.Outcome State Fault Refusal :=
  match s.inputs with
  | [] => coreStep s
  | .elapse n :: t => .next ({ s with inputs := t, time := s.time + n } : State).tick
  | .turn c :: t => .next ({ s with inputs := t, turn := c } : State).tick
  | .foresee o off n :: t => .next (State.foresee { s with inputs := t } o off n).tick
  | .slot sl :: t => slotStep { s with inputs := t } sl
  | .pause n :: t => .next ({ s with inputs := t, pause := n } : State).tick
  | .event i a :: t =>
    if i.slot = none then exec i { s with inputs := t, args := a } else .next ({ s with inputs := t } : State).tick

/-- The slot that reads a bare word as an operation (log 1). -/
def slotOfWord (w : BitVec 24) : Slot :=
  (tableOrder.find? fun sl => (decode sl (fun _ => 0) w).isSome).getD .c

/-- A core that may issue an operation (R14). -/
def coreFor (i : Instr) : Nat := if levelOk 0 i then 0 else if levelOk 288 i then 288 else 294

/-- The bundle that holds a word in a slot, with the slots that it names for literals set to zero literals. -/
def bundleOf (sl : Slot) (w : BitVec 24) : BitVec 256 :=
  let lits := match decode sl (fun _ => 0) w with
    | none => []
    | some i => litSources i ++ (match i.extSlot with | some x => [x.toNat] | none => [])
  BitVec.ofNat 256 (w.toNat * 2 ^ (64 + 24 * sl.idx) + lits.eraseDups.foldl (fun a k => a + 2 ^ (48 + k)) 0)

/-- The machine with a word's operation placed where the next step fetches a bundle: a core that may issue it runs a context whose code
object holds the bundle (log 1). -/
def State.withFetchWord (s : State) (_nbits w : Nat) : State :=
  let sl := slotOfWord (BitVec.ofNat 24 w)
  let core := match decode sl (fun _ => 0) (BitVec.ofNat 24 w) with
    | some i => coreFor i
    | none => 0
  -- object 1: one page of 64 KiB at physical 0x40000, of paddock 0, executable
  let s := { s with turn := core, inputs := [], otab := 0x10000 }
  let s := ((s.pokeNum 0x10040 8 0x20000).pokeNum 0x10048 8 0x10000).pokeNum 0x10058 8 0x901
  let s := ((s.pokeNum 0x20000 8 (2 ^ 63 + 0x21000)).pokeNum 0x21000 8 (2 ^ 63 + 0x22000)).pokeNum 0x22000 8 (7 * 2 ^ 61 + 4)
  let s := s.pokeNum 0x40000 32 (bundleOf sl (BitVec.ofNat 24 w)).toNat
  s.setCore core { Core.idle core with ctx := some { freshCtx with codeObj := 1, pc := 0, budget := 2 } }

end Sys2Proof.Machine
end

