-- ==== Sys2Proof/Safety.lean ====
section
/-! DEFINITION. What counts as a safe step, and how a slot operation completes, in the terms that statements use. -/

namespace Sys2Proof.Machine
open Sys2Proof

/-- A step that neither faults nor is refused. -/
def Runs (o : Host.Outcome State Fault Refusal) : Prop := ∃ t, o = .next t

/-- A step keeps a property of states: every next state has it. -/
def Keeps (P : State → Prop) : Prop := ∀ s t, P s → step s = .next t → P t

/-- The core that moves holds a running context with a bundle in issue, the context `c`. -/
def Issues (s : State) (c : Ctx) : Prop := s.cur = some c ∧ c.mode = .run ∧ c.issue.isSome = true

/-- The slot that an operation issues in. -/
def slotOf (i : Instr) : Slot := i.slot.getD .c

/-- The context as an operation finds it, after its interlocks (R45). -/
def ctxFor (i : Instr) (c : Ctx) : Ctx := c.interlock (slotOf i) i

/-- The machine as an operation finds it, after its interlocks (R45). -/
def stateFor (i : Instr) (s : State) (c : Ctx) : State := s.setCtx s.turn (ctxFor i c)

/-- An operation answers the next state in which its own effect, which gives `t`, has happened and its slot has issued it (R39). -/
def Completes (i : Instr) (s t : State) : Prop := exec i s = .next (finishSlot (slotOf i) t).tick

/-- In every state in which a bundle issues and whose operands meet `pre`, the operation answers a next state, and that state is the one
that its effect `eff` gives, with its slot issued. -/
def Does (i : Instr) (pre : Ctx → State → Prop) (eff : Ctx → State → State) : Prop :=
  ∀ s c, Issues s c → pre (ctxFor i c) (stateFor i s c) → Completes i s (eff (ctxFor i c) (stateFor i s c))

/-- In every state in which a bundle issues, the operation answers a next state, and that state is the one that its effect `eff` gives,
with its slot issued. -/
def AlwaysDoes (i : Instr) (eff : Ctx → State → State) : Prop := Does i (fun _ _ => True) eff

/-- A step of the hardware or of the outside answers the next state that its effect gives. -/
def Happens (i : Instr) (s t : State) : Prop := exec i s = .next t.tick

end Sys2Proof.Machine
end

