-- ==== Sys2Proof/Certificates/Slice0/Obligations.lean ====
section
/-! DEFINITION. What the provers are asked to prove: each statement formalises rules of the spec, which its docstring names. -/

namespace Sys2Proof.Claims
open Sys2Proof Sys2Proof.Machine

/-- A register result of a scalar slot (R44, R50, R59): register `d` unless the operation has `d` = 1, and the slot's ring. -/
def scalarResult (sl : Slot) (c : Ctx) (x : Bool) (d : BitVec 5) (lat : Nat) (v : Word) : Fly :=
  { slot := sl, pos := c.pos, due := c.pos + lat, var := false, done := false, divider := false,
    dst := if x then none else some (.s d.toNat, .word v (BitVec.allOnes 64)), ring := .b (.bits v), pushed := false,
    flags := 0, amax := 0, amaxNan := false }

/-- A predicate result (R123): no ring entry. -/
def predResult (sl : Slot) (c : Ctx) (p : BitVec 2) (lat : Nat) (v : Bool) (f : Flags) : Fly :=
  { slot := sl, pos := c.pos, due := c.pos + lat, var := false, done := false, divider := false,
    dst := some (.p p.toNat, .bit v), ring := .none, pushed := false, flags := f, amax := 0, amaxNan := false }

/-- A result of variable latency in a scalar register that enters the ring (R45, R50). -/
def variableResult (sl : Slot) (c : Ctx) (x : Bool) (d : BitVec 5) (v : Word) : Fly :=
  { scalarResult sl c x d 1 v with var := true }

/-- The operation gives `f` of its two sources, read at its issue. -/
def Gives2 (i : Instr) (x : Bool) (d : BitVec 5) (a b : BitVec 6) (lat : Nat) (f : Word → Word → Word) : Prop :=
  AlwaysDoes i fun c s =>
    s.launch (scalarResult (slotOf i) c x d lat (f (readInt s c (slotOf i) a) (readInt s c (slotOf i) b)))

/-- The operation gives `f` of its source, read at its issue, with latency 1. -/
def Gives1 (i : Instr) (x : Bool) (d : BitVec 5) (a : BitVec 6) (f : Word → Word) : Prop :=
  AlwaysDoes i fun c s => s.launch (scalarResult (slotOf i) c x d 1 (f (readInt s c (slotOf i) a)))

/-- The operation writes a predicate with latency 1. -/
def Tests (i : Instr) (p : BitVec 2) (a b : BitVec 6) (f : Word → Word → Bool) : Prop :=
  AlwaysDoes i fun c s =>
    s.launch (predResult (slotOf i) c p 1 (f (readInt s c (slotOf i) a) (readInt s c (slotOf i) b)) 0)

/-- The division of a slot (R122): it finds every earlier division of its slot complete, and its result has variable latency. -/
def Divides (i : Instr) (x : Bool) (d : BitVec 5) (a b : BitVec 6) (f : Word → Word → Word) : Prop :=
  (∀ c : Ctx, ∀ w ∈ (ctxFor i c).fly, w.divider = true → w.var = true → w.slot = slotOf i → w.done = true)
  ∧ AlwaysDoes i fun c s =>
    s.launch { variableResult (slotOf i) c x d (f (readInt s c (slotOf i) a) (readInt s c (slotOf i) b)) with divider := true }

end Sys2Proof.Claims

open Sys2Proof Sys2Proof.Machine Sys2Proof.Claims

/-- R116, Table 7.1 without its divisions: each operation runs in every state in which its bundle issues, with the value and the latency of
the table; the value enters register `d` (unless `d` = 1) and the ring. -/
def Sys2Proof.Claims.IntegerResults : Prop := ∀ (u : IUnit) (x : Bool) (d : BitVec 5) (a b : BitVec 6),
  Gives2 (.add u x d a b) x d a b 1 (fun a b => BitVec.ofNat 64 (a.toNat + b.toNat))
  ∧ Gives2 (.sub u x d a b) x d a b 1 (fun a b => BitVec.ofInt 64 (a.toNat - b.toNat))
  ∧ Gives2 (.mul u x d a b) x d a b 3 (fun a b => BitVec.ofNat 64 (a.toNat * b.toNat))
  ∧ Gives2 (.mulh u x d a b) x d a b 3 (fun a b => BitVec.ofInt 64 (a.toInt * b.toInt / 2 ^ 64))
  ∧ Gives2 (.mulhu u x d a b) x d a b 3 (fun a b => BitVec.ofNat 64 (a.toNat * b.toNat / 2 ^ 64))
  ∧ Gives2 (.and u x d a b) x d a b 1 (fun a b => a &&& b)
  ∧ Gives2 (.or u x d a b) x d a b 1 (fun a b => a ||| b)
  ∧ Gives2 (.xor u x d a b) x d a b 1 (fun a b => a ^^^ b)
  ∧ Gives2 (.andn u x d a b) x d a b 1 (fun a b => a &&& ~~~b)
  ∧ Gives2 (.orn u x d a b) x d a b 1 (fun a b => a ||| ~~~b)
  ∧ Gives2 (.xnor u x d a b) x d a b 1 (fun a b => ~~~(a ^^^ b))
  ∧ Gives2 (.shl u x d a b) x d a b 1 (fun a b => BitVec.ofNat 64 (a.toNat * 2 ^ (b.toNat % 64)))
  ∧ Gives2 (.shr u x d a b) x d a b 1 (fun a b => BitVec.ofNat 64 (a.toNat / 2 ^ (b.toNat % 64)))
  ∧ Gives2 (.sar u x d a b) x d a b 1 (fun a b => BitVec.ofInt 64 (a.toInt / 2 ^ (b.toNat % 64)))
  ∧ Gives2 (.rotr u x d a b) x d a b 1 (fun a b => (a >>> (b.toNat % 64)) ||| (a <<< ((64 - b.toNat % 64) % 64)))
  ∧ Gives2 (.min u x d a b) x d a b 1 (fun a b => BitVec.ofInt 64 (min a.toInt b.toInt))
  ∧ Gives2 (.max u x d a b) x d a b 1 (fun a b => BitVec.ofInt 64 (max a.toInt b.toInt))
  ∧ Gives2 (.minu u x d a b) x d a b 1 (fun a b => BitVec.ofNat 64 (min a.toNat b.toNat))
  ∧ Gives2 (.maxu u x d a b) x d a b 1 (fun a b => BitVec.ofNat 64 (max a.toNat b.toNat))
  ∧ Gives2 (.addS2 u x d a b) x d a b 1 (fun a b => BitVec.ofNat 64 (a.toNat + 4 * b.toNat))
  ∧ Gives2 (.addS3 u x d a b) x d a b 1 (fun a b => BitVec.ofNat 64 (a.toNat + 8 * b.toNat))

/-- R117 and Table 7.2: `clz` and `ctz` count zero bits, `popc` one bits, `bswap` reverses the bytes and `mov` copies, with latency 1. -/
def Sys2Proof.Claims.OneOperandResults : Prop := ∀ (u : IUnit) (x : Bool) (d : BitVec 5) (a : BitVec 6),
  Gives1 (.clz u x d a) x d a (fun a => BitVec.ofNat 64 (64 - (if a = 0 then 0 else a.toNat.log2 + 1)))
  ∧ Gives1 (.ctz u x d a) x d a (fun a => BitVec.ofNat 64 (((List.range 64).find? fun i => a.getLsbD i).getD 64))
  ∧ Gives1 (.popc u x d a) x d a (fun a => BitVec.ofNat 64 ((List.range 64).countP fun i => a.getLsbD i))
  ∧ Gives1 (.bswap u x d a) x d a (fun a => BitVec.ofNat 64 ((List.range 8).foldl (fun n i => n * 256 + a.toNat / 256 ^ i % 256) 0))
  ∧ Gives1 (.mov u x d a) x d a (fun a => a)

/-- R118, R120 and R121: the fields that `bext`, `bins`, `sext`, `zext` and `lit.hi` take and give; `bins` reads its destination register
at issue, like a source. -/
def Sys2Proof.Claims.FieldResults : Prop := ∀ (u : IUnit) (x : Bool) (d : BitVec 5) (a b : BitVec 6),
  Gives2 (.bext u x d a b) x d a b 1 (fun a b => BitVec.ofNat 64 (a.toNat / 2 ^ (b.toNat % 64) % 2 ^ (b.toNat / 256 % 64 + 1)))
  ∧ AlwaysDoes (.bins u d a b) (fun c s =>
      let av := readInt s c u.slot a
      let bv := readInt s c u.slot b
      let mask := BitVec.ofNat 64 ((2 ^ (bv.toNat / 256 % 64 + 1) - 1) * 2 ^ (bv.toNat % 64))
      let new := BitVec.ofNat 64 (av.toNat % 2 ^ (bv.toNat / 256 % 64 + 1) * 2 ^ (bv.toNat % 64))
      s.launch (scalarResult u.slot c false d 1 ((readS s c u.slot d.toNat &&& ~~~mask) ||| new)))
  ∧ Gives2 (.sext u x d a b) x d a b 1 (fun a b =>
      let n := if b.toNat % 64 = 0 then 64 else b.toNat % 64
      BitVec.ofInt 64 (if a.toNat % 2 ^ n < 2 ^ (n - 1) then (a.toNat % 2 ^ n : Nat) else (a.toNat % 2 ^ n : Nat) - (2 ^ n : Nat)))
  ∧ Gives2 (.zext u x d a b) x d a b 1 (fun a b =>
      BitVec.ofNat 64 (a.toNat % 2 ^ (if b.toNat % 64 = 0 then 64 else b.toNat % 64)))
  ∧ Gives2 (.litHi u x d a b) x d a b 1 (fun a b => BitVec.ofNat 64 (a.toNat * 2 ^ 24 + b.toNat % 2 ^ 24))

/-- R117 to R121: the operations of one operand and those on fields. -/
def Obligations.OneOperandAndFieldResults : Prop := Claims.OneOperandResults ∧ Claims.FieldResults

/-- R122 and Table 6.6: the divisions run with every pair of operands, division by zero and the most negative dividend by −1 included. -/
def Sys2Proof.Claims.DivisionResults : Prop := ∀ (u : IUnit) (x : Bool) (d : BitVec 5) (a b : BitVec 6),
  Divides (.div u x d a b) x d a b (fun a b =>
    if b.toNat = 0 then BitVec.ofInt 64 (-1)
    else if a.toInt = -(2 ^ 63) ∧ b.toInt = -1 then a else BitVec.ofInt 64 (a.toInt.tdiv b.toInt))
  ∧ Divides (.divu u x d a b) x d a b (fun a b =>
    if b.toNat = 0 then BitVec.ofNat 64 (2 ^ 64 - 1) else BitVec.ofNat 64 (a.toNat / b.toNat))
  ∧ Divides (.rem u x d a b) x d a b (fun a b =>
    if b.toNat = 0 then a else if a.toInt = -(2 ^ 63) ∧ b.toInt = -1 then 0 else BitVec.ofInt 64 (a.toInt.tmod b.toInt))
  ∧ Divides (.remu u x d a b) x d a b (fun a b => if b.toNat = 0 then a else BitVec.ofNat 64 (a.toNat % b.toNat))

/-- R116, R122: the integer operations of Table 7.1, the divisions included. -/
def Obligations.IntegerAndDivisionResults : Prop := Claims.IntegerResults ∧ Claims.DivisionResults

/-- R123, R124, Tables 7.3 and 7.4: compares and predicate logic write their predicate with latency 1 and leave the ring unchanged. -/
def Obligations.PredicateResults : Prop := ∀ (u : IUnit) (p : BitVec 2) (a b : BitVec 6),
  Tests (.cmpEq u p a b) p a b (fun a b => decide (a = b))
  ∧ Tests (.cmpNe u p a b) p a b (fun a b => decide (a ≠ b))
  ∧ Tests (.cmpLt u p a b) p a b (fun a b => decide (a.toInt < b.toInt))
  ∧ Tests (.cmpLtu u p a b) p a b (fun a b => decide (a.toNat < b.toNat))
  ∧ Tests (.cmpLe u p a b) p a b (fun a b => decide (a.toInt ≤ b.toInt))
  ∧ Tests (.cmpLeu u p a b) p a b (fun a b => decide (a.toNat ≤ b.toNat))
  ∧ Tests (.pand u p a b) p a b (fun a b => decide (a ≠ 0 ∧ b ≠ 0))
  ∧ Tests (.por u p a b) p a b (fun a b => decide (a ≠ 0 ∨ b ≠ 0))
  ∧ Tests (.pxor u p a b) p a b (fun a b => decide ((a ≠ 0) ≠ (b ≠ 0)))
  ∧ Tests (.tstBit u p a b) p a b (fun a b => decide (a.toNat / 2 ^ (b.toNat % 64) % 2 = 1))
  ∧ AlwaysDoes (.pnot u p a) (fun c s => s.launch (predResult u.slot c p 1 (decide (readInt s c u.slot a = 0)) 0))

namespace Sys2Proof.Claims

/-- The magnitude of a rational. -/
def mag (x : Rat) : Rat := if x < 0 then -x else x

/-- The number `(-1)^neg × m × 2^e`. -/
def number (neg : Bool) (m : Nat) (e : Int) : Rat := (if neg then -1 else 1) * (m : Rat) * 2 ^ e

/-- A finite value has a sign and a number; a zero has its sign too. -/
def Equals (v : FV) (neg : Bool) (x : Rat) : Prop := ∃ m e, v = .fin neg m e ∧ number neg m e = x

/-- The multiple `y` of `2^q` is the one that a mode takes for `x` (R96): the nearest, a tie going to the even one; the nearest toward zero, toward +∞
and toward −∞. -/
def RoundsOn (rm : RM) (q : Int) (x y : Rat) : Prop := ∃ n : Int, y = (n : Rat) * 2 ^ q
  ∧ (rm = 0 → 2 * mag (x - y) ≤ 2 ^ q ∧ (2 * mag (x - y) = 2 ^ q → n % 2 = 0))
  ∧ (rm = 1 → 0 ≤ x * y ∧ mag y ≤ mag x ∧ mag x - mag y < 2 ^ q)
  ∧ (rm = 2 → x ≤ y ∧ y - x < 2 ^ q)
  ∧ (rm = 3 → y ≤ x ∧ x - y < 2 ^ q)

/-- Of a format (Tables 5.1, 5.2, R101): the bits of its precision, the exponent of its smallest normal magnitude, and its largest finite magnitude. -/
def limits : Fmt → Nat × Int × Rat
  | .fp32 => (24, -126, (2 ^ 24 - 1) * 2 ^ 104)
  | .bf16 => (8, -126, (2 ^ 8 - 1) * 2 ^ 120)
  | .fp16 => (11, -14, 65504)
  | .e4m3 => (4, -6, 448)
  | .e5m2 => (3, -14, 57344)
  | .e3m2 => (3, -2, 28)
  | .e2m3 => (4, 0, 15 / 2)
  | .e2m1 => (2, 0, 6)
  | .chain => (48, -1022, (2 ^ 48 - 1) * 2 ^ 976)

/-- The value of an overflow (Table 6.1): ±largest finite where the format saturates or where the mode rounds toward zero or toward the opposite
infinity; else ±∞, and the NaN of E4M3. -/
def OverflowIs (f : Fmt) (rm : RM) (sat neg : Bool) (v : FV) : Prop :=
  let away := rm = 0 ∨ (rm = 2 ∧ neg = false) ∨ (rm = 3 ∧ neg = true)
  let stays := f ∈ [Fmt.e3m2, .e2m3, .e2m1] ∨ (f ∈ [Fmt.e4m3, .e5m2] ∧ sat = true) ∨ ¬ away
  (stays → Equals v neg ((if neg then -1 else 1) * (limits f).2.2))
  ∧ (¬ stays → v = if f = .e4m3 then .nan false else .inf neg)

/-- R80 to R82, Tables 5.1 and 5.2: a pattern of a format with `m` mantissa bits, `b` the bias, has the number of R80, and the patterns of infinities
and NaNs are those of Table 5.2; a value that rounding gives is read back from its pattern, and a NaN has the canonical pattern. -/
def PatternsHaveValues : Prop :=
  (∀ x ∈ [(Fmt.fp32, 23, 8, 127), (.bf16, 7, 8, 127), (.fp16, 10, 5, 15), (.e4m3, 3, 4, 7), (.e5m2, 2, 5, 15), (.e3m2, 2, 3, 3), (.e2m3, 3, 2, 1),
      (.e2m1, 1, 2, 1)], ∀ s M E, s < 2 → M < 2 ^ x.2.1 → E < 2 ^ x.2.2.1 →
    let v := unpack x.1 (s * 2 ^ (x.2.1 + x.2.2.1) + E * 2 ^ x.2.1 + M)
    let top := x.1 ∈ [Fmt.fp32, .bf16, .fp16, .e5m2] ∧ E = 2 ^ x.2.2.1 - 1
    let nan := x.1 = .e4m3 ∧ E = 15 ∧ M = 7
    (top → v = if M = 0 then .inf (s == 1) else .nan (decide (M < 2 ^ (x.2.1 - 1))))
    ∧ (nan → v = .nan false)
    ∧ (¬ top → ¬ nan → Equals v (s == 1) ((if s = 1 then -1 else 1) * (if E = 0 then ((M : Rat) / 2 ^ x.2.1) * 2 ^ (1 - (x.2.2.2 : Int))
        else (1 + (M : Rat) / 2 ^ x.2.1) * 2 ^ ((E : Int) - x.2.2.2)))))
  ∧ (∀ (f : Fmt) (rm : RM) (sat : Bool) (v : FV), let r := (roundTo f rm sat v).1
      (∀ neg m e, r = .fin neg m e → Equals (unpack f (pack f r)) neg (number neg m e)) ∧ (∀ neg, r = .inf neg → unpack f (pack f r) = .inf neg))
  ∧ ∀ sig, pack .fp32 (.nan sig) = 0x7FC00000 ∧ pack .bf16 (.nan sig) = 0x7FC0 ∧ pack .fp16 (.nan sig) = 0x7E00 ∧ pack .e4m3 (.nan sig) = 0x7F
      ∧ pack .e5m2 (.nan sig) = 0x7E

/-- Table 6.3: rounding a NaN, an infinity or a zero into a format. -/
def SpecialsRound : Prop := ∀ (f : Fmt) (rm : RM) (sat sig neg : Bool) (e : Int),
  let small := f ∈ [Fmt.e3m2, .e2m3, .e2m1]
  (roundTo f rm sat (.fin neg 0 e)).2 = 0 ∧ Equals (roundTo f rm sat (.fin neg 0 e)).1 neg 0
  ∧ (small → Equals (roundTo f rm sat (.nan sig)).1 false 0 ∧ (roundTo f rm sat (.nan sig)).2 = 16)
  ∧ (¬ small → roundTo f rm sat (.nan sig) = (.nan false, if sig then 16 else 0))
  ∧ (small ∨ (f = .e4m3 ∧ sat = true) →
      Equals (roundTo f rm sat (.inf neg)).1 neg ((if neg then -1 else 1) * (limits f).2.2) ∧ (roundTo f rm sat (.inf neg)).2 = 5)
  ∧ (f = .e4m3 → sat = false → roundTo f rm sat (.inf neg) = (.nan false, 16))
  ∧ (¬ small → f ≠ .e4m3 → roundTo f rm sat (.inf neg) = (.inf neg, 0))

/-- R97, Table 6.2: a result is rounded under RM into its destination format with its flags, or to nearest even into the chain format with NV alone. -/
def FinishRounds : Prop := ∀ (rm : RM) (sat : Bool) (f : Fmt) (v : FV) (g : Flags),
  finish ⟨rm, sat, false⟩ f (v, g) = ((roundTo f rm sat v).1, g ||| (roundTo f rm sat v).2)
  ∧ finish ⟨rm, sat, true⟩ f (v, g) = ((roundTo .chain 0 false v).1, (g ||| (roundTo .chain 0 false v).2) &&& 16)

end Sys2Proof.Claims

/-- R96, R99, Table 6.1: rounding, said of the rational number itself. The number is rounded to the format's precision, with any exponent; what lies above
the largest finite magnitude overflows, with OF and NX; what lies below the smallest normal magnitude is rounded again, directly, to the subnormal
grid; a result of zero takes the sign of the number, an exact zero of a sum of opposite signs is −0 in the mode toward −∞ alone, and a sum of two zeros of one
sign has that sign. NX says that the
result differs from the number, UF that it is not zero, subnormal and inexact. With it, what patterns stand for (R80 to R82), what the special values
become (Table 6.3), and where each rounding happens (Table 6.2). -/
def Obligations.RoundingIsExact : Prop :=
  (∀ (f : Fmt) (rm : RM) (sat neg : Bool) (m : Nat) (e q : Int) (y : Rat),
    let x := number neg m e
    let p := (limits f).1
    let lo := (limits f).2.1
    let r := roundTo f rm sat (.fin neg m e)
    2 ^ (q + p - 1) ≤ mag x → mag x < 2 ^ (q + p) → RoundsOn rm q x y →
      ((limits f).2.2 < mag y → OverflowIs f rm sat neg r.1 ∧ r.2 = 5)
      ∧ (2 ^ lo ≤ mag y → mag y ≤ (limits f).2.2 → Equals r.1 neg y ∧ r.2 = if y = x then 0 else 1)
      ∧ (mag y < 2 ^ lo → ∀ z, RoundsOn rm (lo - p + 1) x z → Equals r.1 neg z
          ∧ r.2 = (if z = x then 0 else 1) ||| (if z ≠ x ∧ z ≠ 0 ∧ mag z < 2 ^ lo then 2 else 0)))
  ∧ (∀ (rm : RM) (a b : Bool) (m n : Nat) (e g : Int), number a m e + number b n g = 0 → a ≠ b ∨ m ≠ 0 →
      Equals (fvAdd rm (.fin a m e) (.fin b n g)).1 (rm == 3) 0)
  ∧ (∀ (rm : RM) (a : Bool) (e g : Int), Equals (fvAdd rm (.fin a 0 e) (.fin a 0 g)).1 a 0)
  ∧ Claims.PatternsHaveValues ∧ Claims.SpecialsRound ∧ Claims.FinishRounds

namespace Sys2Proof.Claims

/-- A scalar FP32 result (R125, R102): rounded once to FP32 under RM, or with `d` = 1 and STEP = 0 into the chain format. -/
def fpResult (c : Ctx) (x : Bool) (d : BitVec 5) (v : FV × Flags) : Fly :=
  let chain := x && !c.step
  let r := finish { rm := c.rm, sat := c.sat, chain := chain } .fp32 v
  let w := BitVec.ofNat 64 (pack .fp32 r.1)
  { slot := .ia, pos := c.pos, due := c.pos + 4, var := false, done := false, divider := false,
    dst := if x then none else some (.s d.toNat, .word w (BitVec.allOnes 64)), ring := .b (if chain then .chain r.1 else .bits w),
    pushed := false, flags := r.2, amax := 0, amaxNan := false }

/-- The mode of a scalar result's rounding: nearest even in the chain format (Table 6.2). -/
def fpMode (c : Ctx) (x : Bool) : RM := if x && !c.step then 0 else c.rm

/-- The FP32 operation gives `f` of its two sources, rounded once. -/
def GivesFp (i : Instr) (x : Bool) (d : BitVec 5) (a b : BitVec 6) (f : RM → FV → FV → FV × Flags) : Prop :=
  AlwaysDoes i fun c s => s.launch (fpResult c x d (f (fpMode c x) (readFp s c .ia a) (readFp s c .ia b)))

/-- The FP32 to integer conversion gives the value rounded under RM into a range, in the register and the ring, with its flags. -/
def GivesInt (i : Instr) (x : Bool) (d : BitVec 5) (a : BitVec 6) (lo hi : Int) : Prop :=
  AlwaysDoes i fun c s =>
    let r := fvToInt c.rm lo hi (readFp s c .ia a)
    s.launch { scalarResult .ia c x d 4 (BitVec.ofInt 64 r.1) with flags := r.2 }

/-- An access of path P that an operation of IB makes at its place in program order. -/
def accessIb (s : State) (c : Ctx) (cls obj : Nat) : Act := readAct s.turn c .ib .p cls obj 0 0

/-- The access of an `ld.acq` (R221, R222): of every class, acquiring at its scope. -/
def acquireIb (scope : BitVec 3) (s : State) (c : Ctx) (obj : Nat) : Act :=
  { accessIb s c 16 obj with scope := scope.toNat, kind := .read true [] }

/-- The single-copy atomic units of an element (R217, Table 15.2): the element where it is aligned, else each of its bytes. -/
def elementUnits (aligned : Bool) (o n : Nat) : List (Nat × Nat) := if aligned then [(o, n)] else (List.range n).map fun i => (o + i, 1)

/-- The pages of some units are touched (R349, R353). -/
def unitsTouched (obj : Nat) (l : List (Nat × Nat)) (s : State) : State := l.foldl (fun s u => touch s obj u.1 u.2 0) s

/-- Some units are read from their point of order (R187, R201): touched, their sectors filled, and the reads noted in the perform order, once for
each run of bytes. -/
def unitsReadBy (a : Act) (l : List (Nat × Nat)) (s : State) : State :=
  let t := l.foldl (fun t u => fillSpan t a.obj u.1 u.2 0) (unitsTouched a.obj l s)
  let t := (runsOf (l.flatMap fun u => (List.range u.2).map (u.1 + ·))).foldl (fun t x => t.recordRead { a with off := x.1, len := x.2 }) t
  { t with pause := 0 }

/-- The bytes of some units as an access of the context reads them, through its porch (R220). -/
def unitsValue (a : Act) (l : List (Nat × Nat)) (s : State) (c : Ctx) : List Byte := l.flatMap fun u => readBytes s s.turn c a a.obj u.1 u.2 0

/-- Nothing makes a read of some units wait or pause: no input asks for a pause (R269), the operation has not begun, no fence still to complete
orders it (R229, R230), and no controller has spent its count for the interval (R15). -/
def readsNow (sl : Slot) (a : Act) (l : List (Nat × Nat)) (s : State) (c : Ctx) : Prop :=
  s.pause = 0 ∧ c.caught sl = none ∧ c.fenced a = false ∧ ∀ u ∈ l, fillHeld (unitsTouched a.obj l s) a.obj u.1 u.2 0 = false

/-- A load that passes its checks (R216) completes with the bytes that its context reads, extended. -/
def Loads (i : Instr) (r : BitVec 5) (k : BitVec 3) (o : BitVec 6) (n : Nat) (aligned : Bool) (act : State → Ctx → Nat → Act) (ext : Nat → Word) :
    Prop :=
  let cap := fun (c : Ctx) (s : State) => readK s c .ib k.toNat
  let off := fun (c : Ctx) (s : State) => (readInt s c .ib o).toNat
  let units := fun (c : Ctx) (s : State) => elementUnits (off c s % n == 0) ((cap c s).base + off c s) n
  let a := fun (c : Ctx) (s : State) => act s c (cap c s).obj
  Does i (fun c s => checkAccess s s.turn c (cap c s) (off c s) n rightR aligned false 0 = .ok () ∧ readsNow .ib (a c s) (units c s) s c)
    fun c s =>
      let t := unitsReadBy (a c s) (units c s) s
      t.launch (variableResult .ib c false r (ext (ofBytes (unitsValue (a c s) (units c s) t c))))

/-- The context after one more write is held, in program order; after an `st.rel` or an atomic the writes take other entries (R232, R233). -/
def withHeld (h : Held) (c : Ctx) : Ctx :=
  { c with porch := insertHeld h c.porch, group := if h.parts then c.group + 1 else c.group }

/-- Nothing makes a write wait at its issue: no fence still to complete orders it (R229, R230), no spill is in progress, and the porch has room
(R233). -/
def holdsNow (h : Held) (s : State) (c : Ctx) : Prop :=
  c.fenced (h.act s.turn c 0) = false ∧ c.spilling = false ∧ entryCount (c.porch ++ [h]) ≤ 8192

/-- The held write of a scalar operation on path P (R218, R232). -/
def scalarHeld (c : Ctx) (cls : Nat) (rel : Bool) (scope : Nat) (cap : Cap) (off n : Nat) (op : HeldOp) : Held :=
  { path := .p, cls := cls, rel := rel, scope := scope, group := c.group, slot := .ib, pos := c.pos, cap := cap, off := off, len := n,
    fold := none, cmd := none, tile := none, op := op }

/-- The write that a store holds: the low `n` bytes of its data register at the capability's base plus the offset, one single-copy atomic unit
where the offset is aligned, else each byte its own (R217). -/
def storeHeld (r : BitVec 5) (k : BitVec 3) (o : BitVec 6) (n cls : Nat) (rel : Bool) (scope : Nat) (c : Ctx) (s : State) : Held :=
  let cap := readK s c .ib k.toNat
  let off := (readInt s c .ib o).toNat
  { scalarHeld c cls rel scope cap off n (.bytes (atOffsets (cap.base + off) (toBytes n (readS s c .ib r.toNat).toNat))) with
    unit := if off % n = 0 then 0 else 1 }

/-- A scalar write is held: its translations are touched, and it enters the porch (R232). -/
def heldNow (h : Held) (s : State) : State := (touch s h.cap.obj (h.cap.base + h.off) h.len 0).modCur (withHeld h)

/-- A store that passes its checks (R216) completes: its write is held, and memory changes only when it performs (R232). Whether its page may be
written is a check of its commit (R348). -/
def Stores (i : Instr) (r : BitVec 5) (k : BitVec 3) (o : BitVec 6) (n cls : Nat) (rel : Bool) (scope : Nat) : Prop :=
  Does i (fun c s =>
      checkAccess s s.turn c (readK s c .ib k.toNat) (readInt s c .ib o).toNat n rightW rel false 0 = .ok ()
      ∧ holdsNow (storeHeld r k o n cls rel scope c s) s c)
    fun c s => heldNow (storeHeld r k o n cls rel scope c s) s

/-- The operand of an atomic from a source code of IB. -/
def operandOf (v : BitVec 6) (s : State) (c : Ctx) : Word := readInt s c .ib v
/-- No operand. -/
def noOperandOf (_ : State) (_ : Ctx) : Word := 0

/-- The bytes of an atomic's word (Table 13.2). -/
def amoBytes (w : BitVec 2) : Nat := if w = 1 then 8 else 4

/-- The context before its atomic performs: its operands are kept, and its commit has ended with REPLAY clear (R226, R232). -/
def amoReady (k : BitVec 3) (v cmp : State → Ctx → Word) (c : Ctx) (s : State) : State :=
  let cap := readK s c .ib k.toNat
  (keepOperands s s.turn .ib [cap.val.toNat, b2n cap.tag, (readS s c .ib 0).toNat, (v s c).toNat, (cmp s c).toNat]).modCur fun c =>
    { c with porch := [], committing := false, reserved := [], ringWait := none, replay := false }

/-- The context has nothing of its own to wait for: no fence and no write held, sent or in progress (R227, R232). -/
def nothingOpen (s : State) (c : Ctx) : Prop :=
  c.fencing = [] ∧ c.porch = [] ∧ c.committing = false ∧ c.spilling = false ∧ c.reserved = [] ∧ c.doomed = none ∧ awaitsAck s s.turn = false

/-- An atomic that passes its checks, of a context with nothing open, performs at once at its word's point of order: `new` of the old value is
stored, the old value returns, and REPLAY is clear (R226, R227). -/
def Atomically (i : Instr) (r : BitVec 5) (k : BitVec 3) (w : BitVec 2) (scope : BitVec 3) (cls : BitVec 4) (aop : Nat)
    (v cmp : State → Ctx → Word) : Prop :=
  let cap := fun (c : Ctx) (s : State) => readK s c .ib k.toNat
  let off := fun (c : Ctx) (s : State) => (readS s c .ib 0).toNat
  let at' := fun (c : Ctx) (s : State) => (cap c s).base + off c s
  let n := amoBytes w
  Does i (fun c s =>
      c.caught .ib = none ∧ nothingOpen s c
      ∧ checkAccess s s.turn c (cap c s) (off c s) n rightA true true 0 = .ok ()
      ∧ tierCheck (amoReady k v cmp c s) s.turn (cap c s).obj (at' c s) n 0 = .ok ()
      ∧ portCheck (amoReady k v cmp c s) (whoOf s.turn c) (some (cap c s).gen) (cap c s).obj (at' c s) n true 0 = .ok ()
      ∧ fillHeld (amoReady k v cmp c s) (cap c s).obj (at' c s) n 0 = false)
    fun c s =>
      let a := { accessIb s c cls.toNat (cap c s).obj with scope := scope.toNat, off := at' c s, len := n, kind := .atomic true [] }
      let p := performAtomic ((touch (amoReady k v cmp c s) (cap c s).obj (at' c s) n 0).recordRead (a.over (amoReady k v cmp c s))) (cap c s).obj (at' c s) n aop (w == 2)
        (v s c).toNat (cmp s c).toNat 0
      p.1.launch (variableResult .ib c false r (BitVec.ofNat 64 p.2))

/-- The operation that a reduction holds (R227). -/
def redHeld (k : BitVec 3) (w : BitVec 2) (scope : BitVec 3) (cls : BitVec 4) (aop : Nat) (v : State → Ctx → Word) (c : Ctx) (s : State) : Held :=
  scalarHeld c cls.toNat false scope.toNat (readK s c .ib k.toNat) (readS s c .ib 0).toNat (amoBytes w)
    (.red (BitVec.ofNat 4 aop) (w == 2) (amoBytes w) (v s c))

/-- A reduction that passes its checks is held (R227, R232). -/
def Reduces (i : Instr) (k : BitVec 3) (w : BitVec 2) (scope : BitVec 3) (cls : BitVec 4) (aop : Nat) (v : State → Ctx → Word) : Prop :=
  Does i (fun c s =>
      checkAccess s s.turn c (readK s c .ib k.toNat) (readS s c .ib 0).toNat (amoBytes w) rightA true false 0 = .ok ()
      ∧ holdsNow (redHeld k w scope cls aop v c s) s c)
    fun c s => heldNow (redHeld k w scope cls aop v c s) s

/-- A fence as an act of its context (R267): `fence` has classes, `fence.x` paths. -/
def fenceOf (scope : BitVec 3) (cls : BitVec 16) (paths : BitVec 6) (x : Bool) (s : State) (c : Ctx) : Act :=
  { readAct s.turn c .c .p 16 0 0 0 with scope := scope.toNat, kind := .fence cls paths x }

/-- A fence completes as it issues: what comes after it is in another group, and the perform order has it (R229 to R231, R267). -/
def fenceDone (f : Act) (s : State) : State := (s.modCur fun c => { c with fencing := [], group := c.group + 1 }).record f

/-- A fence issues and is still to complete: operations after it go on, and what it orders waits for it (R229, R230). -/
def fenceOpen (f : Act) (s : State) : State := s.modCur fun c => { c with fencing := [f], group := c.group + 1 }

/-- The register number of `sys.rd` and `sys.wr`. -/
def sysNumber (s : State) (c : Ctx) (a : BitVec 6) : Nat := (readInt s c .ia a).toNat

/-- A result of `sys.rd` (R129): of variable latency; until it completes it follows a register that hardware changes (log 79). -/
def systemResult (n : Nat) (c : Ctx) (x : Bool) (d : BitVec 5) (v : Word) : Fly :=
  { variableResult .ia c x d v with live := if n ∈ [0x002, 0x003, 0x014, 0x015, 0x016, 0x017, 0x041, 0x042] ∨ 0x400 ≤ n then some (n, c.foldSel.toNat) else none }

/-- The machine as a base register changes (R376): where a shepherd runs, every access finds the old base or the new one from then on. -/
def baseKept (k : Nat) (old : Word) (s : State) : State :=
  if (List.range 6).any fun i => (s.ctxOf (288 + i)).isSome then { s with oldTabs := sput [] s.oldTabs k ((old :: sget [] s.oldTabs k).eraseDups) }
  else s

/-- The spaces whose descriptors a core's level may reach (R375): the housekeeper all; a shepherd its cluster's scratchpads and its die's rooms. -/
def ownedBy (core sp : Nat) : Prop :=
  294 ≤ core ∨ (288 ≤ core ∧ core < 294 ∧ (if sp < 288 then sp / 48 = core - 288 else (sp - 288) / 144 = (core - 288) / 3))

/-- The register numbers of descriptors (Table 22.5). -/
def descriptorOf (core n : Nat) : Prop :=
  (0x400 ≤ n ∧ n < 0x520 ∧ ownedBy core (n - 0x400)) ∨ (0x600 ≤ n ∧ n < 0x720 ∧ ownedBy core (n - 0x600 + 288))

/-- The register numbers that `sys.rd` may name on a core (Table 22.5). -/
def readable (core n : Nat) : Prop :=
  n ∈ [0x001, 0x002, 0x003, 0x010, 0x011, 0x012, 0x013, 0x014, 0x015, 0x016, 0x017, 0x018, 0x019, 0x01A, 0x01B, 0x01C, 0x01D]
  ∨ (288 ≤ core ∧ (n ∈ [0x020, 0x021, 0x022, 0x023, 0x024, 0x030, 0x031, 0x040, 0x041, 0x042] ∨ descriptorOf core n))

/-- The register numbers that `sys.wr` may name on a core (Table 22.5). -/
def writable (core n : Nat) : Prop :=
  (288 ≤ core ∧ (n ∈ [0x020, 0x030, 0x031, 0x040, 0x041, 0x042, 0x043] ∨ descriptorOf core n))
  ∨ (294 ≤ core ∧ n ∈ [0x021, 0x022, 0x023, 0x024])

end Sys2Proof.Claims

/-- R125 and R126, Table 7.6: the FP32 arithmetic of IA gives the exact result rounded once, with latency 4. -/
def Sys2Proof.Claims.ScalarFpResults : Prop := ∀ (x : Bool) (d : BitVec 5) (a b : BitVec 6),
  GivesFp (.faddS x d a b) x d a b (fun rm a b => fvAdd rm a b)
  ∧ GivesFp (.fsubS x d a b) x d a b (fun rm a b => fvAdd rm a b.negate)
  ∧ GivesFp (.fmulS x d a b) x d a b (fun _ a b => fvMul a b)
  ∧ GivesFp (.fminS x d a b) x d a b (fun _ a b => fvMin a b)
  ∧ GivesFp (.fmaxS x d a b) x d a b (fun _ a b => fvMax a b)
  ∧ AlwaysDoes (.ffmaS x d a b) (fun c s =>
      let addend := if x then readFp s c .ia 0x20 else unpack .fp32 ((readS s c .ia d.toNat).toNat % 2 ^ 32)
      s.launch (fpResult c x d (fvFma (fpMode c x) (readFp s c .ia a) (readFp s c .ia b) addend)))

/-- R127 and R128, Table 7.7: FP32 compares write a predicate, and the conversions round under RM, with latency 4. -/
def Sys2Proof.Claims.ScalarFpConversions : Prop := ∀ (x : Bool) (d : BitVec 5) (p : BitVec 2) (a b : BitVec 6),
  AlwaysDoes (.fcmpLtS p a b) (fun c s =>
    let r := fvLt (readFp s c .ia a) (readFp s c .ia b)
    s.launch (predResult .ia c p 4 r.1 r.2))
  ∧ AlwaysDoes (.fcmpEqS p a b) (fun c s =>
    let r := fvEq (readFp s c .ia a) (readFp s c .ia b)
    s.launch (predResult .ia c p 4 r.1 r.2))
  ∧ AlwaysDoes (.fcvtSI x d a) (fun c s => s.launch (fpResult c x d (ofInt (readInt s c .ia a).toInt 0 false, 0)))
  ∧ AlwaysDoes (.fcvtSIU x d a) (fun c s => s.launch (fpResult c x d (ofInt (readInt s c .ia a).toNat 0 false, 0)))
  ∧ GivesInt (.fcvtIS x d a) x d a (-2 ^ 63) (2 ^ 63 - 1)
  ∧ GivesInt (.fcvtISU x d a) x d a 0 (2 ^ 64 - 1)
  ∧ GivesInt (.fcvtISW x d a) x d a (-2 ^ 31) (2 ^ 31 - 1)

/-- R125 to R128: the FP32 operations of IA. -/
def Obligations.ScalarFloatingPoint : Prop := Claims.ScalarFpResults ∧ Claims.ScalarFpConversions

/-- R129, R130, R375, Table 22.5: `sys.rd` of a register that the map allows at the level gives its value with variable latency; of any other
number it ends the context with the fatal rights fault. A register that hardware changes is kept with the result, which takes its value again
until it completes (`live`; R24 and R377 allow any moment, log 79). The model's choices: the own vault and the own cluster of a core above
level U or S are free (log 13). -/
def Sys2Proof.Claims.SystemReads : Prop := ∀ (x : Bool) (d : BitVec 5) (a : BitVec 6),
  let gives := fun (n : Nat) (allowed : Ctx → State → Prop) (v : Ctx → State → Word) =>
    Does (.sysRd x d a) (fun c s => sysNumber s c a = n ∧ allowed c s) fun c s => s.launch (systemResult n c x d (v c s))
  let always := fun (_ : Ctx) (_ : State) => True
  let supervisor := fun (_ : Ctx) (s : State) => 288 ≤ s.turn
  gives 0x001 always (fun _ s => BitVec.ofNat 64 (
    if s.turn < 288 then s.turn / 144 * 2 ^ 21 + s.turn / 48 * 2 ^ 18 + s.turn / 4 * 2 ^ 9 + s.turn
    else if s.turn < 294 then 2 ^ 22 + (s.turn - 288) / 3 * 2 ^ 21 + (s.turn - 288) * 2 ^ 18 + (s.turn - 288) else 2 ^ 23))
  ∧ gives 0x002 (fun _ s => s.turn < 288) (fun _ s =>
    let p := s.phaseOf s.turn
    BitVec.ofNat 64 (b2n p.busy * 65536 + p.tgt * 256 + p.cur))
  ∧ Does (.sysRd x d a) (fun c s => sysNumber s c a = 0x002 ∧ 288 ≤ s.turn) (fun c s =>
      let p := s.phaseOf (s.pick 6001 % 288)
      s.launch (systemResult 0x002 c x d (BitVec.ofNat 64 (b2n p.busy * 65536 + p.tgt * 256 + p.cur))))
  ∧ gives 0x003 always (fun _ s => (s.core s.turn).pfDrop)
  ∧ gives 0x010 always (fun c _ => c.fmtNow.setWidth 64)
  ∧ gives 0x011 always (fun c _ => c.vtypeNow.setWidth 64)
  ∧ gives 0x012 always (fun c _ => c.vwinNow.setWidth 64)
  ∧ gives 0x013 always (fun c _ => c.vactNow.setWidth 64)
  ∧ gives 0x014 always (fun c _ => (readFpctl c .ia).setWidth 64)
  ∧ gives 0x015 always (fun c _ => (readAmax c .ia).1.setWidth 64)
  ∧ gives 0x016 always (fun _ s => (s.core s.turn).wm0.setWidth 64)
  ∧ gives 0x017 always (fun _ s => (s.core s.turn).wm1.setWidth 64)
  ∧ gives 0x018 always (fun _ s => (ownersAt s s.turn).setWidth 64)
  ∧ gives 0x019 always (fun c _ => BitVec.ofNat 64 (2 * b2n c.spilled + b2n c.replay))
  ∧ gives 0x01A always (fun c _ => c.foldm)
  ∧ gives 0x01B (fun c _ => c.beforeIt isPmtTake = false) (fun c _ => c.pmt)
  ∧ gives 0x01C always (fun c s => readHstat s c .ia)
  ∧ gives 0x01D always (fun c s => if s.turn < 288 then c.budget.setWidth 64 else 0xFFFFFFFF)
  ∧ gives 0x020 (fun _ s => 288 ≤ s.turn ∧ s.turn < 294) (fun _ s => s.schCfg (s.turn - 288))
  ∧ gives 0x020 (fun _ s => 294 ≤ s.turn) (fun _ s => s.schCfg (s.pick 6000 % 6))
  ∧ gives 0x021 supervisor (fun _ s => s.ptab)
  ∧ gives 0x022 supervisor (fun _ s => s.htab)
  ∧ gives 0x023 supervisor (fun _ s => otabRead s.otab)
  ∧ gives 0x024 supervisor (fun _ s => s.padtab)
  ∧ gives 0x030 supervisor (fun c _ => c.tvec)
  ∧ gives 0x031 supervisor (fun c _ => stickyAt c.trapRet 1 c.pos c.trapRetQ)
  ∧ gives 0x040 supervisor (fun c _ => c.foldSel.setWidth 64)
  ∧ gives 0x041 supervisor (fun c s => (s.fold c.foldSel.toNat).setWidth 64)
  ∧ gives 0x042 supervisor (fun c s => BitVec.ofNat 64 ((s.fold c.foldSel.toNat).toNat / 2 ^ 64 % 2 ^ 64))
  ∧ (∀ sp, sp < 288 → gives (0x400 + sp) (fun _ s => ownedBy s.turn sp) (fun _ s => (sget 0 s.descs sp).setWidth 64))
  ∧ (∀ r, r < 288 → gives (0x600 + r) (fun _ s => ownedBy s.turn (288 + r)) (fun _ s => (sget 0 s.descs (288 + r)).setWidth 64))
  ∧ ∀ s c, Issues s c → ¬ readable s.turn (sysNumber (stateFor (.sysRd x d a) s c) (ctxFor (.sysRd x d a) c) a) →
      exec (.sysRd x d a) s = .next (fatalIn s s.turn Slot.ia.idx ⟨0x02, 0, none, 0, false⟩).tick

/-- R129, R130, R375 to R379, Table 22.5: `sys.wr` of a register that the map allows at the level writes it; one that gives a space another
paddock starts the space's clear, and completes when the clear has ended; of any other number it ends the context with the fatal rights
fault, as every number does at level U. The model's choices: the cluster whose `SCHCFG` the housekeeper writes is free (log 13), and a new paddock's GEN is the
old one plus one (log 14). -/
def Sys2Proof.Claims.SystemWrites : Prop := ∀ (a b : BitVec 6),
  let value := fun (c : Ctx) (s : State) => readInt s c .ia b
  let writes := fun (n : Nat) (allowed : Nat → Prop) (eff : Word → Ctx → State → State) =>
    Does (.sysWr a b) (fun c s => c.caught .ia = none ∧ sysNumber s c a = n ∧ allowed s.turn) fun c s => eff (value c s) c s
  let supervisor := fun core : Nat => 288 ≤ core
  let housekeeper := fun core : Nat => 294 ≤ core
  let reserved := fun (v : Word) => (BitVec.ofNat 64 (v.toNat % 2 ^ 60) : Word)
  writes 0x020 (fun core => 288 ≤ core ∧ core < 294) (fun v _ s => writeSchcfg s (s.turn - 288) v)
  ∧ writes 0x020 housekeeper (fun v _ s => writeSchcfg s (s.pick 6000 % 6) v)
  ∧ writes 0x030 supervisor (fun v _ s => s.modCur fun c => { c with tvec := v &&& 0xFFFFFFFFFF })
  ∧ writes 0x031 supervisor (fun v _ s => s.modCur fun c => { c with trapRetQ := (c.pos, v &&& 0xFFFFFFFFFF) :: c.trapRetQ })
  ∧ writes 0x040 supervisor (fun v _ s => s.modCur fun c => { c with foldSel := v.setWidth 10 })
  ∧ writes 0x041 supervisor (fun v _ s => s.modCur fun c => { c with foldLo := some v })
  ∧ writes 0x042 supervisor (fun v c s => writeFoldHi s s.turn c.foldSel.toNat c.foldLo v)
  ∧ writes 0x043 supervisor (fun v _ s => writeHreset s v)
  ∧ writes 0x021 housekeeper (fun v _ s => ({ baseKept 1 s.ptab s with ptab := reserved v } : State).showHealth)
  ∧ writes 0x022 housekeeper (fun v _ s => { baseKept 2 s.htab s with htab := reserved v })
  ∧ writes 0x023 housekeeper (fun v _ s => { baseKept 0 s.otab s with otab := BitVec.ofNat 64 (v.toNat / 2 ^ 61 * 2 ^ 61 + v.toNat % 2 ^ 60) })
  ∧ writes 0x024 housekeeper (fun v _ s => { baseKept 3 s.padtab s with padtab := reserved v })
  ∧ (∀ n sp, ((0x400 ≤ n ∧ n < 0x520 ∧ sp = n - 0x400) ∨ (0x600 ≤ n ∧ n < 0x720 ∧ sp = n - 0x600 + 288)) →
      Does (.sysWr a b) (fun c s => c.caught .ia = none ∧ sysNumber s c a = n ∧ ownedBy s.turn sp
          ∧ (s.clearing.any fun e => e.1 == sp) = false
          ∧ (value c s).toNat / 2 ^ 16 % 2 ^ 16 = (sget 0 s.descs sp).toNat / 2 ^ 16)
        (fun c s => sweepWatches { s with descs := sput 0 s.descs sp ((value c s).setWidth 32) })
      ∧ (∀ s c, Issues s c →
          let t := stateFor (.sysWr a b) s c
          let c' := ctxFor (.sysWr a b) c
          c'.caught .ia = none → sysNumber t c' a = n → ownedBy t.turn sp →
          (value c' t).toNat / 2 ^ 16 % 2 ^ 16 ≠ (sget 0 t.descs sp).toNat / 2 ^ 16 →
          exec (.sysWr a b) s = .next (markWaiting (keepOperands (writeDesc t sp (value c' t)) s.turn .ia [sp])).tick))
  ∧ (∀ sp, Does (.sysWr a b) (fun c s => c.caught .ia = some [sp] ∧ (s.clearing.any fun e => e.1 == sp) = false) fun _ s => s)
  ∧ ∀ s c, Issues s c → (ctxFor (.sysWr a b) c).caught .ia = none →
      ¬ writable s.turn (sysNumber (stateFor (.sysWr a b) s c) (ctxFor (.sysWr a b) c) a) →
      exec (.sysWr a b) s = .next (fatalIn s s.turn Slot.ia.idx ⟨0x02, 0, none, 0, false⟩).tick

/-- R29, R131: `bud.rd` gives `LEFT` just after its bundle was counted, all ones above level U, and `time.rd` gives `TIME`, each with latency 1. The
model's choice: one `TIME` serves every core (log 89). -/
def Sys2Proof.Claims.BudgetAndTime : Prop := ∀ (x : Bool) (d : BitVec 5),
  AlwaysDoes (.budRd x d) (fun c s => s.launch (scalarResult .ia c x d 1
      (if s.turn < 288 then ((c.issue.map (·.left)).getD c.budget).setWidth 64 else 0xFFFFFFFF)))
  ∧ AlwaysDoes (.timeRd x d) (fun c s => s.launch (scalarResult .ia c x d 1 (BitVec.ofNat 64 s.time)))

/-- R29, R129 to R131, R375: the system registers, the budget and the time, as they are read and written. The model's choices: when a register that
hardware changes is taken (log 79), which cluster's `SCHCFG` or vault a firmware core means (log 13), and one `TIME` for every core (log 89). -/
def Obligations.SystemAccesses : Prop := Claims.SystemReads ∧ Claims.SystemWrites ∧ Claims.BudgetAndTime

/-- R216 to R222, Table 13.1: a load that passes its checks completes; its value is the bytes at the capability's base plus the offset, as
the context reads them through its porch, zero- or sign-extended. -/
def Sys2Proof.Claims.LoadResults : Prop := ∀ (r : BitVec 5) (k : BitVec 3) (o : BitVec 6) (cls : BitVec 4) (scope : BitVec 3),
  let zero := fun v : Nat => (BitVec.ofNat 64 v : Word)
  let sign := fun (n v : Nat) => (BitVec.ofInt 64 (signed (8 * n) v) : Word)
  let plain := fun (s : State) (c : Ctx) => accessIb s c cls.toNat
  Loads (.ldU8 r k o cls) r k o 1 false plain zero
  ∧ Loads (.ldS8 r k o cls) r k o 1 false plain (sign 1)
  ∧ Loads (.ldU16 r k o cls) r k o 2 false plain zero
  ∧ Loads (.ldS16 r k o cls) r k o 2 false plain (sign 2)
  ∧ Loads (.ldU32 r k o cls) r k o 4 false plain zero
  ∧ Loads (.ldS32 r k o cls) r k o 4 false plain (sign 4)
  ∧ Loads (.ld64 r k o cls) r k o 8 false plain zero
  ∧ Loads (.ldAcq r k o scope) r k o 8 true (acquireIb scope) zero

/-- R216 to R219, R221, R223, R232: a store that passes its checks completes with its bytes held in the porch; `st.rel` is a release of
every class. -/
def Obligations.StoresAreHeld : Prop := ∀ (r : BitVec 5) (k : BitVec 3) (o : BitVec 6) (cls : BitVec 4) (scope : BitVec 3),
  Stores (.st8 r k o cls) r k o 1 cls.toNat false 0
  ∧ Stores (.st16 r k o cls) r k o 2 cls.toNat false 0
  ∧ Stores (.st32 r k o cls) r k o 4 cls.toNat false 0
  ∧ Stores (.st64 r k o cls) r k o 8 cls.toNat false 0
  ∧ Stores (.stRel r k o scope) r k o 8 16 true scope.toNat

/-- R225 to R227, Table 13.2: an atomic that passes its checks performs at the point of order of its word as one step, and the old value
returns. That a partial unit of a page with the fault policy is no fault here is the model's choice (log 95). -/
def Sys2Proof.Claims.AtomicsPerform : Prop := ∀ (r : BitVec 5) (k xs : BitVec 3) (w : BitVec 2) (scope : BitVec 3) (cls : BitVec 4) (v : BitVec 6)
    (cmp : BitVec 5),
  Atomically (.amoAdd r k xs w scope cls v) r k w scope cls 0 (operandOf v) noOperandOf
  ∧ Atomically (.amoInc r k xs w scope cls) r k w scope cls 1 noOperandOf noOperandOf
  ∧ Atomically (.amoAnd r k xs w scope cls v) r k w scope cls 2 (operandOf v) noOperandOf
  ∧ Atomically (.amoOr r k xs w scope cls v) r k w scope cls 3 (operandOf v) noOperandOf
  ∧ Atomically (.amoXor r k xs w scope cls v) r k w scope cls 4 (operandOf v) noOperandOf
  ∧ Atomically (.amoSmin r k xs w scope cls v) r k w scope cls 5 (operandOf v) noOperandOf
  ∧ Atomically (.amoSmax r k xs w scope cls v) r k w scope cls 6 (operandOf v) noOperandOf
  ∧ Atomically (.amoUmin r k xs w scope cls v) r k w scope cls 7 (operandOf v) noOperandOf
  ∧ Atomically (.amoUmax r k xs w scope cls v) r k w scope cls 8 (operandOf v) noOperandOf
  ∧ Atomically (.amoSwap r k xs w scope cls v) r k w scope cls 9 (operandOf v) noOperandOf
  ∧ Atomically (.amoCas r k xs w scope cls v cmp) r k w scope cls 10 (operandOf v) (fun s c => readS s c .ib cmp.toNat)
  ∧ Atomically (.amoFadd r k xs w scope cls v) r k w scope cls 11 (operandOf v) noOperandOf

/-- R227: a reduction that passes its checks completes with its operation held in the porch. -/
def Sys2Proof.Claims.ReductionsAreHeld : Prop := ∀ (k xs : BitVec 3) (w : BitVec 2) (scope : BitVec 3) (cls : BitVec 4) (v : BitVec 6),
  Reduces (.redAdd k xs w scope cls v) k w scope cls 0 (operandOf v)
  ∧ Reduces (.redInc k xs w scope cls) k w scope cls 1 noOperandOf
  ∧ Reduces (.redAnd k xs w scope cls v) k w scope cls 2 (operandOf v)
  ∧ Reduces (.redOr k xs w scope cls v) k w scope cls 3 (operandOf v)
  ∧ Reduces (.redXor k xs w scope cls v) k w scope cls 4 (operandOf v)
  ∧ Reduces (.redSmin k xs w scope cls v) k w scope cls 5 (operandOf v)
  ∧ Reduces (.redSmax k xs w scope cls v) k w scope cls 6 (operandOf v)
  ∧ Reduces (.redUmin k xs w scope cls v) k w scope cls 7 (operandOf v)
  ∧ Reduces (.redUmax k xs w scope cls v) k w scope cls 8 (operandOf v)
  ∧ Reduces (.redFadd k xs w scope cls v) k w scope cls 11 (operandOf v)

/-- R226, Table 13.2: what an atomic stores, on a word of `n` bytes. -/
def Sys2Proof.Claims.AtomicValues : Prop := ∀ (n old v cmp : Nat), 0 < n → old < 256 ^ n → v < 256 ^ n → cmp < 256 ^ n →
  atomicNew 0 false n old v cmp = (old + v) % 256 ^ n
  ∧ atomicNew 1 false n old v cmp = (old + 1) % 256 ^ n
  ∧ atomicNew 2 false n old v cmp = old &&& v
  ∧ atomicNew 3 false n old v cmp = old ||| v
  ∧ atomicNew 4 false n old v cmp = old ^^^ v
  ∧ signed (8 * n) (atomicNew 5 false n old v cmp) = min (signed (8 * n) old) (signed (8 * n) v)
  ∧ signed (8 * n) (atomicNew 6 false n old v cmp) = max (signed (8 * n) old) (signed (8 * n) v)
  ∧ atomicNew 7 false n old v cmp = min old v
  ∧ atomicNew 8 false n old v cmp = max old v
  ∧ atomicNew 9 false n old v cmp = v
  ∧ atomicNew 10 false n old v cmp = (if old = cmp then v else old)
  ∧ ∀ aop, aop < 11 → atomicNew aop false n old v cmp < 256 ^ n

/-- R225 to R227: the atomics perform at once, with the values of Table 13.2; the reductions are held. -/
def Obligations.AtomicsAndReductions : Prop := Claims.AtomicsPerform ∧ Claims.ReductionsAreHeld ∧ Claims.AtomicValues

/-- R220, R224, R356: `ldk` loads the capability of an entry of the context's key table, with its tag, as the context reads it through its porch,
where the index lies within the table and the entry can be read. -/
def Sys2Proof.Claims.KeyLoads : Prop := ∀ (kd : BitVec 4) (o : BitVec 6) (cls : BitVec 4),
  let table := fun (c : Ctx) (s : State) => keyTable s c.paddock
  let at' := fun (c : Ctx) (s : State) => (table c s).2.1 + 16 * (readInt s c .ib o).toNat
  let a := fun (c : Ctx) (s : State) => { accessIb s c cls.toNat (table c s).1 with off := at' c s, len := 16 }
  Does (.ldk kd o cls) (fun c s =>
      c.fenced (a c s) = false ∧ (readInt s c .ib o).toNat < (table c s).2.2
      ∧ tierCheck s s.turn (table c s).1 (at' c s) 16 0 = .ok ()
      ∧ portCheck s ⟨c.paddock, true⟩ none (table c s).1 (at' c s) 16 false 0 = .ok ()
      ∧ flashIn s (table c s).1 (at' c s) 16 0 = none ∧ fillHeld s (table c s).1 (at' c s) 16 0 = false)
    fun c s =>
      let t := (fillSpan (touch s (table c s).1 (at' c s) 16 0) (table c s).1 (at' c s) 16 0).recordRead (a c s)
      t.launch { variableResult .ib c false 0 0 with
        dst := some (.k kd.toNat, .cap ⟨BitVec.ofNat 128 (ofBytes (readBytes t s.turn c (a c s) (table c s).1 (at' c s) 16 0)),
          porchTag t s.turn c (a c s) (table c s).1 (at' c s) 0⟩), ring := .none }

/-- R216 to R222, R224: the loads, those of capabilities from the key table included. -/
def Obligations.LoadsComplete : Prop := Claims.LoadResults ∧ Claims.KeyLoads

/-- R229 to R231, R272: a fence of a context with no other fence open completes as it issues, where no earlier command of its engines that it orders
is left, it orders no earlier write that is held, or its scope is `.core`, and, at scope `.fab`, no remote write that it orders is unacknowledged;
where a command is left it stays open, and the context goes on. That a fence goes on at once, and later accesses wait for it, is the model's choice
(log 32). -/
def Sys2Proof.Claims.FencesComplete : Prop := ∀ (scope xs : BitVec 3) (cmask : BitVec 16) (paths : BitVec 6),
  let one := fun (i : Instr) (f : State → Ctx → Act) (copies matrix : State → Ctx → Bool) (write : Held → Bool) (sent : Nat → Bool) =>
    Does i (fun c s => c.fencing = [] ∧ c.spilling = false ∧ copies s c = true ∧ matrix s c = true
        ∧ (scope = 0 ∨ c.porch.all (fun h => !(decide (h.pos < c.pos) && write h)) = true) ∧ (scope ≠ 5 ∨ awaitsAckOf s s.turn sent = false))
      (fun c s => fenceDone (f s c) s)
    ∧ Does i (fun c s => c.fencing = [] ∧ (copies s c = false ∨ matrix s c = false)) (fun c s => fenceOpen (f s c) s)
  let inClass := fun n : Nat => n == 16 || cmask.getLsbD n
  one (.fence scope xs cmask) (fenceOf scope cmask 0 false)
    (fun s c => (s.core s.turn).cp.all fun y => !(decide (y.pos < c.pos) && inClass y.cls))
    (fun s c => (s.core s.turn).mx.all fun y => !(decide (y.pos < c.pos) && y.kind != 2 && cmask.getLsbD 15))
    (fun h => match h.path with
      | .p | .v | .x => inClass h.cls
      | .m => cmask.getLsbD 15
      | _ => false)
    inClass
  ∧ one (.fenceX scope paths) (fenceOf scope 0xFFFF paths true)
    (fun s c => (s.core s.turn).cp.all fun y => !(decide (y.pos < c.pos) && paths.getLsbD 3))
    (fun s c => (s.core s.turn).mx.all fun y => !(decide (y.pos < c.pos) && y.kind != 2 && paths.getLsbD 2))
    (fun h => paths.getLsbD h.path.idx)
    (fun _ => paths.getLsbD 3)

/-- R206, R236: `phase` with a capability for all the room bytes that the change moves sets TGT, and CUR to the larger of CUR and TGT, with BUSY;
a `phase` to the target in force changes nothing. What an empty range asks of the capability is the model's choice (log 97). -/
def Sys2Proof.Claims.PhaseSetsTarget : Prop := ∀ (k : BitVec 3) (t : BitVec 4),
  Does (.phase k t) (fun c s =>
      let cap := readK s c .cf k.toNat
      let p := s.phaseOf s.turn
      cap.tag = true ∧ cap.obj = 0xFF9000 + s.turn ∧ cap.has rightW = true
      ∧ cap.base ≤ 0x380000 - 0x40000 * max p.tgt t.toNat ∧ 0x380000 ≤ cap.base + cap.len ∧ p.busy = false)
    fun _ s =>
      let p := s.phaseOf s.turn
      if t.toNat = p.tgt then s else { s with phases := sput ⟨8, 8, false⟩ s.phases s.turn ⟨t.toNat, max p.cur t.toNat, true⟩ }

/-- R206, R229 to R231, R236: fences and changes of split. -/
def Obligations.FencesAndPhase : Prop := Claims.FencesComplete ∧ Claims.PhaseSetsTarget

namespace Sys2Proof.Claims

/-- The next bundle is chosen, so that no end action of a loop applies (R77). -/
def chosen (t : Nat) (s : State) : State :=
  s.modCur fun c => { c with issue := c.issue.map fun i => { i with target := some t, jumped := true } }

/-- A target is a bundle's offset within the code object (R72). -/
def inCode (s : State) (c : Ctx) (t : Int) : Prop := 0 ≤ t ∧ t % 32 = 0 ∧ t < ((s.seenObj c.codeObj 0).size : Int)

/-- The target of a displacement: 32 times it, from the bundle's own address (Table 4.6). -/
def displaced (c : Ctx) (disp : BitVec 18) : Int := c.pc + 32 * disp.toInt

/-- The write of the link register by a call: the address of the next bundle, with latency 1 in C (R74). -/
def linkWrite (c : Ctx) : Fly :=
  { slot := .c, pos := c.pos, due := c.pos + 1, var := false, done := false, divider := false,
    dst := some (.s 31, .word (BitVec.ofNat 64 (c.pc + 32)) (BitVec.allOnes 64)), ring := .none, pushed := false, flags := 0, amax := 0,
    amaxNan := false }

/-- The write of a loop counter (R76). -/
def counterWrite (c : Ctx) (l : Bool) (v : BitVec 32) : Fly :=
  { linkWrite c with dst := some (.lc (b2n l), .word (v.setWidth 64) (BitVec.allOnes 64)) }

/-- A loop of the context changes. -/
def onLoop (l : Bool) (f : Loop → Loop) (c : Ctx) : Ctx := if l then { c with lc1 := f c.lc1 } else { c with lc0 := f c.lc0 }

/-- A context at its suspension point, before the commit (R310 steps 1 and 2): the operands are kept, the loop's end action has applied, and
every operation in flight has completed and written its destination (R48). -/
def pointReached (l : List Nat) (s : State) : State :=
  let s := keepSuspended s s.turn l
  (s.modCtx s.turn fun c =>
    { endAction s c with issue := (endAction s c).issue.map fun i => { i with jumped := true } }).drain s.turn

/-- The machine after the commit of a suspension point (R310 step 2). -/
def committed (l : List Nat) (s : State) : State := match commitPorch (pointReached l s) s.turn with
  | .ok t => t
  | .error _ => s

/-- The suspension point may be taken now: the other slots have issued the bundle, the engines are idle, no tile is `FILLING` or `DRAINING`,
the porch commits, no status word is still to be written, and the save area is neither in reform nor in a space that is being cleared. -/
def pointReady (l : List Nat) (s : State) : Prop :=
  othersPending s s.turn = false ∧ quiet s s.turn = true ∧ saveWaits (pointReached l s) s.turn = false
  ∧ (∃ t, commitPorch (pointReached l s) s.turn = .ok t) ∧ saveWaits (committed l s) s.turn = false ∧ statusDue (committed l s) s.turn = false

/-- The context as the commit of its suspension point leaves it. -/
def afterCommitOf (l : List Nat) (c : Ctx) (s : State) : Ctx := ((committed l s).ctxOf s.turn).getD c

/-- The context steps over the bundle of its suspension point. -/
def steppedOver (s : State) : State := s.modCtx s.turn (endBundle s)

/-- The context has a record whose save area can be written (R312). -/
def mayLeave (s : State) : Prop := ∃ c, s.ctxOf s.turn = some c ∧ c.hasRecord = true ∧ saveFault s s.turn c = none

/-- The save area is written from the context changed by `f`, and the core is idle: the record has left it (R310 steps 4 and 5, R312). -/
def leftAs (f : Ctx → Ctx) (smask : BitVec 24) (waitv status : Word) (wait : Nat) (pinf : Bool) (s : State) : State := match s.ctxOf s.turn with
  | none => s
  | some c =>
    let t := writeSave s (saveRecord (f c).record (f c).foldm (f c).pmt wait pinf) ((f c).toSaved smask status waitv)
    t.setCore s.turn (Core.vacate s.turn (t.core s.turn))

/-- The record has left the core with its save area as the context stands. -/
def left (smask : BitVec 24) (waitv status : Word) (wait : Nat) (pinf : Bool) (s : State) : State :=
  leftAs (fun c => c) smask waitv status wait pinf s

/-- Both loops become inactive (R78, R79). -/
def loopsOff (c : Ctx) : Ctx := { c with lc0 := { c.lc0 with active := false }, lc1 := { c.lc1 with active := false } }

/-- The save area is written and the context stays on its core, with a status word in `s0` (R314). -/
def stayed (waitv status : Word) (s : State) : State := match s.ctxOf s.turn with
  | none => s
  | some c =>
    let v := c.toSaved 0xFFFFFF status waitv
    stayAt (writeSave s (saveRecord c.record c.foldm c.pmt 0 false) v) s.turn c v

/-- A record in state RETURNING (R293). -/
def returning (s t : State) : State := match s.ctxOf s.turn with
  | none => t
  | some c => { t with returning := t.returning ++ [⟨c.record.frameObj, c.record.frameOff, c.record.pasture, none, none⟩] }

/-- A record in state PARKED (R293), with the access by which it waits, as its wake acquires (R306, R321). -/
def parked (on : WakeOn) (a : Act) (s t : State) : State := match s.ctxOf s.turn with
  | none => t
  | some c => { t with waiting := t.waiting ++ [⟨c.record.frameObj, c.record.frameOff, c.record.pasture, on, s.time, a⟩] }

/-- The read by which an operation of C waits on a word or a fold: of every class, acquiring (R306, R321). -/
def waitAct (s : State) (c : Ctx) (scope obj o n : Nat) : Act :=
  { readAct s.turn c .c .p 16 obj o n with scope := scope, kind := .read true [] }

/-- A write that an operation of C holds (R318, R324, R326). -/
def controlHeld (c : Ctx) (cls : Nat) (rel : Bool) (scope : Nat) (cap : Cap) (off n : Nat) (op : HeldOp) : Held :=
  { scalarHeld c cls rel scope cap off n op with slot := .c }

/-- The operation holds a write where its checks pass and nothing makes the write wait. -/
def Holds (i : Instr) (pre : Ctx → State → Prop) (write : Ctx → State → Held) : Prop :=
  Does i (fun c s => pre c s ∧ holdsNow (write c s) s c) fun c s => s.modCur (withHeld (write c s))

/-- The `FOLDM` entry of the context that names a fold, with the level that the fold has (R325). -/
def foldNamed (s : State) (c : Ctx) (fid i : Nat) : Prop :=
  foldmFind c.foldm fid = some i ∧ (s.fold fid).valid = true ∧ (s.fold fid).lvl = (foldmEntry c.foldm i).2.1

end Sys2Proof.Claims

/-- R38 and R73: a `nop` of any slot does nothing but issue. -/
def Sys2Proof.Claims.NopOnlyIssues : Prop := ∀ sl : Slot, AlwaysDoes (.nop sl) fun _ s => s

/-- R72, R74, R75: a transfer to a bundle of the code object chooses it as the next bundle; the calls write the address of the bundle after
them to `s31` with latency 1. -/
def Sys2Proof.Claims.TransfersChooseTheirTarget : Prop := ∀ (disp : BitVec 18) (src : BitVec 6),
  Does (.br disp) (fun c s => inCode s c (displaced c disp)) (fun c s => chosen (displaced c disp).toNat s)
  ∧ Does (.jmp src) (fun c s => inCode s c (readInt s c .c src).toNat) (fun c s => chosen (readInt s c .c src).toNat s)
  ∧ Does (.call disp) (fun c s => inCode s c (displaced c disp)) (fun c s => (chosen (displaced c disp).toNat s).launch (linkWrite c))
  ∧ Does (.callr src) (fun c s => inCode s c (readInt s c .c src).toNat)
      (fun c s => (chosen (readInt s c .c src).toNat s).launch (linkWrite c))
  ∧ Does .ret (fun c s => inCode s c (readS s c .c 31).toNat) (fun c s => chosen (readS s c .c 31).toNat s)

/-- R72: a transfer to anything else ends the context with the fatal bounds fault, and writes no link. That its report names no address is the
model's choice (log 43). -/
def Sys2Proof.Claims.TransfersOutsideAreFatal : Prop := ∀ (s : State) (c : Ctx) (disp : BitVec 18) (src : BitVec 6), Issues s c →
  let ends := fun i => exec i s = .next (fatalIn s s.turn 0 ⟨0x03, 0, none, 0, false⟩).tick
  (¬ inCode (stateFor (.br disp) s c) (ctxFor (.br disp) c) (displaced (ctxFor (.br disp) c) disp) → ends (.br disp))
  ∧ (¬ inCode (stateFor (.call disp) s c) (ctxFor (.call disp) c) (displaced (ctxFor (.call disp) c) disp) → ends (.call disp))
  ∧ (¬ inCode (stateFor (.jmp src) s c) (ctxFor (.jmp src) c) (readInt (stateFor (.jmp src) s c) (ctxFor (.jmp src) c) .c src).toNat →
      ends (.jmp src))
  ∧ (¬ inCode (stateFor (.callr src) s c) (ctxFor (.callr src) c) (readInt (stateFor (.callr src) s c) (ctxFor (.callr src) c) .c src).toNat →
      ends (.callr src))
  ∧ (¬ inCode (stateFor .ret s c) (ctxFor .ret c) (readS (stateFor .ret s c) (ctxFor .ret c) .c 31).toNat → ends .ret)

/-- R38, R72 to R75: `nop`, and the transfers inside and outside the code object. The address of that fault is the model's choice (log 43). -/
def Obligations.TransfersAndNops : Prop := Claims.NopOnlyIssues ∧ Claims.TransfersChooseTheirTarget ∧ Claims.TransfersOutsideAreFatal

/-- R76: `loop` with a count of zero leaves the loop inactive and continues after the end bundle; with any other count the counter is written,
the loop covers the bundles from the next one to its end, and the next bundle is the body's first. -/
def Sys2Proof.Claims.LoopStarts : Prop := ∀ (l : Bool) (cnt : BitVec 6) (e : BitVec 11),
  Does (.loop l cnt e) (fun c s => (readInt s c .c cnt).setWidth 32 = (0 : BitVec 32) ∧ inCode s c ((c.pc + 32 * e.toNat + 32 : Nat) : Int))
    (fun c s => ((chosen (c.pc + 32 * e.toNat + 32) s).launch (counterWrite c l 0)).modCur
      (onLoop l fun x => { x with active := false }))
  ∧ Does (.loop l cnt e) (fun c s => (readInt s c .c cnt).setWidth 32 ≠ (0 : BitVec 32))
    (fun c s => chosen (c.pc + 32) ((s.launch (counterWrite c l ((readInt s c .c cnt).setWidth 32))).modCur
      (onLoop l fun x => { x with start := c.pc + 32, stop := c.pc + 32 * e.toNat, active := true })))

/-- R331, R332: `bkt.jmp` whose table can be read continues at the target of the first pair whose BOUND is not below the count, and at the
next bundle where no BOUND reaches it. -/
def Sys2Proof.Claims.BucketJump : Prop := ∀ (cnt : BitVec 6) (xs : BitVec 3) (tdisp : BitVec 20) (np : BitVec 4)
    (read : State) (l : List (BitVec 256)),
  let table := fun (c : Ctx) (s : State) =>
    tableBundles s.turn c (c.pc + 32 * tdisp.toInt) (np.toNat / 3 + 1) s = .ok (read, l)
  let found := fun (c : Ctx) (s : State) =>
    ((List.range (np.toNat + 1)).map (bucket l)).find? fun p => decide ((readInt s c .c cnt).toNat % 2 ^ 32 ≤ p.1)
  (∀ bound target, Does (.bktJmp cnt xs tdisp np)
    (fun c s => table c s ∧ found c s = some (bound, target) ∧ inCode read c ((32 * target : Nat) : Int))
    (fun _ _ => chosen (32 * target) read))
  ∧ Does (.bktJmp cnt xs tdisp np) (fun c s => table c s ∧ found c s = none) (fun c _ => chosen (c.pc + 32) read)

/-- R76, R331, R332: the start of a loop and the bucket jump. -/
def Obligations.LoopsAndBuckets : Prop := Claims.LoopStarts ∧ Claims.BucketJump

/-- R310 to R317, R79: the suspension points without a check. Where the point may be taken and the save area can be written, `park` leaves
the record RETURNING with CAUSE 1, `seg.mark` stays with CAUSE 9, and `exit` retires the record. The model's choices: `exit` leaves both loops
inactive in the save area, and its STATUS free (log 46); a firmware context, which has no record, leaves its core by `exit` with nothing written
(log 18). -/
def Obligations.ParkMarkAndExit : Prop := ∀ (xs : BitVec 3) (mask : BitVec 24),
  let ready := fun (c : Ctx) (s : State) => c.suspended = none ∧ pointReady [] s ∧ mayLeave (steppedOver (committed [] s))
  Does (.park xs mask) ready (fun _ s =>
    let t := steppedOver (committed [] s)
    returning t (left mask 0 1 0 false t))
  ∧ Does .segMark ready (fun _ s => stayed 0 9 (steppedOver (committed [] s)))
  ∧ Does .exit ready (fun _ s =>
    let t := steppedOver (committed [] s)
    leftAs loopsOff 0xFFFFFF 0 (BitVec.ofNat 64 (t.pick 7000)) 0 false t)
  ∧ Does .exit (fun c s => c.suspended = none ∧ pointReady [] s
        ∧ ∃ x, (steppedOver (committed [] s)).ctxOf s.turn = some x ∧ x.hasRecord = false) (fun _ s =>
      let t := steppedOver (committed [] s)
      t.setCore s.turn (Core.vacate s.turn (t.core s.turn)))

/-- R12, R306, R318: `spawn` through a block that the core reaches and may read, into a pasture that the context's paddock owns, is held as a
release. -/
def Sys2Proof.Claims.SpawnIsHeld : Prop := ∀ (k : BitVec 3) (o p : BitVec 6),
  let pid := fun (s : State) (c : Ctx) => (readInt s c .c p).toNat
  let off := fun (s : State) (c : Ctx) => (readInt s c .c o).toNat
  Holds (.spawn k o p) (fun c s =>
      let cap := readK s c .c k.toNat
      let d := s.pasture (pid s c)
      cap.tag = true ∧ cap.has rightR = true ∧ off s c % 64 = 0 ∧ off s c + 64 ≤ cap.len ∧ pid s c ≤ 4095
      ∧ pastValid d = true ∧ pastPaddock d = c.paddock ∧ pastCmask d ≠ 0
      ∧ tierCheck s s.turn cap.obj (cap.base + off s c) 64 0 = .ok ())
    fun c s => controlHeld c 0 true 4 (readK s c .c k.toNat) (off s c) 64 (.spawn (pid s c))

/-- R324, R325, R326: `wakew` and `fold.arrive` whose checks at issue pass are held as releases. -/
def Sys2Proof.Claims.WakesAndArrivalsAreHeld : Prop := ∀ (k xs : BitVec 3) (o : BitVec 6) (scope : BitVec 3) (n : BitVec 16) (fid : BitVec 10),
  Holds (.wakew k xs o scope n) (fun c s => watchCheck s s.turn (readK s c .c k.toNat) (readInt s c .c o).toNat 4 rightW = .ok ())
    (fun c s => controlHeld c 16 true scope.toNat (readK s c .c k.toNat) (readInt s c .c o).toNat 4 (.wake n.toNat scope.toNat))
  ∧ ∀ i, Holds (.foldArrive fid) (fun c s => foldNamed s c fid.toNat i)
    (fun c s => controlHeld c 16 true ((s.fold fid.toNat).lvl + 1) Cap.null 0 0 (.arrive i fid.toNat))

/-- R320, R321: `waitw` stays with CAUSE 8 where the word read at its point of order meets the condition, and parks on the word where it does not
and the watch table has room. The STATUS that a record shows while it is PARKED is free (log 46). -/
def Sys2Proof.Claims.WaitStaysOrParks : Prop := ∀ (k xs : BitVec 3) (o : BitVec 6) (cond : BitVec 2) (w64 : Bool) (scope : BitVec 3) (v : BitVec 6),
  let n := if w64 then 8 else 4
  let value := fun (c : Ctx) (s : State) => if cond = 2 then 0 else (readInt s c .c v).toNat % 256 ^ n
  let cap := fun (c : Ctx) (s : State) => readK s c .c k.toNat
  let off := fun (c : Ctx) (s : State) => (readInt s c .c o).toNat
  let l := fun (c : Ctx) (s : State) => [(cap c s).val.toNat, b2n (cap c s).tag, off c s, value c s]
  let at' := fun (c : Ctx) (s : State) => (cap c s).base + off c s
  let now := fun (c : Ctx) (s : State) => afterCommitOf (l c s) c s
  let access := fun (c : Ctx) (s : State) => waitAct s (now c s) scope.toNat (cap c s).obj (at' c s) n
  let seen := fun (c : Ctx) (s : State) =>
    (fillSpan (touch (committed (l c s) s) (cap c s).obj (at' c s) n 0) (cap c s).obj (at' c s) n 0).recordRead (access c s)
  let word := fun (c : Ctx) (s : State) => ofBytes (partyBytes (seen c s) (cap c s).obj (at' c s) n 0)
  let met := fun (c : Ctx) (s : State) => (cond = 0 ∧ word c s ≠ value c s) ∨ (cond = 1 ∧ word c s = value c s)
  let ready := fun (c : Ctx) (s : State) =>
    c.suspended = none ∧ watchCheck s s.turn (cap c s) (off c s) n rightR = .ok () ∧ pointReady (l c s) s
    ∧ mayLeave (steppedOver (seen c s))
    ∧ (committed (l c s) s).ctxOf s.turn = some (now c s)
    ∧ portCheck (committed (l c s) s) (whoOf s.turn (now c s)) (some (cap c s).gen) (cap c s).obj (at' c s) n false 0 = .ok ()
    ∧ fillHeld (committed (l c s) s) (cap c s).obj (at' c s) n 0 = false
  Does (.waitw k xs o cond w64 scope v) (fun c s => ready c s ∧ met c s)
    (fun c s => stayed (BitVec.ofNat 64 (value c s)) 8 (steppedOver (seen c s)))
  ∧ Does (.waitw k xs o cond w64 scope v)
    (fun c s => ready c s ∧ ¬ met c s ∧ watchRoom (seen c s) (cap c s).obj (at' c s) n = true)
    (fun c s =>
      let t := steppedOver (seen c s)
      parked (.word n cond.toNat (BitVec.ofNat 64 (value c s)) scope.toNat (cap c s).obj (at' c s) (cap c s).gen (now c s).paddock) (access c s) t
        (left 0xFFFFFF (BitVec.ofNat 64 (value c s)) (BitVec.ofNat 64 (t.pick 7000)) (2 ^ 60) false t))

/-- R325, R327, R328: `fold.wait` and `fold.sync` stay with CAUSE 8 where the entry is armed for a phase that has ended, whose ARM is then clear,
and park on the fold's phase otherwise. The STATUS that a record shows while it is PARKED is free (log 46). -/
def Sys2Proof.Claims.FoldWaits : Prop := ∀ (fid : BitVec 10) (i : Nat),
  let armed := fun (s : State) => ∃ c, s.ctxOf s.turn = some c ∧ c.farm.getLsbD i = true
    ∧ (s.fold fid.toNat).phase ≠ c.farm.getLsbD (4 + i)
  let access := fun (s : State) (c : Ctx) => waitAct s c ((s.fold fid.toNat).lvl + 1) (foldPseudo fid.toNat) 0 1
  let disarmed := fun (s : State) (c : Ctx) =>
    (s.recordRead (access s c)).modCur fun c => { c with farm := BitVec.ofNat 8 (c.farm.toNat &&& (0xFF - 2 ^ i)) }
  let waiter := fun (s : State) => s.setFold fid.toNat (setBits (s.fold fid.toNat) 16 16 ((s.fold fid.toNat).waiters + 1))
  let out := fun (s : State) (c : Ctx) =>
    let ph := (s.fold fid.toNat).phase
    let t := steppedOver (waiter s)
    parked (.fold fid.toNat ph i) (access s c) t
      (left 0xFFFFFF 0 (BitVec.ofNat 64 (t.pick 7000)) (2 * 2 ^ 60 + b2n ph * 1024 + fid.toNat) false t)
  let arrival := fun (c : Ctx) (s : State) =>
    { controlHeld c 16 true ((s.fold fid.toNat).lvl + 1) Cap.null 0 0 (.arrive i fid.toNat) with slot := .cf }
  let arrived := fun (c : Ctx) (s : State) => keepOperands (s.modCur (withHeld (arrival c s))) s.turn .c []
  let waits := fun (c : Ctx) (s : State) => c.suspended = none ∧ foldNamed s c fid.toNat i
  let stays := fun (c : Ctx) (s : State) =>
    pointReady [i] s ∧ armed (committed [i] s) ∧ mayLeave (steppedOver (disarmed (committed [i] s) (afterCommitOf [i] c s)))
  let leaves := fun (s : State) => pointReady [i] s ∧ ¬ armed (committed [i] s) ∧ mayLeave (steppedOver (waiter (committed [i] s)))
  let arrives := fun (c : Ctx) (s : State) =>
    waits c s ∧ c.caught .c = none ∧ othersPending s s.turn = false ∧ holdsNow (arrival c s) s c
  Does (.foldWait fid) (fun c s => waits c s ∧ stays c s)
    (fun c s => stayed 0 8 (steppedOver (disarmed (committed [i] s) (afterCommitOf [i] c s))))
  ∧ Does (.foldWait fid) (fun c s => waits c s ∧ leaves s ∧ (committed [i] s).ctxOf s.turn ≠ none)
    (fun c s => out (committed [i] s) (afterCommitOf [i] c s))
  ∧ Does (.foldSync fid) (fun c s => arrives c s ∧ stays c (arrived c s))
    (fun c s => stayed 0 8 (steppedOver (disarmed (committed [i] (arrived c s)) (afterCommitOf [i] c (arrived c s)))))
  ∧ Does (.foldSync fid) (fun c s => arrives c s ∧ leaves (arrived c s) ∧ (committed [i] (arrived c s)).ctxOf s.turn ≠ none)
    (fun c s => out (committed [i] (arrived c s)) (afterCommitOf [i] c (arrived c s)))

/-- R329: `fold.bytes` commits the porch, clears REPLAY and adds the count, read as a signed 32-bit number, to the fold's PENDING. -/
def Sys2Proof.Claims.FoldBytesAdds : Prop := ∀ (n : BitVec 6) (fid : BitVec 10) (i : Nat),
  let count := fun (c : Ctx) (s : State) => (readInt s c .c n).toNat % 2 ^ 32
  let after := fun (c : Ctx) (s : State) => match commitPorch (keepOperands s s.turn .c [count c s]) s.turn with
    | .ok t => t.modCur fun c => { c with replay := false }
    | .error _ => s
  Does (.foldBytes n fid) (fun c s => c.caught .c = none ∧ foldNamed s c fid.toNat i
      ∧ (∃ t, commitPorch (keepOperands s s.turn .c [count c s]) s.turn = .ok t)
      ∧ -(2 ^ 31) ≤ ((after c s).fold fid.toNat).pending + signed 32 (count c s)
      ∧ ((after c s).fold fid.toNat).pending + signed 32 (count c s) ≤ 2 ^ 31 - 1)
    fun c s =>
      let t := after c s
      settleFold (t.setFold fid.toNat ((t.fold fid.toNat).setPending ((t.fold fid.toNat).pending + signed 32 (count c s)))) fid.toNat

/-- R318, R324 to R329: the operations of C that hold a write, and those on folds. That the STATUS of a record is free while it is PARKED is the
model's choice (log 46). -/
def Obligations.SpawnsAndFolds : Prop := Claims.SpawnIsHeld ∧ Claims.WakesAndArrivalsAreHeld ∧ Claims.FoldWaits ∧ Claims.FoldBytesAdds

/-- R399, R400: `probe` of a span of length zero, or of a span whose pages are all resident, stays with CAUSE 8; a page that is not there puts
the record into the pinfold, with an entry in the cluster's ring and a notice to its shepherd; where a page of the span is lost it stays with
CAUSE 13, and where the ring is full with CAUSE 12. STATUS while the record is parked is the model's choice: free (log 46). -/
def Sys2Proof.Claims.ProbeStaysOrPins : Prop := ∀ (k : BitVec 3) (w : Bool) (o len : BitVec 6),
  let cap := fun (c : Ctx) (s : State) => readK s c .c k.toNat
  let off := fun (c : Ctx) (s : State) => (readInt s c .c o).toNat
  let n := fun (c : Ctx) (s : State) => (readInt s c .c len).toNat
  let l := fun (c : Ctx) (s : State) => [(cap c s).val.toNat, b2n (cap c s).tag, off c s, n c s]
  let at' := fun (c : Ctx) (s : State) => (cap c s).base + off c s
  let ready := fun (c : Ctx) (s : State) => c.suspended = none ∧ pointReady (l c s) s
  let allowed := fun (c : Ctx) (s : State) => (cap c s).tag = true ∧ (cap c s).has (if w then rightW else rightR) = true
    ∧ n c s ≤ 67108864 ∧ off c s + n c s ≤ (cap c s).len
  let entry := fun (c : Ctx) (s : State) => (committed (l c s) s).seenObj (cap c s).obj 0
  let passes := fun (c : Ctx) (s : State) => isLocal (cap c s).obj = false ∧ (committed (l c s) s).isTable (cap c s).obj = true
    ∧ (entry c s).valid = true ∧ (cap c s).gen = (entry c s).gen ∧ at' c s + n c s ≤ (entry c s).size
    ∧ ∃ c', (committed (l c s) s).ctxOf s.turn = some c' ∧ (levelOf s.turn ≠ .u ∨ (entry c s).permits c'.paddock = true)
  let missing := fun (c : Ctx) (s : State) =>
    (pagesOf (entry c s).page (at' c s) (n c s)).find? fun pg => !probeOk (committed (l c s) s) (entry c s) w pg
  let pinned := fun (c : Ctx) (s : State) (pg : Nat) =>
    let t := committed (l c s) s
    let cl := clusterOf s.turn
    let seq := t.num (t.pinfold cl) 8
    match t.ctxOf s.turn with
    | none => t
    | some c' =>
      let u := t.hubWrite (t.pinEntry cl seq) 64 (ofBytes (pinEntryBytes t s.turn c' (cap c s) (entry c s) w seq (at' c s) (n c s) pg))
      let u := u.hubWrite (u.pinfold cl) 8 (seq + 1)
      u.tell cl 0 (noticeOf u (unitOf s.turn) 0x32 s.turn 0 seq)
  let prio := fun (c : Ctx) (s : State) =>
    let x := (afterCommitOf (l c s) c s).record
    min x.prio (pastPrio ((committed (l c s) s).pasture x.pasture))
  let lost := fun (c : Ctx) (s : State) =>
    ((pagesOf (entry c s).page (at' c s) (n c s)).any fun p => ((committed (l c s) s).pageEnt (entry c s) p).lost) = true
  let free := fun (c : Ctx) (s : State) =>
    pinFree (committed (l c s) s) (clusterOf s.turn) ((committed (l c s) s).num ((committed (l c s) s).pinfold (clusterOf s.turn)) 8) = true
  Does (.probe k w o len) (fun c s => ready c s ∧ n c s = 0 ∧ mayLeave (steppedOver (committed (l c s) s)))
    (fun c s => stayed 0 8 (steppedOver (committed (l c s) s)))
  ∧ Does (.probe k w o len) (fun c s => ready c s ∧ 0 < n c s ∧ allowed c s ∧ passes c s ∧ missing c s = none
      ∧ mayLeave (steppedOver (committed (l c s) s)))
    (fun c s => stayed 0 8 (steppedOver (committed (l c s) s)))
  ∧ Does (.probe k w o len) (fun c s => ready c s ∧ 0 < n c s ∧ allowed c s ∧ passes c s ∧ missing c s ≠ none ∧ lost c s
      ∧ mayLeave (steppedOver (committed (l c s) s)))
    (fun c s => stayed 0 13 (steppedOver (committed (l c s) s)))
  ∧ Does (.probe k w o len) (fun c s => ready c s ∧ 0 < n c s ∧ allowed c s ∧ passes c s ∧ missing c s ≠ none ∧ ¬ lost c s ∧ ¬ free c s
      ∧ mayLeave (steppedOver (committed (l c s) s)))
    (fun c s => stayed 0 12 (steppedOver (committed (l c s) s)))
  ∧ ∀ pg, Does (.probe k w o len) (fun c s => ready c s ∧ 0 < n c s ∧ allowed c s ∧ passes c s ∧ missing c s = some pg
      ∧ ¬ lost c s ∧ free c s
      ∧ mayLeave (steppedOver (pinned c s pg)))
    (fun c s =>
      let t := committed (l c s) s
      let u := steppedOver (pinned c s pg)
      parked (.pinfold (clusterOf s.turn) (t.num (t.pinfold (clusterOf s.turn)) 8) (prio c s) 0)
        (readAct s.turn (afterCommitOf (l c s) c s) .c .p 16 0 0 0) u
        (left 0xFFFFFF 0 (BitVec.ofNat 64 (u.pick 7000)) 0 true u))

/-- R320, R321, R399, R400: `waitw` and `probe`. The model's choice: STATUS while a record is PARKED is free (log 46). -/
def Obligations.WaitsAndProbes : Prop := Claims.WaitStaysOrParks ∧ Claims.ProbeStaysOrPins

namespace Sys2Proof.Claims

/-- The context has raised a resumable event at its next bundle, with its bundle issued in every slot: it is frozen, and the event stands in
the recorder and in its shepherd's queue (R389, R391, R398). -/
def frozenAtNext (kind code : Nat) (arg : Word) (s : State) : State :=
  let t := s.modCur (endBundle s)
  match t.cur with
  | none => t
  | some c =>
    let e := trapOf t t.turn c kind (code % 256) 0 c.pc (List.replicate 8 0) none arg
    (t.setCtx t.turn { c with mode := .frozen e none }).tell (queueOf t.turn) (code / 256) e

/-- The core of a shepherd's cluster that a trap id names, its context frozen with that id (R371, R392). -/
def FrozenAs (s : State) (id core : Nat) (x : Ctx) (e : TrapEv) : Prop :=
  id % 64 < 48 ∧ core = 48 * clusterOf s.turn + id % 64 ∧ s.ctxOf core = some x ∧ x.mode = .frozen e (some id)

/-- The core of a shepherd's cluster that a core number names, holding a context (R371). -/
def HoldsContext (s : State) (core : Nat) (x : Ctx) : Prop :=
  core < 288 ∧ clusterOf core = clusterOf s.turn ∧ s.ctxOf core = some x

/-- A context goes on after a resume (R372): a new budget unless it is zero, a forced park where asked for, an assist's results in place,
and an event that waits behind before any bundle. -/
def resumed (core : Nat) (x : Ctx) (e : TrapEv) (b : Nat) (park : Bool) (s : State) : State :=
  let t := if e.kind = 0x21 then releaseAssist s core else s
  let f := fun c : Ctx => { c with
    budget := if b % 2 ^ 32 = 0 then c.budget else BitVec.ofNat 32 (b % 2 ^ 32), parkAsked := c.parkAsked || park }
  match x.pend with
  | [] => (t.modCtx core f).modCtx core fun c => { c with mode := .run }
  | u :: rest => ((t.modCtx core f).modCtx core fun c => { c with mode := .frozen u none, pend := rest }).enqueue (queueOf core) u

/-- A context killed by its shepherd (R372): it ends with the event at the C slot's next bundle (R391); in the middle of a commit whose writes
have begun to perform the event is recorded, and it only goes on with them and ends when they have all performed (R408). -/
def killed (core : Nat) (x : Ctx) (s : State) : State :=
  let e := trapOf s core x 0x13 0 0 (x.afterCycle s).standsAt.1 (x.afterCycle s).standsAt.2 none 0
  if x.committing && x.porch.any (·.due) then
    if x.doomed.isSome then s
    else (s.recordEvent 0 e).setCore core { s.core core with
      mx := [], cp := [], ctx := some { x with doomed := some e, mode := .run, pend := [], ringWait := none } }
  else (releaseSlots s x.reserved).endContext core e

end Sys2Proof.Claims

/-- R398: `trap` and `brk` raise their resumable events at the next bundle, with ARG and CODE. -/
def Sys2Proof.Claims.TrapsFreeze : Prop := ∀ (a : BitVec 6) (code : BitVec 12),
  Does (.trap a code) (fun c _ => c.mode = .run) (fun c s => frozenAtNext 0x22 code.toNat (readInt s c .c a) s)
  ∧ Does (.brk code) (fun c _ => c.mode = .run) (fun _ s => frozenAtNext 0x23 code.toNat 0 s)

/-- R115, R130, R373, R374: `rfe` returns to `TRAPRET`, as writes of earlier bundles left it, with delivery enabled; `halt` commits the porch and stops
the core, unless an event is pending for it, of the hub too at the housekeeper. The model's choice: `rfe` in the end bundle of a loop takes no end
action (log 80). -/
def Sys2Proof.Claims.SupervisorReturns : Prop :=
  AlwaysDoes .rfe (fun c s => (chosen (stickyAt c.trapRet 1 c.pos c.trapRetQ).toNat s).modCur fun c => { c with held := false })
  ∧ ∀ t, Does .halt (fun _ s => commitPorch s s.turn = .ok t) (fun _ _ =>
      let u := t.modCur fun c => { c with replay := false }
      u.modCur fun c => { endBundle u c with
        mode := if sget [] u.queues (queueOf u.turn) = [] ∧ (u.turn ≠ 294 ∨ u.hubEvents = 0) then .halted else .run })

/-- R373, R374, R398: `trap`, `brk`, `rfe` and `halt`. The model's choice: `rfe` takes no end action at its bundle (log 80). -/
def Obligations.TrapsAndReturns : Prop := Claims.TrapsFreeze ∧ Claims.SupervisorReturns

/-- R371, R372, R394: `ctx.resume` of a frozen context lets it go on, with a forced park in MODE 1; `ctx.kill` and `ctx.kill.run` end their contexts
with the fatal event of kind 0x13. What comes first where another event or a park is due is the model's choice (log 64). -/
def Sys2Proof.Claims.ResumesAndKills : Prop := ∀ (a b : BitVec 6) (core : Nat) (x : Ctx) (e : TrapEv),
  Does (.ctxResumeRun a b) (fun c s => FrozenAs s (readInt s c .c a).toNat core x e)
    (fun c s => resumed core x e (readInt s c .c b).toNat false s)
  ∧ Does (.ctxResumePark a b) (fun c s => FrozenAs s (readInt s c .c a).toNat core x e)
    (fun c s => resumed core x e (readInt s c .c b).toNat true s)
  ∧ Does (.ctxKill a) (fun c s => FrozenAs s (readInt s c .c a).toNat core x e) (fun _ s => killed core x s)
  ∧ Does (.ctxKillRun a) (fun c s => (readInt s c .c a).toNat = core ∧ HoldsContext s core x ∧ x.doomed = none) (fun _ s => killed core x s)

/-- R303, R372, R393, R397: `ctx.resume` MODE 2 aborts a segment whose REPLAY is set, its assist released first, parks a frozen context that cannot
be aborted, and leaves a running one that cannot be aborted as it is. What MODE 2 leaves of a context that cannot be replayed is the model's choice
(log 64). -/
def Sys2Proof.Claims.PreemptByState : Prop := ∀ (a b : BitVec 6) (core : Nat) (x : Ctx),
  let names := fun (c : Ctx) (s : State) => readInt s c .c b = 0 ∧ (readInt s c .c a).toNat = core ∧ HoldsContext s core x
    ∧ (∀ n, x.mode ≠ .resending n) ∧ x.doomed = none ∧ (x.committing = false ∨ heldByFailure s core = false)
  let assist := x.event.any (fun t => t.kind == 0x21) || x.pend.any fun t => t.kind == 0x21
  Does (.ctxResumePre a b) (fun c s => names c s ∧ x.replay = true ∧ x.committing = false ∧ x.hasRecord = true)
    (fun _ s => abortSegment (if assist then releaseAssist s core else s) core)
  ∧ Does (.ctxResumePre a b) (fun c s => names c s ∧ (x.replay = false ∨ x.committing = true ∨ x.hasRecord = false)
      ∧ (∃ e id, x.mode = .frozen e id ∧ e.kind ≠ 0x21) ∧ x.pend = [])
    (fun _ s => (s.recall core).modCtx core fun c => { c with mode := .run, pend := [], parkAsked := true })
  ∧ Does (.ctxResumePre a b) (fun c s => names c s ∧ (x.replay = false ∨ x.committing = true ∨ x.hasRecord = false)
      ∧ (x.mode = .run ∨ x.mode = .halted) ∧ x.pend = [])
    (fun _ s => s)

/-- R372: a supervisor's operation that names nothing changes nothing but the recorder: no frozen context has the trap id, or no context that is
not ended already is on the core. The type of the entry is open (log 15). -/
def Sys2Proof.Claims.NamelessOnlyRecords : Prop := ∀ (a b : BitVec 6) (s : State) (c : Ctx) (i : Instr), Issues s c →
  let u := stateFor i s c
  let named := (readInt u (ctxFor i c) .c a).toNat
  let onlyRecords := ∃ entry, Completes i s { u with recorder := entry }
  (i ∈ [Instr.ctxResumeRun a b, .ctxResumePark a b, .ctxKill a] → (∀ core x e, ¬ FrozenAs u named core x e) → onlyRecords)
  ∧ (i ∈ [Instr.ctxResumePre a b, .ctxKillRun a] → (i = .ctxResumePre a b → readInt u (ctxFor i c) .c b = 0) →
      (∀ x, HoldsContext u named x → x.doomed ≠ none) → onlyRecords)

/-- R303, R371, R372, R393, R394: `ctx.resume` and `ctx.kill`. The model's choices: a forced park asked for by MODE 1 of a context with an event held
behind waits for that event's delivery, and what MODE 2 leaves of a parked context's events (log 64). -/
def Obligations.ContextsAreSupervised : Prop := Claims.ResumesAndKills ∧ Claims.PreemptByState ∧ Claims.NamelessOnlyRecords

namespace Sys2Proof.Claims

/-- A result of CF with latency 1, without a ring entry (R363, R365). -/
def cfResult (c : Ctx) (d : Dst) (v : RVal) : Fly :=
  { slot := .cf, pos := c.pos, due := c.pos + 1, var := false, done := false, divider := false, dst := some (d, v), ring := .none,
    pushed := false, flags := 0, amax := 0, amaxNan := false }

/-- A capability in register `kd` (R363). -/
def capResult (c : Ctx) (d : BitVec 4) (v : Cap) : Fly := cfResult c (.k d.toNat) (.cap v)
/-- A word in register `sd` (R365). -/
def wordResult (c : Ctx) (d : BitVec 5) (v : Word) : Fly := cfResult c (.s d.toNat) (.word v (BitVec.allOnes 64))
/-- Staging register `xs n`, as CF reads it. -/
def xsOf (s : State) (c : Ctx) (n : Nat) : Word := readStage s c .cf (8 + n)

/-- The fields of Table 21.1 of a capability. -/
def hasFields (k : Cap) (obj rights base len gen : Nat) (tag : Bool) : Prop :=
  k.obj = obj ∧ k.rights = rights ∧ k.base = base ∧ k.len = len ∧ k.gen = gen ∧ k.tag = tag

/-- A capability of given fields in register `kd`. -/
def Makes (i : Instr) (d : BitVec 4) (p : Ctx → State → Cap → Prop) : Prop :=
  ∀ s c, Issues s c → ∃ k, p (ctxFor i c) (stateFor i s c) k ∧ Completes i s ((stateFor i s c).launch (capResult (ctxFor i c) d k))

end Sys2Proof.Claims

/-- R363, R364: what `kmov`, `kclr`, `kderive`, `krestrict` and `kmint` make, field by field, and when they leave the tag set. -/
def Sys2Proof.Claims.CapabilityResults : Prop := ∀ (d src xb : BitVec 4) (keep : BitVec 7),
  Makes (.kmov d src) d (fun c s k => k = readK s c .cf src.toNat)
  ∧ Makes (.kclr d) d (fun _ _ k => k = ⟨0, false⟩)
  ∧ Makes (.kderive d src xb) d (fun c s k =>
      let p := readK s c .cf src.toNat
      let off := (xsOf s c xb.toNat).toNat
      let len := (xsOf s c (xb.toNat + 1)).toNat
      hasFields k p.obj p.rights ((p.base + off % 2 ^ 40) % 2 ^ 40) (len % 2 ^ 40) p.gen
        (p.tag && p.has rightD && decide (off % 2 ^ 40 + len % 2 ^ 40 ≤ p.len) && decide (off < 2 ^ 40) && decide (len < 2 ^ 40)))
  ∧ Makes (.krestrict d src keep) d (fun c s k =>
      let p := readK s c .cf src.toNat
      hasFields k p.obj (p.rights / 128 * 128 + (p.rights % 128 &&& keep.toNat)) p.base p.len p.gen (p.tag && p.has rightD))
  ∧ Makes (.kmint d xb) d (fun c s k =>
      k.val.toNat = (xsOf s c (xb.toNat + 1)).toNat * 2 ^ 64 + (xsOf s c xb.toNat).toNat
        ∧ k.tag = (decide (k.base + k.len ≤ 2 ^ 40) && (k.has rightL == isLocal k.obj)))

/-- R365, R366: the reads of a capability's fields, and `kcheck`'s predicate: the tag, every right asked for, and a window that holds the
span. -/
def Sys2Proof.Claims.CapabilityReads : Prop := ∀ (d : BitVec 5) (src xb : BitVec 4) (p : BitVec 2) (rights : BitVec 8),
  let cap := fun (c : Ctx) (s : State) => readK s c .cf src.toNat
  AlwaysDoes (.kgetObj d src) (fun c s => s.launch (wordResult c d (BitVec.ofNat 64 (cap c s).obj)))
  ∧ AlwaysDoes (.kgetBase d src) (fun c s => s.launch (wordResult c d (BitVec.ofNat 64 (cap c s).base)))
  ∧ AlwaysDoes (.kgetLen d src) (fun c s => s.launch (wordResult c d (BitVec.ofNat 64 (cap c s).len)))
  ∧ AlwaysDoes (.kgetRgt d src) (fun c s => s.launch (wordResult c d
      (BitVec.ofNat 64 ((if (cap c s).tag then 2 ^ 63 else 0) + (cap c s).gen * 2 ^ 16 + (cap c s).rights))))
  ∧ AlwaysDoes (.kcheck p src xb rights) (fun c s => s.launch (cfResult c (.p p.toNat) (.bit
      ((cap c s).tag && (List.range 8).all (fun r => !rights.getLsbD r || (cap c s).has r)
        && decide ((xsOf s c xb.toNat).toNat % 2 ^ 40 + (xsOf s c (xb.toNat + 1)).toNat % 2 ^ 40 ≤ (cap c s).len)))))

/-- R363 to R366: the operations on capability registers. -/
def Obligations.CapabilityOperations : Prop := Claims.CapabilityResults ∧ Claims.CapabilityReads

/-- R216, R367: `kst` whose checks pass is held, 16 bytes and the tag as one unit; `kld` whose checks pass loads the block's bytes and tag as its context reads
them. -/
def Sys2Proof.Claims.CapabilitiesInMemory : Prop := ∀ (k : BitVec 3) (src d : BitVec 4) (o : BitVec 11),
  let off := 16 * o.toNat
  let cap := fun (c : Ctx) (s : State) => readK s c .cf k.toNat
  let write := fun (c : Ctx) (s : State) => { scalarHeld c 0 false 0 (cap c s) off 16 (.cap (readK s c .cf src.toNat)) with slot := .cf }
  let read := fun (c : Ctx) (s : State) => readAct s.turn c .cf .p 0 (cap c s).obj ((cap c s).base + off) 16
  Does (.kst k src o) (fun c s => (cap c s).base % 16 = 0 ∧ checkAccess s s.turn c (cap c s) off 16 rightW true false 0 = .ok ()
      ∧ holdsNow (write c s) s c)
    (fun c s => (touch s (cap c s).obj ((cap c s).base + off) 16 0).modCur (withHeld (write c s)))
  ∧ Does (.kld d k o) (fun c s => (cap c s).base % 16 = 0 ∧ checkAccess s s.turn c (cap c s) off 16 rightR true false 0 = .ok ()
      ∧ c.fenced (read c s) = false ∧ flashIn s (cap c s).obj ((cap c s).base + off) 16 0 = none
      ∧ fillHeld s (cap c s).obj ((cap c s).base + off) 16 0 = false)
    (fun c s =>
      let t := (fillSpan (touch s (cap c s).obj ((cap c s).base + off) 16 0) (cap c s).obj ((cap c s).base + off) 16 0).recordRead (read c s)
      t.launch { capResult c d ⟨BitVec.ofNat 128 (ofBytes (readBytes t s.turn c (read c s) (cap c s).obj ((cap c s).base + off) 16 0)),
        porchTag t s.turn c (read c s) (cap c s).obj ((cap c s).base + off) 0⟩ with var := true })

namespace Sys2Proof.Claims

/-- The context holds no write, and no spill of it is in progress: the commit that begins a shootdown changes nothing, `SEGF` included (R231). -/
def nothingHeld (c : Ctx) : Prop := c.porch = [] ∧ c.spilling = false

/-- Nothing that was checked under the old translations is still to perform (R368): no commit of another core is in progress, and no message is
unacknowledged. -/
def nothingUnderWay (s : State) : Prop :=
  (∀ x ∈ s.cores, x.1 ≠ s.turn → committingOn s x.1 = false) ∧ ∀ x ∈ s.conns, x.2.unacked = []

end Sys2Proof.Claims

/-- R231, R368: `xlat.sync` of a context that holds no write leaves the porch and `SEGF` as they are and empties the translation caches; with writes
held it performs them first. It completes once the commits of other cores that had begun, and the messages that were not acknowledged, have
performed; what the model lets it not wait for is log 74: copies and tile commands, which check again at each row. -/
def Sys2Proof.Claims.TranslationSync : Prop :=
  Does .xlatSync (fun c s => c.caught .cf = none ∧ nothingHeld c ∧ nothingUnderWay s) (fun _ s => { s with xlat := [] })
  ∧ (∀ t : State, Does .xlatSync (fun c s => c.caught .cf = none ∧ syncCommit s c = .ok t ∧ nothingUnderWay t) (fun _ _ => { t with xlat := [] }))
  ∧ (∀ s c, Issues s c → (ctxFor .xlatSync c).caught .cf = none → nothingHeld (ctxFor .xlatSync c) →
      let u : State := { stateFor .xlatSync s c with xlat := [] }
      syncWaits u (syncMarks u) = true → exec .xlatSync s = .next (markWaiting (keepOperands u s.turn .cf (syncMarks u))).tick)
  ∧ ∀ l, Does .xlatSync (fun c s => c.caught .cf = some l ∧ syncWaits s l = false) (fun _ s => s)

/-- R231, R357, R369: `pg.reform` whose checks pass, of a context that holds no write: with one refusal it writes its status and changes nothing
else; without any it sets RF in one step with the test, drops the page's cached entries and waits; once what was checked under the old entry has
performed, on a page of HBM with no dirty line, it reforms the page, with status 0 and RF clear. That it takes these steps is the model's reading
(log 41). -/
def Sys2Proof.Claims.PageReform : Prop := ∀ (k xb : BitVec 4) (d : BitVec 5),
  let cap := fun (c : Ctx) (s : State) => readK s c .cf k.toNat
  let pg := fun (c : Ctx) (s : State) => (xsOf s c xb.toNat).toNat % 2 ^ 40
  let w := fun (c : Ctx) (s : State) => xsOf s c (xb.toNat + 1)
  let l := fun (c : Ctx) (s : State) => [(cap c s).val.toNat, b2n (cap c s).tag, pg c s, (w c s).toNat]
  let u := fun (c : Ctx) (s : State) => keepOperands s s.turn .cf (l c s)
  let ent := fun (c : Ctx) (s : State) => s.objEnt (cap c s).obj
  let page := fun (c : Ctx) (s : State) => s.pageEnt (ent c s) (pg c s)
  let passes := fun (c : Ctx) (s : State) => (cap c s).tag = true ∧ (cap c s).has rightW = true ∧ s.isTable (cap c s).obj = true
    ∧ (ent c s).valid = true ∧ (cap c s).gen = (ent c s).gen ∧ pg c s % (ent c s).page = 0 ∧ (cap c s).base ≤ pg c s
    ∧ pg c s + (ent c s).page ≤ (cap c s).base + (cap c s).len ∧ pg c s + (ent c s).page ≤ (ent c s).size
  let ready := fun (c : Ctx) (s : State) => c.caught .cf = none ∧ nothingHeld c ∧ passes c s
  let here := fun (c : Ctx) (s : State) => (page c s).resident (ent c s).page = true
  let legal := fun (c : Ctx) (s : State) => (reformed (page c s) (w c s)).pairOk = true ∧ (w c s).toNat < 1024
  let idle := fun (c : Ctx) (s : State) => (page c s).rf = false
  let answer := fun (c : Ctx) (n : Nat) (v : State) => v.launch (wordResult c d (BitVec.ofNat 64 n))
  let begun := fun (c : Ctx) (s : State) =>
    let v := setPageEnt (wakeSpan (u c s) (cap c s).obj (pg c s) (ent c s).page) (ent c s) (pg c s) (setBits (page c s) 47 1 1)
    { v with xlat := v.xlat.filter fun x => !(x.obj == (cap c s).obj && x.page == some (pg c s / (ent c s).page)) }
  Does (.pgReform k xb d) (fun c s => ready c s ∧ ¬ here c s ∧ legal c s ∧ idle c s) (fun c s => answer c 1 (u c s))
  ∧ Does (.pgReform k xb d) (fun c s => ready c s ∧ here c s ∧ ¬ legal c s ∧ idle c s) (fun c s => answer c 2 (u c s))
  ∧ Does (.pgReform k xb d) (fun c s => ready c s ∧ here c s ∧ legal c s ∧ ¬ idle c s) (fun c s => answer c 3 (u c s))
  ∧ (∀ s c', Issues s c' →
      let c := ctxFor (.pgReform k xb d) c'
      let t := stateFor (.pgReform k xb d) s c'
      ready c t → here c t → legal c t → idle c t → (page c t).pairOk = true →
      exec (.pgReform k xb d) s = .next (markWaiting (keepOperands (begun c t) s.turn .cf (l c t ++ 1 :: syncMarks (begun c t)))).tick)
  ∧ ∀ (kv kt p wv : Nat) (marks : List Nat),
      let obj := (⟨BitVec.ofNat 128 kv, kt == 1⟩ : Cap).obj
      let mine := fun (s : State) (x : Line) => x.obj == obj && x.page (s.objEnt obj) == p
      let gone := fun s : State => { s with lines := s.lines.filter fun x => !mine s x }
      let old := fun s : State => s.pageEnt (s.objEnt obj) p
      Does (.pgReform k xb d) (fun c s => c.caught .cf = some ([kv, kt, p, wv] ++ 1 :: marks) ∧ syncWaits s marks = false
          ∧ (s.lines.all fun x => !mine s x || x.dirty == 0) = true
          ∧ (old s).resident (s.objEnt obj).page = true ∧ deviceOf (old s).base < 8)
        (fun c s => answer c 0 ((reformPage (gone s) obj (s.objEnt obj) p (old s) (reformed (old s) (BitVec.ofNat 64 wv))).getD (gone s)))

/-- R231, R357, R367 to R369: `kst`, `kld`, `xlat.sync` and `pg.reform`. The model's choices: what a shootdown waits for (log 74), and a reform as the
setting of RF and one event for the rest (log 41). -/
def Obligations.CapabilityMemoryAndTranslation : Prop := Claims.CapabilitiesInMemory ∧ Claims.TranslationSync ∧ Claims.PageReform

/-- R132: `stg` writes a staging register whole, `stg.lo` its low half and `stg.hi` its high half, with latency 1. -/
def Sys2Proof.Claims.StagingWrites : Prop := ∀ (r : BitVec 5) (src : BitVec 6),
  let put := fun (c : Ctx) (v mask : Word) => cfResult c (.stage r.toNat) (.word v mask)
  AlwaysDoes (.stg r src) (fun c s => s.launch (put c (readInt s c .cf src) (BitVec.ofNat 64 (2 ^ 64 - 1))))
  ∧ AlwaysDoes (.stgLo r src) (fun c s => s.launch (put c (readInt s c .cf src) (BitVec.ofNat 64 (2 ^ 32 - 1))))
  ∧ AlwaysDoes (.stgHi r src) (fun c s =>
      s.launch (put c (BitVec.ofNat 64 ((readInt s c .cf src).toNat * 2 ^ 32)) (BitVec.ofNat 64 (2 ^ 64 - 2 ^ 32))))

/-- R27, R28, R157 to R159, R179: the sticky registers. Each set operation's write is seen by the bundles at least 4 (`FMT`, `VTYPE`) or 1
(`VWIN`, `VACT`, the control fields of `FPCTL`) positions later; `fpc.set` replaces the flags that earlier positions raise, and
`amax.clr` clears their `AMAX`. -/
def Sys2Proof.Claims.StickySets : Prop := ∀ (scm m q rm : BitVec 2) (ofmt accf bf af : BitVec 4) (t : BitVec 3) (b wf wc so ws st : Bool) (fl : BitVec 5),
  let bit := fun x : Bool => if x then 1 else 0
  let f := BitVec.ofNat 32 (scm.toNat * 2 ^ 16 + ofmt.toNat * 2 ^ 12 + accf.toNat * 2 ^ 8 + bf.toNat * 2 ^ 4 + af.toNat)
  let ctl := BitVec.ofNat 5 (bit so * 16 + bit ws * 8 + bit st * 4 + rm.toNat)
  let flags := fun c : Ctx => { c with
    flags := fl, flagsFrom := c.pos, raised := c.raised.map fun r => if r.pos < c.pos then { r with flags := 0 } else r }
  AlwaysDoes (.fmtSet scm ofmt accf bf af) (fun c s => s.modCur fun x => { x with fmtQ := (c.pos, f) :: x.fmtQ })
  ∧ AlwaysDoes (.vtSet t) (fun c s => s.modCur fun x => { x with vtypeQ := (c.pos, BitVec.ofNat 32 t.toNat) :: x.vtypeQ })
  ∧ AlwaysDoes (.vwinSet b q) (fun c s => s.modCur fun x => { x with vwinQ := (c.pos, BitVec.ofNat 32 (bit b * 4 + q.toNat)) :: x.vwinQ })
  ∧ AlwaysDoes (.vactSet m) (fun c s => s.modCur fun x => { x with vactQ := (c.pos, BitVec.ofNat 32 m.toNat) :: x.vactQ })
  ∧ AlwaysDoes (.fpcSetC so ws st rm) (fun c s => s.modCur fun x => { x with fpcQ := (c.pos, ctl) :: x.fpcQ })
  ∧ AlwaysDoes (.fpcSetF fl) (fun _ s => s.modCur flags)
  ∧ AlwaysDoes (.fpcSet wf wc fl so ws st rm) (fun c s => s.modCur fun x =>
      let y := if wc then { x with fpcQ := (c.pos, ctl) :: x.fpcQ } else x
      if wf then flags y else y)
  ∧ AlwaysDoes .amaxClr (fun _ s => s.modCur fun x => { x with
      amax := 0, amaxNan := false, amaxFrom := x.pos,
      raised := x.raised.map fun r => if r.pos < x.pos then { r with amax := 0, amaxNan := false } else r })
  ∧ ∀ (x : Ctx) (n : Nat) (v : BitVec 32) (w : BitVec 5),
    Ctx.fmtNow { x with fmtQ := (n, v) :: x.fmtQ } = (if n + 4 ≤ x.pos then v else x.fmtNow)
    ∧ Ctx.vtypeNow { x with vtypeQ := (n, v) :: x.vtypeQ } = (if n + 4 ≤ x.pos then v else x.vtypeNow)
    ∧ Ctx.vwinNow { x with vwinQ := (n, v) :: x.vwinQ } = (if n + 1 ≤ x.pos then v else x.vwinNow)
    ∧ Ctx.vactNow { x with vactQ := (n, v) :: x.vactQ } = (if n + 1 ≤ x.pos then v else x.vactNow)
    ∧ Ctx.fpcNow { x with fpcQ := (n, w) :: x.fpcQ } = (if n + 1 ≤ x.pos then w else x.fpcNow)

/-- R27, R28, R132, R157 to R159, R179: the staging and the sticky registers. -/
def Obligations.StagingAndStickyRegisters : Prop := Claims.StagingWrites ∧ Claims.StickySets

/-- R155, R175, R176: `lend`, once every slot has issued the positions before it, moves a bank between the matrix engine and the vector unit under its conditions, for the positions after
its own, does nothing to a bank that is where it asks, and is fatal while the bank's watermark is below 128; `vlut.ld` loads the 2,048 bytes of the
lookup SRAM. The model's choice: `lend` to the matrix engine completes the vector results of the bank at once (log 44). -/
def Obligations.BanksAndTable : Prop := ∀ (b : Bool) (k : BitVec 3) (cls : BitVec 4) (blk : BitVec 11),
  let n := if b then 1 else 0
  let owned := fun s : State => bankOwner s s.turn n
  let cap := fun (c : Ctx) (s : State) => readK s c .cf k.toNat
  let off := 2048 * blk.toNat
  let a := fun (c : Ctx) (s : State) => readAct s.turn c .cf .p cls.toNat (cap c s).obj 0 0
  let units := fun (c : Ctx) (s : State) => elementUnits false ((cap c s).base + off) 2048
  Does (.lendMx b) (fun c s => c.laggards = false ∧ owned s = false) (fun _ s => s)
  ∧ Does (.lendMx b) (fun c s => c.laggards = false ∧ owned s = true ∧ 128 ≤ s.wm s.turn n) (fun _ s => setOwner (settleBank s s.turn n) s.turn n false)
  ∧ Does (.lendVec b) (fun c s => c.laggards = false ∧ owned s = true) (fun _ s => s)
  ∧ Does (.lendVec b) (fun c s => c.laggards = false ∧ owned s = false ∧ ∀ x ∈ (s.core s.turn).mx, x.bank = n → x.started = true) (fun _ s => setOwner s s.turn n true)
  ∧ (∀ (s : State) (x : Ctx) core v, s.ctxOf core = some x → (∀ e ∈ (s.core core).accOwnQ, e.1 ≤ x.pos) →
      let next := fun t : State => t.setCtx core { x with pos := x.pos + 1 }
      bankOwner (setOwner s core n v) core n = bankOwner s core n
      ∧ bankOwner (next (setOwner s core n v)) core n = v ∧ bankOwner (next (setOwner s core n v)) core (1 - n) = bankOwner (next s) core (1 - n))
  ∧ (∀ s c, Issues s c → (ctxFor (.lendMx b) c).laggards = false → bankOwner (stateFor (.lendMx b) s c) s.turn n = true → (stateFor (.lendMx b) s c).wm s.turn n < 128 →
      exec (.lendMx b) s = .next (fatalIn s s.turn 7 ⟨0x0F, 0, none, 0, false⟩).tick)
  ∧ Does (.vlutLd k cls blk) (fun c s =>
      (cap c s).tag = true ∧ (cap c s).has rightR = true ∧ off + 2048 ≤ (cap c s).len
      ∧ tierCheck s s.turn (cap c s).obj ((cap c s).base + off) 2048 0 = .ok ()
      ∧ portCheck s (whoOf s.turn c) (some (cap c s).gen) (cap c s).obj ((cap c s).base + off) 2048 false 0 = .ok ()
      ∧ c.vlutLeft = false ∧ readsNow .cf (a c s) (units c s) s c)
    (fun c s =>
      let t := unitsReadBy (a c s) (units c s) s
      t.modCore t.turn fun y => { y with lut := BitVec.ofNat 16384 (ofBytes (unitsValue (a c s) (units c s) t c)) })

namespace Sys2Proof.Claims

/-- The entry that `tt.def` makes of the staging word (R257): its fields, `READY`, no fold, no handle, ERR 0; FID and HANDLE stay. -/
def definedTile (old : Tile) (v : Word) : Tile :=
  setBits (setBits (setBits (setBits (setBits old 0 61 v.toNat) 91 1 0) 74 1 0) 96 8 0) 92 3 2

/-- The tile is `READY`, so that an operation on it neither waits nor faults (Table 2.18), and no earlier operation that names it has still to
issue (R239). -/
def ready (s : State) (c : Ctx) (n : Nat) : Prop := c.tileLater n = false ∧ (s.tile s.turn n).state = 2

/-- The entry of a tile changes. -/
def retiled (n : Nat) (f : Tile → Tile) (s : State) : State := s.setTile s.turn n (f (s.tile s.turn n))

end Sys2Proof.Claims

/-- R257, R258, R261: `tt.def` with a capability for the whole footprint defines a tile that is not busy, `tt.free` empties it, and `tt.rd`
reads half an entry. -/
def Sys2Proof.Claims.TilesAreDefined : Prop := ∀ (t : BitVec 6) (ts : BitVec 2) (k : BitVec 3) (h : Bool) (d : BitVec 5),
  Does (.ttDef t ts k) (fun c s =>
      let old := s.tile s.turn t.toNat
      let v := readStage s c .cf (24 + ts.toNat)
      let e := definedTile old v
      let cap := readK s c .cf k.toNat
      c.tileLater t.toNat = false ∧ old.state ≠ 4 ∧ tileBusy s s.turn t.toNat = false ∧ cap.tag = true ∧ cap.has rightT = true ∧ cap.obj = e.obj
      ∧ tileOk s s.turn v e = true ∧ cap.base ≤ e.offset ∧ e.stop ≤ cap.base + cap.len)
    (fun c s => retiled t.toNat (fun old => definedTile old (readStage s c .cf (24 + ts.toNat))) s)
  ∧ Does (.ttFree t) (fun c s => c.tileLater t.toNat = false ∧ tileBusy s s.turn t.toNat = false) (fun _ s => retiled t.toNat (fun _ => 0) s)
  ∧ Does (.ttRd t h d) (fun c _ => c.tileLater t.toNat = false) (fun c s => s.launch (wordResult c d
      (BitVec.ofNat 64 ((s.tile s.turn t.toNat).toNat / 2 ^ (if h then 64 else 0)))))

/-- R259, R260: `tt.bind` sets HANDLE and HB, `tt.unbind` clears HB; `tt.mark` sets FV and FID, with `wait` the tile is `FILLING` until the
fold next completes; without a fold it clears FV. The order of the checks of `tt.bind` is the model's choice (log 47). -/
def Sys2Proof.Claims.TilesAreBoundAndMarked : Prop := ∀ (t : BitVec 6) (ts : BitVec 2) (fid : BitVec 10),
  let marked := fun e : Tile => setBits (setBits e 74 1 1) 64 10 fid.toNat
  let named := fun c : Ctx => ∃ i, i < 4 ∧ (foldmEntry c.foldm i).1 = true ∧ (foldmEntry c.foldm i).2.2 = fid.toNat
  Does (.ttBind t ts) (fun c s => ready s c t.toNat ∧ (readStage s c .cf (24 + ts.toNat)).toNat < 65536
      ∧ handleOk s c.paddock (readStage s c .cf (24 + ts.toNat)).toNat = true)
    (fun c s => retiled t.toNat (fun e => setBits (setBits e 91 1 1) 75 16 (readStage s c .cf (24 + ts.toNat)).toNat) s)
  ∧ Does (.ttUnbind t) (fun c s => ready s c t.toNat) (fun _ s => retiled t.toNat (fun e => setBits e 91 1 0) s)
  ∧ Does (.ttMark t fid) (fun c s => ready s c t.toNat ∧ named c) (fun _ s => retiled t.toNat marked s)
  ∧ Does (.ttMarkWait t fid) (fun c s => ready s c t.toNat ∧ named c)
    (fun _ s => (retiled t.toNat (fun e => setBits (marked e) 92 3 1) s).modCore s.turn fun x => { x with marks := x.marks ++ [(t.toNat, fid.toNat)] })
  ∧ Does (.ttMarkNofold t) (fun c s => ready s c t.toNat) (fun _ s => retiled t.toNat (fun e => setBits e 74 1 0) s)

/-- R257 to R261: the operations on tile entries. -/
def Obligations.TileEntries : Prop := Claims.TilesAreDefined ∧ Claims.TilesAreBoundAndMarked

namespace Sys2Proof.Claims

/-- The handle that an operation names passes the checks of R262 and R264. -/
def NamesHandle (s : State) (c : Ctx) (src : BitVec 6) (h : Nat) : Prop :=
  (readInt s c .xc src).toNat = h ∧ h ≤ 65535 ∧ handleOk s c.paddock h = true

/-- A request enters its Drover, and its handle is `FETCHING` (Table 14.12). -/
def requested (c : Ctx) (h : Nat) (demand : Bool) (s : State) : State :=
  let die := handleDie s h
  (s.setDrover die (s.drover die ++ [⟨h, demand, false, s.turn, c.paddock⟩])).setHandle h { s.handle h with state := 1, err := 0, landed := 0 }

/-- The word of `HSTAT` (Table 2.16). -/
def hstat (s : State) (h : Nat) : Word :=
  let x := s.handle h
  BitVec.ofNat 64 (h * 2 ^ 48 + x.state * 2 ^ 45 + (if x.state = 4 then x.err else 0) * 2 ^ 32 + x.pins * 2 ^ 16)

end Sys2Proof.Claims

/-- R262 to R264, Tables 14.11 and 14.12: what the `wh` operations do by the handle's state. -/
def Sys2Proof.Claims.HandleOperations : Prop := ∀ (src : BitVec 6) (h : Nat),
  let named := fun (c : Ctx) (s : State) => NamesHandle s c src h
  let room := fun s : State => (s.drover (handleDie s h)).length < 256
  let pinned := fun (f : Nat → Nat) (s : State) => s.setHandle h { s.handle h with pins := f (s.handle h).pins }
  Does (.whFetchDem src) (fun c s => named c s ∧ (s.handle h).state = 0 ∧ room s) (fun c s => requested c h true s)
  ∧ Does (.whFetchDem src) (fun c s => named c s ∧ ((s.handle h).state = 2 ∨ (s.handle h).state = 4)) (fun _ s => s)
  ∧ Does (.whFetchPred src) (fun c s => named c s ∧ (s.handle h).state = 0 ∧ room s) (fun c s => requested c h false s)
  ∧ Does (.whFetchPred src) (fun c s => named c s ∧ (s.handle h).state = 0 ∧ ¬ room s) (fun _ s => countDrop s s.turn)
  ∧ Does (.whFetchPred src) (fun c s => 65535 < (readInt s c .xc src).toNat ∨ handleOk s c.paddock (readInt s c .xc src).toNat = false)
    (fun _ s => countDrop s s.turn)
  ∧ Does (.whDrop src) (fun c s => named c s ∧ (s.handle h).state = 2 ∧ (s.handle h).pins = 0 ∧ isBound s h = false)
    (fun _ s => s.setHandle h { s.handle h with state := 3 })
  ∧ Does (.whDrop src) (fun c s => named c s ∧ ((s.handle h).state = 0 ∨ (s.handle h).state = 3 ∨ (s.handle h).state = 4
      ∨ ((s.handle h).state = 2 ∧ (0 < (s.handle h).pins ∨ isBound s h = true)))) (fun _ s => s)
  ∧ Does (.whPin src) (fun c s => named c s ∧ (s.handle h).pins < 65535) (fun _ s => pinned (· + 1) s)
  ∧ Does (.whUnpin src) (fun c s => named c s ∧ 0 < (s.handle h).pins ∧ (s.handle h).pins ≤ 65535) (fun _ s => pinned (· - 1) s)
  ∧ Does (.whQry src) named (fun c s => s.launch
      { variableResult .xc c true 0 0 with dst := some (.hstat, .word (hstat s h) (BitVec.allOnes 64)), ring := .none })

/-- R330: `wh.wait` on a handle that is `RESIDENT` or `FAILED` only writes `HSTAT`; on an `ABSENT` one it demands the fetch and parks until the
handle changes. The STATUS that a record shows while it is PARKED is free (log 46). -/
def Sys2Proof.Claims.HandleWaits : Prop := ∀ (src : BitVec 6) (h : Nat),
  let named := fun (c : Ctx) (s : State) => c.suspended = none ∧ (readInt s c .c src).toNat = h ∧ h ≤ 65535 ∧ handleOk s c.paddock h = true
  let told := fun (c : Ctx) (v : Word) (s : State) =>
    s.launch { linkWrite c with dst := some (.hstat, .word v (BitVec.allOnes 64)) }
  Does (.whWait src) (fun c s => named c s ∧ ((s.handle h).state = 2 ∨ (s.handle h).state = 4)) (fun c s => told c (hstat s h) s)
  ∧ Does (.whWait src) (fun c s => named c s ∧ (s.handle h).state = 0 ∧ (s.drover (handleDie s h)).length < 256
      ∧ pointReady [h] (told c (hstat s h) (requested c h true s))
      ∧ ((committed [h] (told c (hstat s h) (requested c h true s))).handle h).state = 1
      ∧ mayLeave (steppedOver (committed [h] (told c (hstat s h) (requested c h true s)))))
    (fun c s =>
      let v := told c (hstat s h) (requested c h true s)
      let u := steppedOver (committed [h] v)
      parked (.handle h) (readAct s.turn (afterCommitOf [h] c v) .c .p 16 0 0 0) u (left 0xFFFFFF 0 (BitVec.ofNat 64 (u.pick 7000)) (3 * 2 ^ 60 + h) false u))

/-- R262 to R264, R330: the operations on weight handles. That the STATUS of a record is free while it is PARKED is the model's choice (log 46). -/
def Obligations.WeightHandles : Prop := Claims.HandleOperations ∧ Claims.HandleWaits

namespace Sys2Proof.Claims

/-- A tile that may be read now: `READY` or `DRAINING` (Table 2.18), with no earlier operation that names it still to issue (R239). -/
def tileReadable (s : State) (c : Ctx) (n : Nat) : Prop :=
  c.tileLater n = false ∧ ((s.tile s.turn n).state = 2 ∨ (s.tile s.turn n).state = 3)

/-- A matrix command stands at the end of the engine's queue (R161), with GEN of its tiles' spaces (R354). -/
def mxQueued (m : MxCmd) (s : State) : State :=
  s.modCore s.turn fun x => { x with mx := x.mx ++ [{ m with gens := m.tiles.map fun t => (s.desc (Tile.obj t)).toNat % 2 ^ 16 }] }

/-- A matrix command with what it captures at issue (R162). -/
def mxCommand (c : Ctx) (kind bank row0 rows : Nat) (names : List Nat) (tiles : List Tile) : MxCmd :=
  { kind := kind, pos := c.pos, group := c.group, bank := bank, tiles := tiles, names := names, ms0 := 0, fmt := c.fmtNow, fpctl := c.fpcNow, z := false, tb := false,
    sp := false, row0 := row0, rows := rows, started := false, done := 0, col := 0, assisted := false, paused := false, acc := [] }

/-- The engine has room for a command (R161). -/
def mxRoom (s : State) : Prop := (s.core s.turn).mx.length < 8

/-- The engine has room for a command, and no fence still to complete orders path M (R161, R229, R230). -/
def mxOpen (s : State) (c : Ctx) : Prop := mxRoom s ∧ c.fenced { readAct s.turn c .mx .m 15 0 0 0 with prog := (c.segment, c.pos, Slot.mx.idx) } = false

end Sys2Proof.Claims

/-- R161 to R172, R177, R178: matrix commands whose checks pass enter the queue with the tiles, `ms0` and the sticky values that they capture;
`macc.st` makes its tile `FILLING`; `mcancel` cancels the commands on its banks where no assist holds one. Which rows an operand is read with is the
model's choice (log 45). -/
def Obligations.MatrixCommandsQueue : Prop := ∀ (a b t : BitVec 6) (n z tb : Bool) (r cnt : BitVec 7) (m : BitVec 2),
  let bank := if n then 1 else 0
  let ms0 := fun (c : Ctx) (s : State) => readStage s c .mx 0
  let ms1 := fun (c : Ctx) (s : State) => readStage s c .mx 1
  let third := fun (c : Ctx) (s : State) => (ms1 c s).toNat % 64
  let tile := fun (s : State) (k : Nat) => s.tile s.turn k
  Does (.mma a b n z tb false) (fun c s => tileReadable s c a.toNat ∧ tileReadable s c b.toNat ∧ mxOpen s c
      ∧ mmaChecks s s.turn bank (tile s a.toNat) (tile s b.toNat) none tb c.fmtNow (ms0 c s) 0 = .ok ())
    (fun c s => mxQueued { mxCommand c 1 bank (bits (ms0 c s) 24 7) (bits (ms0 c s) 0 7 + 1) [a.toNat, b.toNat] [tile s a.toNat, tile s b.toNat] with
      ms0 := ms0 c s, z := z, tb := tb } s)
  ∧ Does (.mma a b n z tb true) (fun c s => tileReadable s c a.toNat ∧ tileReadable s c b.toNat ∧ tileReadable s c (third c s) ∧ mxOpen s c
      ∧ mmaChecks s s.turn bank (tile s a.toNat) (tile s b.toNat) (some (tile s (third c s))) tb c.fmtNow (ms0 c s) (ms1 c s) = .ok ())
    (fun c s => mxQueued { mxCommand c 1 bank (bits (ms0 c s) 24 7) (bits (ms0 c s) 0 7 + 1) [a.toNat, b.toNat, third c s]
        [tile s a.toNat, tile s b.toNat, tile s (third c s)] with ms0 := ms0 c s, z := z, tb := tb, sp := true } s)
  ∧ Does (.maccClr n r cnt) (fun _ s => bankOwner s s.turn bank = false ∧ mxRoom s)
    (fun c s => mxQueued (mxCommand c 2 bank r.toNat (cnt.toNat + 1) [] []) s)
  ∧ Does (.maccLd t n r) (fun c s => tileReadable s c t.toNat ∧ mxOpen s c ∧ bankOwner s s.turn bank = false
      ∧ ((fmtAcc c.fmtNow = 1 ∧ 1 ≤ (tile s t.toNat).fmtc ∧ (tile s t.toNat).fmtc ≤ 3) ∨ (fmtAcc c.fmtNow = 0 ∧ (tile s t.toNat).fmtc = 0))
      ∧ ((tile s t.toNat).space = 0 ∨ (tile s t.toNat).space = 2)
      ∧ (tile s t.toNat).rowBytes / rowElem (tile s t.toNat).fmtc ≤ 128 ∧ r.toNat + (tile s t.toNat).rows ≤ 128)
    (fun c s => mxQueued (mxCommand c 3 bank r.toNat (tile s t.toNat).rows [t.toNat] [tile s t.toNat]) s)
  ∧ Does (.maccSt t n r) (fun c s => ready s c t.toNat ∧ mxOpen s c ∧ bankOwner s s.turn bank = false
      ∧ storeFormats c.fmtNow = true ∧ (tile s t.toNat).fmtc = fmtOut c.fmtNow
      ∧ ((tile s t.toNat).space = 0 ∨ (tile s t.toNat).space = 2)
      ∧ (tile s t.toNat).rowBytes / rowElem (tile s t.toNat).fmtc ≤ 128 ∧ r.toNat + (tile s t.toNat).rows ≤ 128)
    (fun c s =>
      let u := mxQueued (mxCommand c 4 bank r.toNat (tile s t.toNat).rows [t.toNat] [tile s t.toNat]) s
      u.setTile u.turn t.toNat (setBits (u.tile u.turn t.toNat) 92 3 1))
  ∧ Does (.mcancel m) (fun c s => c.caught .mx = none ∧ ∀ x ∈ (s.core s.turn).mx, x.assisted = true → m.getLsbD x.bank = false)
    (fun _ s => openBanks (cancelSome s s.turn fun x => m.getLsbD x.bank) s.turn fun k => m.getLsbD k)

namespace Sys2Proof.Claims

/-- The registers `vN` that an operation names are in a bank of the vector unit, and the rows that it reads are below the watermark (R24,
R137). -/
def rowsOk (s : State) (c : Ctx) (reads writes : List Nat) : Prop := vecGate s c reads writes = .ok ()

/-- The result of a row operation is launched: with variable latency where a read has waited for the watermark (R45). -/
def launchedRow (u : VUnit) (c : Ctx) (w : Fly) (s : State) : State :=
  s.launch (if (c.caught u.slot).isSome then { w with var := true, due := w.pos + 1 } else w)

/-- A row operation gives `f` of its two sources under the setting of its slot, in register `d` (unless `d` = 1) and the ring, with the bytes of
its active lanes written (R135, R136). -/
def RowGives2 (i : Instr) (u : VUnit) (x : Bool) (d : BitVec 5) (a b : BitVec 6) (lat : Nat) (f : VEnv → VOp → VOp → VRes) : Prop :=
  Does i (fun c s => rowsOk s c (vNames [a, b]) (if x then [] else [d.toNat])) fun c s =>
    let e := venv s c u.slot
    let p := readV s c e u.slot a
    let q := readV s c e u.slot b
    launchedRow u c (rowFly e c u x d lat (p.flags ||| q.flags) e.bytes (f e p q)) s

/-- A row operation gives `f` of its source. -/
def RowGives1 (i : Instr) (u : VUnit) (x : Bool) (d : BitVec 5) (a : BitVec 6) (lat : Nat) (f : VEnv → VOp → VRes) : Prop :=
  Does i (fun c s => rowsOk s c (vNames [a]) (if x then [] else [d.toNat])) fun c s =>
    let e := venv s c u.slot
    let p := readV s c e u.slot a
    launchedRow u c (rowFly e c u x d lat p.flags e.bytes (f e p)) s

/-- An FMA-type operation, whose addend is its destination or, with `d` = 1, the slot's newest ring entry (R139). -/
def RowGivesFma (i : Instr) (u : VUnit) (x : Bool) (d : BitVec 5) (a b : BitVec 6) (fp : RM → FV → FV → FV → FV × Flags)
    (int : Int → Int → Int → Int) : Prop :=
  Does i (fun c s => rowsOk s c (vNames [a, b] ++ (if x then [] else [d.toNat])) []) fun c s =>
    let e := venv s c u.slot
    let p := readV s c e u.slot a
    let q := readV s c e u.slot b
    let r := readV s c e u.slot (if x then (if u = .va then 0x20 else 0x24) else d.setWidth 6)
    let v := match tyFmt e.t with
      | some f => fpRes e x e.t f (zip3 (fp (e.mode x)) (p.fps f) (q.fps f) (r.fps f))
      | none => intRes e.w (zip3 int (p.ints e.w) (q.ints e.w) (r.ints e.w))
    launchedRow u c (rowFly e c u x d 5 (p.flags ||| q.flags) e.bytes v) s

/-- A compare writes one bit for each lane into a mask, with latency 3 (R140). -/
def RowTests (i : Instr) (u : VUnit) (m : BitVec 2) (a b : BitVec 6) (fp : FV → FV → Bool × Flags) (int : Int → Int → Bool) : Prop :=
  Does i (fun c s => rowsOk s c (vNames [a, b]) []) fun c s =>
    let e := venv s c u.slot
    let p := readV s c e u.slot a
    let q := readV s c e u.slot b
    let l : List (Bool × Flags) := match tyFmt e.t with
      | some f => List.zipWith fp (p.fps f) (q.fps f)
      | none => List.zipWith (fun x y => (int x y, 0)) (p.ints e.w) (q.ints e.w)
    launchedRow u c { Fly.nil u.slot c.pos 3 with
      dst := some (.m m.toNat, .mask (BitVec.ofNat 512 (packNum 1 (l.map fun v => b2n v.1))))
      flags := activeFlags e e.w (l.map (·.2)) ||| (if e.any then p.flags ||| q.flags else 0) } s

end Sys2Proof.Claims

/-- R135 to R139, Tables 8.1 and 8.2: the elementwise operations, their latencies, and what each lane gets: the correctly rounded value of an
FP type, the wrapped value of an integer type. What `vmov`, `vabs` and `vneg` of a chain operand give is the model's reading (log 59). -/
def Obligations.ElementwiseResults : Prop := ∀ (u : VUnit) (x : Bool) (d : BitVec 5) (a b : BitVec 6),
  RowGives2 (.vadd u x d a b) u x d a b 3 (lanes2 x (fun rm p q => fvAdd rm p q) (· + ·))
  ∧ RowGives2 (.vsub u x d a b) u x d a b 3 (lanes2 x (fun rm p q => fvAdd rm p q.negate) (· - ·))
  ∧ RowGives2 (.vmul u x d a b) u x d a b 5 (lanes2 x (fun _ p q => fvMul p q) (· * ·))
  ∧ RowGivesFma (.vfma u x d a b) u x d a b (fun rm p q r => fvFma rm p q r) (fun p q r => p * q + r)
  ∧ RowGivesFma (.vfms u x d a b) u x d a b (fun rm p q r => fvFma rm p q r.negate) (fun p q r => p * q - r)
  ∧ RowGivesFma (.vfnma u x d a b) u x d a b (fun rm p q r => fvFma rm p.negate q r) (fun p q r => r - p * q)
  ∧ RowGives2 (.vmin u x d a b) u x d a b 3 (lanes2 x (fun _ p q => fvMin p q) min)
  ∧ RowGives2 (.vmax u x d a b) u x d a b 3 (lanes2 x (fun _ p q => fvMax p q) max)
  ∧ RowGives1 (.vabs u x d a) u x d a 3 (lanes1 x (fun p => (p.abs, 0)) fun p => p.natAbs)
  ∧ RowGives1 (.vneg u x d a) u x d a 3 (lanes1 x (fun p => (p.negate, 0)) fun p => -p)
  ∧ RowGives1 (.vmov u x d a) u x d a 3 (vmovRes x)
  ∧ RowGives2 (.vand u x d a b) u x d a b 3 (pats2 fun _ p q => p &&& q)
  ∧ RowGives2 (.vor u x d a b) u x d a b 3 (pats2 fun _ p q => p ||| q)
  ∧ RowGives2 (.vxor u x d a b) u x d a b 3 (pats2 fun _ p q => p ^^^ q)
  ∧ RowGives1 (.vnot u x d a) u x d a 3 (fun e p => patRes e.w (p.pats.map fun v => 256 ^ e.w - 1 - v))
  ∧ RowGives2 (.vshl u x d a b) u x d a b 3 (pats2 fun w p q => p * 2 ^ (q % (8 * w)) % 256 ^ w)
  ∧ RowGives2 (.vshr u x d a b) u x d a b 3 (pats2 fun w p q => p / 2 ^ (q % (8 * w)))
  ∧ RowGives2 (.vsar u x d a b) u x d a b 3 (pats2 fun w p q => wrapTo w (intOf w p / (2 ^ (q % (8 * w)) : Nat)))
  ∧ RowGives2 (.vmulhi x d a b) .va x d a b 5 (pats2 fun w p q => wrapTo w (intOf w p * intOf w q / (256 ^ w : Nat)))
  ∧ RowGives1 (.vfloor x d a) .vb x d a 3 (fun e p =>
      { lanes1 x fvFloor (fun z => z) e p with flags := (lanes1 x fvFloor (fun z => z) e p).flags.map fun f => f &&& ~~~fNX })

/-- R140, R141, R145: compares write a mask, `vsel` chooses by the write mask and writes every lane, and `vamax` gives the larger magnitude and
raises `AMAX` over its first source's active lanes. -/
def Sys2Proof.Claims.ComparesAndSelects : Prop := ∀ (u : VUnit) (m : BitVec 2) (x : Bool) (d : BitVec 5) (a b : BitVec 6),
  RowTests (.vcmpEq u m a b) u m a b fvEq (fun p q => decide (p = q))
  ∧ RowTests (.vcmpNe u m a b) u m a b (fun p q => ((!(fvEq p q).1), (fvEq p q).2)) (fun p q => decide (p ≠ q))
  ∧ RowTests (.vcmpLt u m a b) u m a b fvLt (fun p q => decide (p < q))
  ∧ RowTests (.vcmpLe u m a b) u m a b fvLe (fun p q => decide (p ≤ q))
  ∧ Does (.vsel u x d a b) (fun c s => rowsOk s c (vNames [a, b]) (if x then [] else [d.toNat])) (fun c s =>
      let e := venv s c u.slot
      let p := readV s c e u.slot a
      let q := readV s c e u.slot b
      let l := (List.zip p.pats q.pats).zipIdx.map fun v => if e.mask.getLsbD v.2 then v.1.1 else v.1.2
      launchedRow u c (rowFly e c u x d 3 (p.flags ||| q.flags) (BitVec.allOnes 512) (patRes e.w l)) s)
  ∧ Does (.vamax x d a b) (fun c s => rowsOk s c (vNames [a, b]) (if x then [] else [d.toNat])) (fun c s =>
      let e := venv s c .va
      let p := readV s c e .va a
      let q := readV s c e .va b
      let am := (p.vals e).zipIdx.foldl (fun r v => if e.mask.getLsbD v.2 then amaxUpdate v.1 r else r) (0, false)
      launchedRow .va c { rowFly e c .va x d 3 (p.flags ||| q.flags) e.bytes
        (lanes2 x (fun _ p q => fvMax p.abs q.abs) (fun p q => max p.natAbs q.natAbs) e p q) with amax := am.1, amaxNan := am.2 } s)

namespace Sys2Proof.Claims

/-- A conversion of elements of `ws` bytes to elements of `wd` bytes (R143). -/
def converted (s : State) (c : Ctx) (u : VUnit) (x : Bool) (d : BitVec 5) (e : VEnv) (ws wd q : Nat) (extra : Flags) (src : List (FV × Nat))
    (f : FV × Nat → Nat × Flags) : Fly :=
  cvtFly e c u x d extra (convert e (if x then 0 else vRow s c u.slot d.toNat) ws wd q src f)

/-- The value of a list of lanes at the index that lane 0 of an operand gives. -/
def laneOf (e : VEnv) (p q : VOp) : Nat := p.pats.getD (q.pats.headD 0 % e.n) 0

end Sys2Proof.Claims

/-- R142 to R144: `vcvt` in both directions and `vcvt.sc`, into the part of the destination that PART names. -/
def Sys2Proof.Claims.VectorConversions : Prop := ∀ (u : VUnit) (x : Bool) (d : BitVec 5) (a : BitVec 6) (t sr : BitVec 3) (q : BitVec 2) (g : Bool),
  let gate := fun (c : Ctx) (s : State) => rowsOk s c (vNames [a] ++ (if x then [] else [d.toNat])) []
  Does (.vcvtTo u x d a t q) gate (fun c s =>
    let e := venv s c u.slot
    let p := readV s c e u.slot a
    launchedRow u c (converted s c u x d e e.w (tyBytes t.toNat) q.toNat p.flags (typed e.t p.pats p.chain)
      fun v => convertElem e.rm e.sat e.t t.toNat v.1 v.2) s)
  ∧ Does (.vcvtFrom u x d a t q) gate (fun c s =>
    let e := venv s c u.slot
    let row := if a.toNat < 0x20 then vRow s c u.slot a.toNat else ringRow c (ringW s c u.slot (a.toNat - 0x20))
    launchedRow u c (converted s c u x d e (tyBytes t.toNat) e.w q.toNat 0 (typed t.toNat (elems t.toNat row) none)
      fun v => convertElem e.rm e.sat t.toNat e.t v.1 v.2) s)
  ∧ Does (.vcvtSc u x d a sr g q) gate (fun c s =>
    let e := venv s c u.slot
    let p := readV s c e u.slot a
    let scale := unpack .fp32 ((readS s c u.slot sr.toNat).toNat % 2 ^ 32)
    let src := typed e.t p.pats p.chain
    let part := partOfRow e.w 1 q.toNat
    let am := (src.take part.1).zipIdx.foldl (fun r v => if e.mask.getLsbD ((part.2 * part.1 + v.2) / e.w) then amaxUpdate v.1.1 r else r) (0, false)
    launchedRow u c { converted s c u x d e e.w 1 q.toNat p.flags src (fun v =>
        let z := roundTo (if g then .e5m2 else .e4m3) e.rm e.sat (fvMul v.1 scale).1
        (pack (if g then .e5m2 else .e4m3) z.1, (fvMul v.1 scale).2 ||| z.2)) with amax := am.1, amaxNan := am.2 } s)

/-- The vector compares, selections and conversions. -/
def Obligations.ComparesAndConversions : Prop := Claims.ComparesAndSelects ∧ Claims.VectorConversions

/-- R146 to R150: reductions, the scan, the dot product, permutation, rotation, broadcast, extraction and partition. Which mask bit
governs the flags of a wide `vdot4` lane is the model's choice (log 58). -/
def Sys2Proof.Claims.CrossLaneResults : Prop := ∀ (u : VUnit) (x : Bool) (d cnt : BitVec 5) (a b : BitVec 6) (xs : BitVec 3) (cv : Bool) (msk : BitVec 2),
  RowGives2 (.vredAdd u x d a b) u x d a b 6 (redAdd x)
  ∧ RowGives2 (.vredMax u x d a b) u x d a b 6 (redBy x fvMax max)
  ∧ RowGives2 (.vredMin u x d a b) u x d a b 6 (redBy x fvMin min)
  ∧ RowGives2 (.vscanAdd u x d a b) u x d a b 6 (scanAdd x)
  ∧ RowGives2 (.vdot4 x d a b) .va x d a b 5 (dot4 x)
  ∧ RowGives2 (.vperm u x d a b) u x d a b 6 (fun e p q => patRes e.w (q.pats.map fun i => p.pats.getD (i % e.n) 0))
  ∧ RowGives2 (.vrot u x d a b) u x d a b 6
    (fun e p q => patRes e.w ((List.range e.n).map fun i => p.pats.getD ((i + q.pats.headD 0 % e.n) % e.n) 0))
  ∧ RowGives2 (.vbcast u x d a b) u x d a b 3 (fun e p q => patRes e.w (List.replicate e.n (laneOf e p q)))
  ∧ Does (.vext u d a b) (fun c s => rowsOk s c (vNames [a, b]) []) (fun c s =>
      let e := venv s c u.slot
      let p := readV s c e u.slot a
      let q := readV s c e u.slot b
      let v := laneOf e p q
      launchedRow u c { Fly.nil u.slot c.pos 6 with
        dst := some (.s d.toNat, .word (if (tyFmt e.t).isSome then BitVec.ofNat 64 v else BitVec.ofInt 64 (signed (8 * e.w) v)) (BitVec.allOnes 64))
        ring := .w (.bits (rowOf e.w (List.replicate e.n v)))
        flags := if e.any then p.flags ||| q.flags else 0 } s)
  ∧ Does (.vpart u x d a xs cv msk cnt) (fun c s => rowsOk s c (vNames [a]) (if x then [] else [d.toNat])) (fun c s =>
      let e := venv s c u.slot
      let p := readV s c e u.slot a
      let key := readM s c u.slot msk.toNat
      let one := p.pats.zipIdx.filter fun v => key.getLsbD v.2
      let zero := p.pats.zipIdx.filter fun v => !key.getLsbD v.2
      let t := launchedRow u c (rowFly e c u x d 6 p.flags e.bytes (patRes e.w ((one ++ zero).map (·.1)))) s
      if cv then launchedRow u c { Fly.nil u.slot c.pos 6 with dst := some (.s cnt.toNat, .word (BitVec.ofNat 64 one.length) (BitVec.allOnes 64)) } t
      else t)

/-- R154, R156, Table 8.11: the special functions and the division of VB, and codebook expansion. -/
def Sys2Proof.Claims.SpecialFunctionResults : Prop := ∀ (u : VUnit) (x : Bool) (d : BitVec 5) (a b : BitVec 6) (q : BitVec 3),
  RowGives1 (.vexp2 x d a) .vb x d a 8 (special1 x fvExp2)
  ∧ RowGives1 (.vlog2 x d a) .vb x d a 8 (special1 x fvLog2)
  ∧ RowGives1 (.vrcp x d a) .vb x d a 8 (special1 x fun _ _ v => fvDiv (.fin false 1 0) v)
  ∧ RowGives1 (.vrsqrt x d a) .vb x d a 8 (special1 x fun _ _ v => fvRsqrt v)
  ∧ RowGives1 (.vsqrt x d a) .vb x d a 8 (special1 x fun _ _ v => fvSqrt v)
  ∧ RowGives1 (.vtanh x d a) .vb x d a 8 (special1 x fvTanh)
  ∧ RowGives1 (.verf x d a) .vb x d a 8 (special1 x fvErf)
  ∧ RowGives1 (.vsigm x d a) .vb x d a 8 (special1 x fvSigm)
  ∧ RowGives2 (.vdiv x d a b) .vb x d a b 8 (divRes x)
  ∧ Does (.vlut u x d a q) (fun c s => c.beforeIt isVlutLd = false ∧ rowsOk s c (vNames [a]) (if x then [] else [d.toNat])) (fun c s =>
      let e := venv s c u.slot
      let p := readV s c e u.slot a
      let row := if 0x20 ≤ a.toNat ∧ a.toNat < 0x28 then ringRow c (ringW s c u.slot (a.toNat - 0x20)) else rowOf e.w p.pats
      let entry := fun k : Nat => bits (s.core s.turn).lut (64 * k) 64
      let r := rowOf 8 ((List.range 64).map fun k => entry (bits row (8 * (64 * q.toNat + k)) 8))
      launchedRow u c (rowFly e c u x d 6 p.flags e.bytes ⟨.bits r, r, e.w, []⟩) s)

/-- The cross-lane operations and the special functions. -/
def Obligations.CrossLaneAndSpecialResults : Prop := Claims.CrossLaneResults ∧ Claims.SpecialFunctionResults

namespace Sys2Proof.Claims

/-- The active lanes with their byte offsets from the capability's base (R152). -/
def activeAt (e : VEnv) (offs : List Nat) : List (Nat × Nat) := (offs.zipIdx.filter fun o => e.mask.getLsbD o.2).map fun o => (o.2, o.1)

/-- Every active lane passes the checks of R152; the capability's own are made even with no active lane, which is the model's choice (log 88). -/
def lanesOk (s : State) (c : Ctx) (cap : Cap) (right : Nat) (n : Nat) (l : List (Nat × Nat)) : Prop :=
  cap.tag = true ∧ cap.has right = true ∧ ∀ o ∈ l, o.2 + n ≤ cap.len ∧ tierCheck s s.turn cap.obj (cap.base + o.2) n 0 = .ok ()
    ∧ portCheck s (whoOf s.turn c) (some cap.gen) cap.obj (cap.base + o.2) n false 0 = .ok ()

/-- The active lanes of a vector access in a slot. -/
def lanesOf (u : VUnit) (offs : LaneIdx) (c : Ctx) (s : State) : List (Nat × Nat) :=
  activeAt (venv s c u.slot) (offs c s (venv s c u.slot)).1

/-- The single-copy atomic units of the active lanes (R152, Table 15.2): an aligned element, or each byte of one that is not. -/
def laneUnitsOf (base n : Nat) (l : List (Nat × Nat)) : List (Nat × Nat) := l.flatMap fun o => elementUnits (o.2 % n == 0) (base + o.2) n

/-- A vector load gives each active lane its element of memory; the inactive lanes of the ring are zero (R152, R153). -/
def LoadsLanes (i : Instr) (u : VUnit) (x : Bool) (v : BitVec 5) (k cls : BitVec 3) (names : List Nat) (offs : LaneIdx) : Prop :=
  let cap := fun (c : Ctx) (s : State) => readK s c u.slot k.toNat
  let a := fun (c : Ctx) (s : State) => readAct s.turn c u.slot .v cls.toNat (cap c s).obj 0 0
  let units := fun (c : Ctx) (s : State) => laneUnitsOf (cap c s).base (venv s c u.slot).w (lanesOf u offs c s)
  Does i (fun c s => rowsOk s c names (if x then [] else [v.toNat])
      ∧ lanesOk s c (cap c s) rightR (venv s c u.slot).w (lanesOf u offs c s) ∧ readsNow u.slot (a c s) (units c s) s c) fun c s =>
    let t := unitsReadBy (a c s) (units c s) s
    let e := { venv t c u.slot with mask := (venv s c u.slot).mask }
    let row := (lanesOf u offs c s).foldl (fun r o =>
      setBits r (8 * e.w * o.1) (8 * e.w) (ofBytes (unitsValue (a c s) (elementUnits (o.2 % e.w == 0) ((cap c s).base + o.2) e.w) t c))) (0 : Row)
    t.launch { rowFly e c u x v 1 (offs c t e).2 e.bytes ⟨.bits row, row, e.w, []⟩ with var := true }

/-- The bytes that a vector store writes: of two lanes at one byte the higher one stays (R153). -/
def laneData (u : VUnit) (v : BitVec 5) (k : BitVec 3) (offs : LaneIdx) (c : Ctx) (s : State) : List (Nat × Byte) :=
  lastWrites ((lanesOf u offs c s).flatMap fun o =>
    atOffsets ((readK s c u.slot k.toNat).base + o.2) (toBytes (venv s c u.slot).w (elemAt (venv s c u.slot).w (vRow s c u.slot v.toNat) o.1)))

/-- The write that a vector store holds on path V, in units of its elements, or of bytes where one is not aligned. -/
def laneHeld (u : VUnit) (v : BitVec 5) (k cls : BitVec 3) (offs : LaneIdx) (c : Ctx) (s : State) : Held :=
  { scalarHeld c cls.toNat false 0 (readK s c u.slot k.toNat) 0 0 (.bytes (laneData u v k offs c s)) with
    path := .v, slot := u.slot
    unit := if (lanesOf u offs c s).all fun o => o.2 % (venv s c u.slot).w == 0 then (venv s c u.slot).w else 1 }

/-- A vector store holds the bytes of its active lanes on path V (R152, R153). -/
def StoresLanes (i : Instr) (u : VUnit) (v : BitVec 5) (k cls : BitVec 3) (names : List Nat) (offs : LaneIdx) : Prop :=
  Does i (fun c s => rowsOk s c (v.toNat :: names) []
      ∧ lanesOk s c (readK s c u.slot k.toNat) rightW (venv s c u.slot).w (lanesOf u offs c s)
      ∧ holdsNow (laneHeld u v k cls offs c s) s c) fun c s =>
    let cap := readK s c u.slot k.toNat
    let e := venv s c u.slot
    let t := (lanesOf u offs c s).foldl (fun t o => touch t cap.obj (cap.base + o.2) e.w 0) s
    let t := t.launch { Fly.nil u.slot c.pos 1 with flags := if e.any then (offs c s e).2 else 0 }
    if laneData u v k offs c s = [] then t else t.modCur (withHeld (laneHeld u v k cls offs c s))

end Sys2Proof.Claims

/-- R151 to R153, Table 8.9: `vld` and `vst` at a row's consecutive elements, `vgath` and `vscat` at the elements that an index row names. What is
checked with no active lane is the model's choice (log 88). -/
def Obligations.VectorMemory : Prop := ∀ (u : VUnit) (x : Bool) (v : BitVec 5) (o i : BitVec 6) (k cls : BitVec 3),
  let row : LaneIdx := fun c s e => ((List.range e.n).map fun j => (readInt s c u.slot o).toNat + e.w * j, 0)
  let index : LaneIdx := fun c s e => ((readV s c e u.slot i).pats.map fun p => e.w * p, (readV s c e u.slot i).flags)
  LoadsLanes (.vld u x v o k cls) u x v k cls [] row
  ∧ StoresLanes (.vst u v o k cls) u v k cls [] row
  ∧ LoadsLanes (.vgath u x v i k cls) u x v k cls (vNames [i]) index
  ∧ StoresLanes (.vscat u v i k cls) u v k cls (vNames [i]) index

namespace Sys2Proof.Claims

/-- The engine has room for a copy command, and no fence still to complete orders it (R238, R229, R230). -/
def cpRoom (s : State) (c : Ctx) (cls : BitVec 4) : Prop :=
  (s.core s.turn).cp.length < 32 ∧ c.fenced (readAct s.turn c .xc .x cls.toNat 0 0 0) = false

/-- Staging register `xs n`, as XC reads it. -/
def xcOf (s : State) (c : Ctx) (n : Nat) : Word := readStage s c .xc (8 + n)

/-- The rows that a command moves (R245): the tile's row number and the row's offset in memory. -/
def rowsOf (e : Tile) (g : Word) (idx : Option (List Nat × Nat)) : List (Nat × Nat) :=
  copyRows e (gOff g) (if gPitch g = 0 then e.rowBytes else gPitch g) idx

/-- The spans of some rows, each with the alignment it needs. -/
def spansOf (e : Tile) (rows : List (Nat × Nat)) (align : Nat) : List (Nat × Nat × Nat) := rows.map fun r => (r.2, e.rowBytes, align)

/-- The command's capability has its tag and rights, and every span passes R238 checks 5 to 8. -/
def copyOk (s : State) (c : Ctx) (kind : Nat) (cap : Cap) (rights : List Nat) (l : List (Nat × Nat × Nat)) : Prop :=
  cap.tag = true ∧ (∀ r ∈ rights, cap.has r = true) ∧ spanChecks s s.turn c kind cap l = .ok ()

/-- Rows of `n` bytes at object offsets, as the engine holds them. -/
def absolute (cap : Cap) (n : Nat) (rows : List (Nat × Nat)) : List CpPart :=
  rows.map fun x => { row := x.1, col := 0, len := n, mem := cap.base + x.2 }

/-- The engine, the tile and the capability that every copy command needs (R238 checks 1 and 2); `write` says that the command writes its tile. -/
def copyReady (s : State) (c : Ctx) (cls : BitVec 4) (t : Nat) (write : Bool) : Prop :=
  cpRoom s c cls ∧ (if write then ready s c t else tileReadable s c t)

end Sys2Proof.Claims

/-- R238, R245, R246, Table 14.3: `cp.fill`, `cp.drain`, `cp.gath` and `cp.scat` whose checks pass enter the engine with the rows that they
move, and their tile is `FILLING` or `DRAINING`; the fill of a bound tile reads its handle's destination region, and tests the register that K
names first (R259, R21). That an index tile is read whole at issue is the model's choice (log 51). -/
def Obligations.TileCopiesQueue : Prop := ∀ (t : BitVec 6) (k : BitVec 3) (xb cls : BitVec 4) (at' : Bool) (idx : List Nat) (h : Nat),
  let tile := fun s : State => s.tile s.turn t.toNat
  let cap := fun (c : Ctx) (s : State) => readK s c .xc k.toNat
  let g := fun (c : Ctx) (s : State) => xcOf s c xb.toNat
  let i := fun (c : Ctx) (s : State) => xcOf s c (xb.toNat + 1)
  let plain := fun (c : Ctx) (s : State) => rowsOf (tile s) (g c s) none
  let byIndex := fun (c : Ctx) (s : State) => rowsOf (tile s) (g c s) (some (idx, bits (i c s) 32 32))
  let region := fun s : State => mkCap (descDst (s.handleDesc h)).1 0xFF (descDst (s.handleDesc h)).2 (descLen (s.handleDesc h)) 0 true
  let indexed := fun (c : Ctx) (s : State) => iIndexed (i c s) = true ∧ iOk (i c s) = true
    ∧ readIndex s c (bits (i c s) 8 6) (tile s).rows = .ok idx
  let queued := fun (kind : Nat) (rows : Ctx → State → List (Nat × Nat)) (c : Ctx) (s : State) =>
    enterCp s { newCp s c kind t.toNat (cap c s) cls.toNat with
      rows := absolute (cap c s) (tile s).rowBytes (rows c s), names := [t.toNat, bits (i c s) 8 6] } (spansOf (tile s) (rows c s) 1)
  let queuedAt := fun (kind : Nat) (c : Ctx) (s : State) =>
    enterCp s { newCp s c kind t.toNat (cap c s) cls.toNat with rows := absolute (cap c s) (tile s).rowBytes (plain c s), atomic := at' }
      (spansOf (tile s) (plain c s) 1)
  Does (.cpFill t k xb at' cls) (fun c s => copyReady s c cls t.toNat true ∧ (tile s).handle = none
      ∧ copyOk s c 1 (cap c s) [rightT, rightR] (spansOf (tile s) (plain c s) 1)) (queuedAt 1)
  ∧ Does (.cpDrain t k xb at' cls) (fun c s => copyReady s c cls t.toNat false
      ∧ copyOk s c 2 (cap c s) [rightT, rightW] (spansOf (tile s) (plain c s) 1)) (queuedAt 2)
  ∧ Does (.cpGath t k xb cls) (fun c s => copyReady s c cls t.toNat true ∧ indexed c s
      ∧ copyOk s c 3 (cap c s) [rightT, rightR] (spansOf (tile s) (byIndex c s) 1)) (queued 3 byIndex)
  ∧ Does (.cpScat t k xb cls) (fun c s => copyReady s c cls t.toNat false ∧ indexed c s
      ∧ copyOk s c 4 (cap c s) [rightT, rightW] (spansOf (tile s) (byIndex c s) 1)) (queued 4 byIndex)
  ∧ Does (.cpFill t 0 xb false cls) (fun c s => copyReady s c cls t.toNat true ∧ (tile s).handle = some h ∧ (readK s c .xc 0).tag = true
      ∧ (readK s c .xc 0).has rightT = true ∧ (readK s c .xc 0).has rightR = true ∧ handleOk s c.paddock h = true ∧ (s.handle h).state ≠ 4 ∧ ∀ r ∈ plain c s, r.2 + (tile s).rowBytes ≤ descLen (s.handleDesc h)
        ∧ copyTier s s.turn [0, 1, 3, 4] (region s).obj ((region s).base + r.2) (tile s).rowBytes = .ok ()
        ∧ portCheck s (whoOf s.turn c) none (region s).obj ((region s).base + r.2) (tile s).rowBytes false 0 = .ok ())
    (fun c s =>
      let u := s.mapDrovers fun l => l.map fun r => if r.handle = h then { r with demand := true } else r
      enterCp u { newCp u c 1 t.toNat (region s) cls.toNat with rows := absolute (region s) (tile s).rowBytes (plain c s), handle := some h }
        (spansOf (tile s) (plain c s) 1))

/-- R245, R247 to R249, R254: broadcasts, reducing copies, selections and group drains whose checks pass enter the engine with what they
capture. -/
def Obligations.OtherCopiesQueue : Prop := ∀ (t : BitVec 6) (k : BitVec 3) (xb cls : BitVec 4),
  let tile := fun s : State => s.tile s.turn t.toNat
  let cap := fun (c : Ctx) (s : State) => readK s c .xc k.toNat
  let g := fun (c : Ctx) (s : State) => xcOf s c xb.toNat
  let i := fun (c : Ctx) (s : State) => xcOf s c (xb.toNat + 1)
  let plain := fun (c : Ctx) (s : State) => rowsOf (tile s) (g c s) none
  let new := fun (kind : Nat) (c : Ctx) (s : State) => newCp s c kind t.toNat (cap c s) cls.toNat
  let mask := fun (c : Ctx) (s : State) => (i c s).setWidth 48
  let reduces := fun op => Does op (fun c s => copyReady s c cls t.toNat false ∧ (i c s).toNat < 5
      ∧ (tile s).fmtc = (if (i c s).toNat = 0 then 1 else if (i c s).toNat = 1 then 2 else 0) ∧ gPitch (g c s) % 4 = 0
      ∧ copyOk s c 6 (cap c s) [rightT, rightA] (spansOf (tile s) (plain c s) 4))
    (fun c s => enterCp s { new 6 c s with rows := absolute (cap c s) (tile s).rowBytes (plain c s), rop := (i c s).toNat } (spansOf (tile s) (plain c s) 4))
  let topk := fun (c : Ctx) (s : State) => bits (g c s) 40 8 + 1
  let cols := fun (c : Ctx) (s : State) => bits (i c s) 40 8 + 1
  let sel := fun (row : Bool) (kind : Nat) (c : Ctx) (s : State) =>
    let spans := (gOff (g c s), 8 * topk c s * (if row then (tile s).rows else cols c s), 8)
      :: (if (i c s).getLsbD 63 then [(gOff (i c s), 4 * (if row then cols c s else (tile s).rows), 4)] else [])
    (spans, enterCp s { new kind c s with
      rows := [{ row := 0, col := 0, len := 1, mem := (cap c s).base + gOff (g c s) }], topk := topk c s, cols := cols c s
      counts := if (i c s).getLsbD 63 then some ((cap c s).base + gOff (i c s)) else none } spans)
  let selects := fun (row : Bool) (kind : Nat) op => Does op (fun c s => copyReady s c cls t.toNat false
      ∧ ((tile s).fmtc = 1 ∨ (tile s).fmtc = 2) ∧ bits (g c s) 48 16 = 0 ∧ bits (i c s) 48 15 = 0
      ∧ gOff (i c s) % 4 = 0 ∧ cols c s ≤ (tile s).rowBytes / (if (tile s).fmtc = 1 then 4 else 2) ∧ topk c s ≤ (if row then cols c s else (tile s).rows)
      ∧ copyOk s c kind (cap c s) [rightT, rightW] (sel row kind c s).1)
    (fun c s => (sel row kind c s).2)
  Does (.cpBcst t k xb cls) (fun c s => copyReady s c cls t.toNat false ∧ (cap c s).tag = true
      ∧ (cap c s).has rightT = true ∧ (cap c s).has rightW = true ∧ (cap c s).has rightL = true
      ∧ (i c s).toNat < 2 ^ 48 ∧ (i c s).toNat ≠ 0 ∧ (i c s).getLsbD (s.turn % 48) = false
      ∧ (∀ r ∈ plain c s, r.2 + (tile s).rowBytes ≤ (cap c s).len) ∧ isScratch (cap c s).obj = true ∧ reaches s.turn (cap c s).obj = true
      ∧ bcstPorts s c (cap c s) (mask c s) (plain c s) (tile s).rowBytes = .ok ())
    (fun c s => enterCp s { new 5 c s with rows := absolute (cap c s) (tile s).rowBytes (plain c s), mask := mask c s } [])
  ∧ reduces (.cpRedFadd t k xb cls) ∧ reduces (.cpRedBf2Add t k xb cls) ∧ reduces (.cpRedIntAdd t k xb cls)
  ∧ reduces (.cpRedSmax t k xb cls) ∧ reduces (.cpRedUmax t k xb cls)
  ∧ selects true 7 (.cpSelr t k xb cls) ∧ selects false 8 (.cpSelc t k xb cls)
  ∧ Does (.cpGdrain t k xb cls) (fun c s => copyReady s c cls t.toNat false ∧ sOk (i c s) = true
      ∧ (tile s).rows = 128 ∧ (tile s).rowBytes = 512 ∧ (tile s).fmtc = 1 ∧ (gPitch (g c s) = 0 ∨ 1024 ≤ gPitch (g c s))
      ∧ (let p := if gPitch (g c s) = 0 then 1024 else gPitch (g c s)
         copyOk s c 11 (cap c s) [rightT, rightW]
          (spansOf (tile s) (copyRows (tile s) (gOff (g c s) + 128 * (s.turn % 4 / 2) * p + 512 * (s.turn % 4 % 2)) p none) 1)))
    (fun c s =>
      let p := if gPitch (g c s) = 0 then 1024 else gPitch (g c s)
      let rows := copyRows (tile s) (gOff (g c s) + 128 * (s.turn % 4 / 2) * p + 512 * (s.turn % 4 % 2)) p none
      let x := { new 11 c s with rows := absolute (cap c s) (tile s).rowBytes rows, gid := sGid (i c s), pitch := p, cols := gOff (g c s) }
      enterCp (beginTracked s c x 2 1 (i c s)) x (spansOf (tile s) rows 1))

/-- R250 to R253: remote copies whose checks pass enter the engine with their status begun (a GET's requests go out at once, and it waits at its
issue while an earlier command of its class or on its bytes is unfinished, or its connections have no room); `cp.ramo` needs G where a row is
remote (R361); `cp.pmt.grant` holds one PERMIT; `cp.pmt.take`, with nothing held, moves the permit word into `PMT`; both follow the earlier
commands of their class and on their word (R240). The model's choices: an index tile is read whole at issue (log 51), a grant is held in the porch
(log 55), and what the tiers of a permit word are (log 57). -/
def Sys2Proof.Claims.RemoteCopiesQueue : Prop := ∀ (t : BitVec 6) (k : BitVec 3) (xb cls : BitVec 4) (idx : Option (List Nat × Nat)),
  let tile := fun s : State => s.tile s.turn t.toNat
  let cap := fun (c : Ctx) (s : State) => readK s c .xc k.toNat
  let g := fun (c : Ctx) (s : State) => xcOf s c xb.toNat
  let i := fun (c : Ctx) (s : State) => xcOf s c (xb.toNat + 1)
  let w := fun (c : Ctx) (s : State) => xcOf s c (xb.toNat + 2)
  let rows' := fun (c : Ctx) (s : State) => rowsOf (tile s) (g c s) idx
  let words := fun (c : Ctx) (s : State) => indexPart s c (i c s) (tile s).rows = .ok idx ∧ iOk (i c s) = true ∧ sOk (w c s) = true
  let new := fun (kind : Nat) (c : Ctx) (s : State) =>
    { newCp s c kind t.toNat (cap c s) cls.toNat with
      rows := absolute (cap c s) (tile s).rowBytes (rows' c s)
      names := t.toNat :: (if iIndexed (i c s) then [bits (i c s) 8 6] else []) }
  let touches := fun (c : Ctx) (s : State) =>
    ((tile s).obj, (tile s).offset, (tile s).stop - (tile s).offset)
      :: (rows' c s).map fun r => ((cap c s).obj, (cap c s).base + r.2, (tile s).rowBytes)
  let puts := fun op => Does op (fun c s => copyReady s c cls t.toNat false ∧ words c s ∧ iGet (i c s) = false
      ∧ copyOk s c 9 (cap c s) [rightT, rightG, rightW] (spansOf (tile s) (rows' c s) 1))
    (fun c s =>
      let x := { new 9 c s with pv := (i c s).getLsbD 3 }
      enterCp (beginTracked s c x 0 (rows' c s).length (w c s)) x (spansOf (tile s) (rows' c s) 1))
  let getOk := fun (c : Ctx) (s : State) => copyReady s c cls t.toNat true ∧ words c s ∧ iGet (i c s) = true
    ∧ copyOk s c 12 (cap c s) [rightT, rightG, rightR] (spansOf (tile s) (rows' c s) 1)
  let getClear := fun (c : Ctx) (s : State) => (∀ y ∈ (s.core s.turn).cp, y.cls ≠ cls.toNat
      ∧ ∀ a ∈ y.spans, ∀ b ∈ touches c s, ¬ (a.1 = b.1 ∧ a.2.1 < b.2.1 + b.2.2 ∧ b.2.1 < a.2.1 + a.2.2))
    ∧ roomForGets s { new 12 c s with pv := (i c s).getLsbD 3 } = true
  let gets := fun op => Does op (fun c s => getOk c s ∧ getClear c s)
      (fun c s =>
        let x := { new 12 c s with pv := (i c s).getLsbD 3 }
        enterCp (sendGets (beginTracked s c x 0 1 (w c s)) x) { x with rows := [] } (spansOf (tile s) (rows' c s) 1))
    ∧ ∀ s c, Issues s c → getOk (ctxFor op c) (stateFor op s c) → ¬ getClear (ctxFor op c) (stateFor op s c) → exec op s = .next (markWaiting s).tick
  let write := fun (c : Ctx) (s : State) =>
    { scalarHeld c cls.toNat false 0 (cap c s) (gOff (g c s)) 8
        (.remote 3 (s.core s.turn).cpNext 0 false 0 (bits (i c s) 0 16) (if bits (i c s) 16 32 = 0 then 9766 else bits (i c s) 16 32)
          (List.replicate 8 0)) with path := .x, slot := .xc, cmd := some ((s.core s.turn).cpNext, [64]) }
  let kept := fun (c : Ctx) (s : State) => [(cap c s).val.toNat, if (cap c s).tag then 1 else 0, (g c s).toNat]
  let word := fun (c : Ctx) (s : State) => readAct s.turn c .xc .x cls.toNat (cap c s).obj ((cap c s).base + gOff (g c s)) 8
  let quietOnes := fun (c : Ctx) (s : State) => (keepOperands s s.turn .xc (kept c s)).modCur fun c =>
    { c with porch := [], committing := false, reserved := [], ringWait := none, replay := false }
  let permitFree := fun (c : Ctx) (s : State) => ∀ x ∈ (s.core s.turn).cp, x.cls ≠ cls.toNat
    ∧ ∀ p ∈ x.spans, ¬ (p.1 = (cap c s).obj ∧ p.2.1 < (cap c s).base + gOff (g c s) + 8 ∧ (cap c s).base + gOff (g c s) < p.2.1 + p.2.2)
  puts (.cpRmaPut t k xb cls) ∧ puts (.cpRmaGet t k xb cls) ∧ gets (.cpRmaPut t k xb cls) ∧ gets (.cpRmaGet t k xb cls)
  ∧ Does (.cpRamo t k xb cls) (fun c s => copyReady s c cls t.toNat false ∧ words c s
      ∧ (tile s).fmtc = (if (i c s).getLsbD 2 then 2 else 1) ∧ gOff (g c s) % 4 = 0 ∧ gPitch (g c s) % 4 = 0
      ∧ (∀ r ∈ rows' c s, remoteIn s (cap c s).obj ((cap c s).base + r.2) (tile s).rowBytes = true → (cap c s).has rightG = true)
      ∧ copyOk s c 10 (cap c s) [rightT, rightA] (spansOf (tile s) (rows' c s) 4))
    (fun c s =>
      let x := { new 10 c s with rop := if (i c s).getLsbD 2 then 1 else 0 }
      enterCp (beginTracked s c x 1 (rows' c s).length (w c s)) x (spansOf (tile s) (rows' c s) 4))
  ∧ Does (.cpPmtGrant k xb cls) (fun c s => cpRoom s c cls ∧ permitFree c s ∧ (g c s).toNat < 2 ^ 40 ∧ (i c s).toNat < 2 ^ 48 ∧ bits (i c s) 0 16 ≠ 0
      ∧ copyOk s c 9 (cap c s) [rightG, rightA] [(gOff (g c s), 8, 8)] ∧ c.spilling = false
      ∧ entryCount (c.porch ++ [write c s]) ≤ 8192)
    (fun c s =>
      ((touch s (cap c s).obj ((cap c s).base + gOff (g c s)) 8 0).modCore s.turn fun x => { x with cpNext := x.cpNext + 1 }).modCur
        (withHeld (write c s)))
  ∧ Does (.cpPmtTake k xb cls) (fun c s => cpRoom s c cls ∧ permitFree c s ∧ c.caught .xc = none ∧ nothingOpen s c ∧ (g c s).toNat < 2 ^ 40
      ∧ copyOk s c 6 (cap c s) [rightA] [(gOff (g c s), 8, 8)]
      ∧ portCheck s (whoOf s.turn c) (some (cap c s).gen) (cap c s).obj (word c s).off 8 true 0 = .ok ()
      ∧ copyTier (quietOnes c s) s.turn [0, 3, 4] (cap c s).obj (word c s).off 8 = .ok ()
      ∧ portCheck (quietOnes c s) (whoOf s.turn c) (some (cap c s).gen) (cap c s).obj ((cap c s).base + gOff (g c s)) 8 true 0 = .ok ()
      ∧ fillHeld (quietOnes c s) (word c s).obj (word c s).off 8 0 = false)
    (fun c s =>
      let a := { word c s with tile := some 64 }
      let u := ((touch (quietOnes c s) a.obj a.off 8 0).recordRead a).record (Act.over { a with kind := .write false } (quietOnes c s))
      let p := performAtomic u a.obj a.off 8 9 false 0 0 0
      p.1.modCur fun c => { c with pmt := BitVec.ofNat 64 p.2 })

/-- R255: `cp.cancel` cancels the commands of one tile or of all tiles; none of them is left in the engine, and the held writes that they
made are removed. That an `EMPTY` tile raises no fault here, and that the operation issues while the engine is full, are the model's
choices (log 96). -/
def Sys2Proof.Claims.CopiesAreCancelled : Prop :=
  (∀ t : BitVec 6, Does (.cpCancel t) (fun c s => c.tileLater t.toNat = false ∧ (s.tile s.turn t.toNat).state ≠ 4)
    fun _ s => cancelCopies s s.turn fun l => l.contains t.toNat)
  ∧ (∀ t : BitVec 6, ∀ s c, Issues s c → (ctxFor (.cpCancel t) c).tileLater t.toNat = false →
      ((stateFor (.cpCancel t) s c).tile s.turn t.toNat).state = 4 →
      exec (.cpCancel t) s = .next (fatalIn s s.turn 6 ⟨0x0C, ((stateFor (.cpCancel t) s c).tile s.turn t.toNat).err, none, 0, false⟩).tick)
  ∧ (AlwaysDoes .cpCancelAll fun _ s => cancelCopies s s.turn fun l => !l.isEmpty)
  ∧ ∀ (s : State) (core : Nat) (c : Ctx) (p : List Nat → Bool), s.ctxOf core = some c →
    (∀ x ∈ ((cancelCopies s core p).core core).cp, p x.names = false)
    ∧ ∀ c', (cancelCopies s core p).ctxOf core = some c' → ∀ h ∈ c'.porch, ∀ id l, h.cmd = some (id, l) →
      p l = false ∨ (partOf (cancelCopies s core p) core id).isSome = true

/-- R250 to R253, R255: remote copies, permits and cancellations. -/
def Obligations.RemoteCopiesAndCancels : Prop := Claims.RemoteCopiesQueue ∧ Claims.CopiesAreCancelled

namespace Sys2Proof.Claims

/-- A write of a fold's state, the waiters apart, as `FOLDLO` and `FOLDHI` give it (R377). -/
def foldWritten (s : State) (fid : Nat) (lo : Option Word) (hi : Word) : Fold :=
  setBits (BitVec.ofNat 128 ((lo.getD 0).toNat + 2 ^ 64 * hi.toNat)) 16 16 (s.fold fid).waiters

/-- A step leads to a state of which `p` holds. -/
def Leads (i : Instr) (s : State) (p : State → Prop) : Prop := ∃ t, exec i s = .next t ∧ p t

end Sys2Proof.Claims

/-- R300, R350, R377, R379: the writes that reach the hub. -/
def Obligations.HubWrites : Prop := ∀ s : State,
  let a := s.args
  (a.core < 288 → Happens .hresetWrite s s ∧ Happens .foldloWrite s s ∧ Happens .foldhiWrite s s ∧ Happens .spaceDescriptorWrite s s)
  ∧ (a.core ≠ 294 → a.core ≠ 288 + a.id → Happens .schcfgWrite s s)
  ∧ (288 ≤ a.core →
  ((a.val.toNat < 65536 → (s.handle a.val.toNat).state = 4 →
      Happens .hresetWrite s (s.setHandle a.val.toNat { s.handle a.val.toNat with state := 0, err := 0 }))
    ∧ ((65536 ≤ a.val.toNat ∨ (s.handle a.val.toNat).state ≠ 4) → Happens .hresetWrite s s))
  ∧ (∀ c, s.ctxOf a.core = some c → Happens .foldloWrite s (s.setCtx a.core { c with foldLo := some a.val }))
  ∧ (∀ c, s.ctxOf a.core = some c →
      let fid := c.foldSel.toNat
      let f := foldWritten s fid c.foldLo a.val
      (foldStateOk f = true → f.valid = true → f.lvl = (s.fold fid).lvl → f.domain = (s.fold fid).domain →
        Happens .foldhiWrite s (settleFold (s.setFold fid f) fid))
      ∧ (foldStateOk f = false → Leads .foldhiWrite s fun t => t = ({ s with recorder := t.recorder } : State).tick)))
  ∧ (¬ ownedBy a.core a.id → Happens .spaceDescriptorWrite s s)
  ∧ (ownedBy a.core a.id → bits a.val 16 16 = bits (sget 0 s.descs a.id) 16 16 →
      Happens .spaceDescriptorWrite s (sweepWatches { s with descs := sput 0 s.descs a.id (a.val.setWidth 32) }))
  ∧ (ownedBy a.core a.id → bits a.val 16 16 ≠ bits (sget 0 s.descs a.id) 16 16 →
      Happens .spaceDescriptorWrite s (sweepWatches { s with clearing := (s.clearing.filter fun e => e.1 != a.id)
        ++ [(a.id, BitVec.ofNat 32 (bits a.val 16 16 * 65536 + (bits (sget 0 s.descs a.id) 0 16 + 1) % 65536))] }))
  ∧ (∀ d, s.clearing.find? (fun e => e.1 == a.id) = some (a.id, d) →
      let n := if a.id < 288 then 0x200000 else s.roomSize (a.id - 288)
      let t := s.clearSpan (spaceAddr (spaceObj a.id) 0) n
      let t := t.record (hardwareAct t (spaceObj a.id) 0 n)
      Happens .localSpaceClearEnd s (sweepWatches { t with
        clearing := t.clearing.filter fun e => e.1 != a.id, descs := sput 0 t.descs a.id d, lost := sput 0 t.lost a.id 0 }))
  ∧ (a.core = 294 ∨ a.core = 288 + a.id → Leads .schcfgWrite s fun t => t = ({ s with schcfg := t.schcfg } : State).tick
      ∧ bits (t.schCfg a.id) 0 16 = (if bits a.val 0 16 = 0 then bits (s.schCfg a.id) 0 16 else bits a.val 0 16)
      ∧ bits (t.schCfg a.id) 16 16 = (if bits a.val 16 16 = 0 then bits (s.schCfg a.id) 16 16 else bits a.val 16 16)
      ∧ bits (t.schCfg a.id) 40 8 = bits a.val 40 8)

/-- R29, R45, R62, R233, R319, R405: what the hardware does at a core's bundle boundary, with its results, its porch and its self-test. A core
that was asked to test itself, with a context or idle, goes on where the test passes, and is retired where it fails, in its state and in the
health page (Table 25.7). A result that a system register changes under is latched at its issue, or holds what the register holds as it
completes (log 79). -/
def Obligations.CoreSteps : Prop := ∀ (s : State) (c : Ctx),
  let a := s.args
  ((s.core a.core).selfTest = false → Happens .coreSelfTest s s)
  ∧ ((s.core a.core).selfTest = true → a.flag = true →
      Happens .coreSelfTest s (s.modCore a.core fun x => { x with selfTest := false, errTimes := [] }))
  ∧ ((s.core a.core).selfTest = true → a.flag = false →
      Leads .coreSelfTest s fun t => (t.core a.core).retired = true ∧ (t.core a.core).selfTest = false
        ∧ (sget 0 t.health (0x180 + 8 * (a.core / 64))).getLsbD (a.core % 64) = true)
  ∧ (s.ctxOf a.core = some c →
  (atBoundary c = true → fenceShort s a.core c = false → (levelOf a.core ≠ .u ∨ c.budget ≠ 0) → ∀ t b, fetch s a.core c = .ok (t, b) →
      (checkBundle a.core b = none → Happens .bundleCheck s (startBundle t a.core b))
      ∧ ∀ k, checkBundle a.core b = some k → Happens .bundleCheck s (dropContext t a.core (checkTrap t a.core c c.pc k)))
  ∧ (atBoundary c = true → levelOf a.core = .u → c.budget = 0 →
      let e := trapOf s a.core c 0x20 0 0 c.pc (List.replicate 8 0) none 0
      Happens .budgetTrap s ((s.setCtx a.core { c with mode := .frozen e none }).tell (queueOf a.core) 0 e))
  ∧ (let due := fun w : Fly => w.var && !w.done && w.slot == a.slot && w.pos == a.seq
     (c.inJoin = false → a.flag = false → Happens .variableLatencyResult s (s.setCtx a.core (c.complete due)))
     ∧ (c.inJoin = false → a.flag = true → Happens .variableLatencyResult s (s.setCtx a.core
        (({ c with fly := c.fly.map fun w => if due w then refresh s a.core c w else w } : Ctx).complete due)))
     ∧ (c.inJoin = true → Happens .variableLatencyResult s (s.setCtx a.core c)))
  ∧ (c.reserved ≠ [] → c.committing = false →
      let r := reserveAll ((spawnsOf c.porch).drop c.reserved.length) c.reserved s
      Happens .spawnSlotReserve s (r.1.modCtx a.core fun c => { c with reserved := r.2.1 }))
  ∧ (8192 ≤ entryCount c.porch → c.spilling = false →
      ∀ t, spill s a.core (fun h => some h == (spillable s a.core c).head?) = .ok t → Happens .porchSpill s t))

/-- R373, R374, R391: the delivery of a trap record. A core at a bundle boundary, or halted, whose delivery is not held takes the oldest event of
its queue: `TRAPRET` keeps its next bundle, `s0` to `s7` receive the record, and it goes on at `TVEC` with delivery held. The housekeeper, with
its queue empty, takes a management or arbiter event so; what `s0` to `s7` then hold is no rule's (log 93). -/
def Obligations.TrapDeliveryTakes : Prop := ∀ (s : State) (c : Ctx) (e : TrapEv) (rest : List TrapEv),
  let core := 288 + s.args.id
  let diverted := fun c' : Ctx => c'.held = true ∧ c'.mode = .run ∧ c'.pc = c.tvec.toNat ∧ c'.trapRet = BitVec.ofNat 64 (c.pc % 2 ^ 40)
  s.args.id ≤ 6 → s.ctxOf core = some c → c.held = false → c.doomed = none → ((c.mode = .run ∧ c.issue = none) ∨ c.mode = .halted) →
  (sget [] s.queues s.args.id = e :: rest →
    Leads .trapDelivery s fun t => sget [] t.queues s.args.id = rest ∧ ∃ c', t.ctxOf core = some c' ∧ diverted c'
      ∧ ∀ n, n < 8 → sget 0 c'.s n = BitVec.ofNat 64 ((e.words (deliveryId s s.args.id e)).getD n 0))
  ∧ (sget [] s.queues s.args.id = [] → s.args.id = 6 → s.hubEvents ≠ 0 →
    Leads .trapDelivery s fun t => t.hubEvents + 1 = s.hubEvents ∧ ∃ c', t.ctxOf core = some c' ∧ diverted c')
  ∧ (sget [] s.queues s.args.id = [] → (s.args.id ≠ 6 ∨ s.hubEvents = 0) → Happens .trapDelivery s s)

/-- R103, R161, R174, R177: the matrix engine's steps. A writing command lowers its bank's watermark to its first row when it starts, makes one
row final at a time, and leaves the watermark at 128 when it completes; a store holds its bytes and makes its tile `READY`. When the operands of
a row and the rows of a store are read is the model's choice (log 45). -/
def Obligations.MatrixSteps : Prop := ∀ (s : State) (c : Ctx) (i : Nat) (x : MxCmd) (u : State),
  let core := s.args.core
  let a : Act := { readAct core c .mx .m 15 0 0 0 with prog := (c.segment, x.pos, Slot.mx.idx) }
  let m : MxRead := ⟨core, c, a⟩
  let read := recordTiles s a x
  let operands := (x.kind = 1 ∨ x.kind = 3) → ∀ t ∈ x.tiles.zip x.gens,
    portCheck s (whoOf core c) (some t.2) (Tile.obj t.1) (Tile.offset t.1) (Tile.stop t.1 - Tile.offset t.1) false 0 = .ok ()
  s.ctxOf core = some c → (s.core core).mx[i]? = some x →
  (startable (s.core core).mx s.args.flag = some i → x.kind ≠ 4 →
      Happens .mxCommandStart s ((s.setMx core i fun x => { x with started := true }).setWm core x.bank x.row0))
  ∧ (startable (s.core core).mx s.args.flag = some i → x.kind = 4 →
      let rows := (List.range x.rows).filter fun r => decide (x.row0 + r < s.wm core x.bank)
      let acc := rows.foldl (fun a r => sput 0 a r (s.accRow core x.bank (x.row0 + r))) x.acc
      Happens .mxCommandStart s (s.setMx core i fun x => { x with started := true, done := rows.length, acc := acc }))
  ∧ (running (s.core core).mx = some i → x.paused = false → x.assisted = false → (x.kind = 2 ∨ x.kind = 3) → operands →
      let v := if x.kind = 2 then 0 else loadedRow read m x (read.accRow core x.bank (x.row0 + x.done))
      Happens .mmaRowFinal s (raiseWm ((read.setAccRow core x.bank (x.row0 + x.done) v).setMx core i fun x => { x with done := x.done + 1, col := 0 })
        core x.bank (x.row0 + x.done + 1)))
  ∧ (running (s.core core).mx = some i → x.paused = false → x.kind = 1 → operands → mmaRow core i x m (msN x.ms0) read = some u →
      (∃ y, (u.core core).mx[i]? = some y ∧ y.paused = false ∧ y.assisted = false) →
      Happens .mmaRowFinal s (raiseWm (u.setMx core i fun x => { x with done := x.done + 1, col := 0 }) core x.bank (x.row0 + x.done + 1)))
  ∧ ((s.core core).mx.findIdx? (fun x => x.started && x.writes != s.args.flag && !x.assisted) = some i → x.kind ≠ 4 → x.rows ≤ x.done →
      Happens .mxCommandComplete s ((s.modCore core fun y => { y with mx := y.mx.eraseIdx i }).setWm core x.bank 128))
  ∧ ((s.core core).mx.findIdx? (fun x => x.started && x.writes != s.args.flag && !x.assisted) = some i → x.kind = 4 →
      x.row0 + x.rows ≤ s.wm core x.bank →
      let l := storeElems s core x (List.range (Tile.rows (x.tiles.getD 0 0)))
      let n := x.names.getD 0 0
      let write := { heldTile c .m 15 .mx x.pos n (x.tiles.getD 0 0) (x.gens.getD 0 0) (l.flatMap fun e => atOffsets e.off e.data) with
        group := x.group, unit := rowElem (fmtOut x.fmt) }
      hold s core write = .ok u →
      let raised := u.modCtx core fun c => c.raise { Fly.nil .mx x.pos 0 with
        flags := (storeRaises l).1, amax := (storeRaises l).2.1, amaxNan := (storeRaises l).2.2 }
      Happens .mxCommandComplete s ((raised.modCore core fun y => { y with mx := y.mx.eraseIdx i }).tileTo core n 2))

/-- R241, R242, R246, R254: the copy engine's steps. A command that nothing keeps waiting reads its parts in any order, its units land one by one,
it completes when nothing is left, an atomic one moves every byte in one event, and a group drain performs once its four parts are staged or times
out 100 µs after the first. How rows are cut into pieces and in which order they land is an input's choice (logs 11, 53), and which copies read a
row in one event is the model's (log 86). -/
def Obligations.CopySteps : Prop := ∀ (s : State) (c : Ctx) (x : CpCmd) (p : CpPart) (u : State),
  let a := s.args
  let core := a.core
  s.ctxOf core = some c →
  (cpReady s core a.id = some x → handleGate s x = .ok true → x.rows[a.off]? = some p → x.atomic = false → x.kind ≠ 11 →
      let (o, n) := x.pieceOf p a.seq a.len
      let q := p.piece o n
      x.rowWaits q = false → flashAt s x [q] = none → moveParts s core c x [q] = .ok u →
      Happens .copySourceRead s (endDrain (u.setCp core x.id fun y =>
        { y with begun := true, rows := x.rows.eraseIdx a.off ++ p.without o n }) core x.tileNo))
  ∧ (cpReady s core a.id = some x → ∀ e, handleGate s x = .error e → x.rows[a.off]? = some p → Happens .copySourceRead s (failFill s core x e))
  ∧ (cpReady s core a.id = some x → ∀ m, x.moves[a.off]? = some m → x.mayLand a.off m = true →
      let obj := if cpWritesTile x.kind then Tile.obj x.tile else x.cap.obj
      let runs := runsOf (m.2.map (·.1))
      (∀ r ∈ runs, portCheck s (whoOf core c) (some (if cpWritesTile x.kind then x.tileGen else x.cap.gen)) obj r.1 r.2 true 0 = .ok ()
        ∧ mmaHolds s obj r.1 r.2 = false) →
      let t := runs.foldl (fun s r => s.record (Act.over { accessX core c x with obj := obj, off := r.1, len := r.2, kind := .write false } s)) s
      Happens .byteLanding s ((landFor (performBytes t obj 0 m.2) (Tile.fold x.tile) m.2.length).setCp core x.id fun y =>
        { y with moves := y.moves.eraseIdx a.off }))
  ∧ ((s.core core).cp.find? (fun x => x.id == a.id) = some x → x.rows = [] → x.moves = [] → (x.kind = 12 → awaiting s core x.id = false) →
      cpWritesTile x.kind = true →
      let t := ((dropCp s core x.id).tileTo core x.tileNo 2).modCtx core fun c =>
        { c with porch := c.porch.map fun h => if h.cmd = some (x.id, x.names) then { h with cmd := some (x.id, []) } else h }
      Happens .copyCommandComplete s (settleTracked (if x.kind = 12 then t.track core x.id fun y => { y with unsent := 0 } else t) core x.id))
  ∧ ((s.core core).cp.find? (fun x => x.id == a.id) = some x → x.rows = [] → x.moves = [] → cpWritesTile x.kind = false →
      Happens .copyCommandComplete s (settleTracked (endDrain (dropCp s core x.id) core x.tileNo) core x.id))
  ∧ (cpReady s core a.id = some x → x.atomic = true → x.rows ≠ [] → flashAt s x x.rows = none → moveParts s core c x x.rows = .ok u →
      Happens .atomicTile s (endDrain (u.setCp core x.id fun y => { y with begun := true, rows := [] }) core x.tileNo))
  ∧ ∀ p q v w : GroupPart,
    let parts := (sget [] s.parts a.id).filter fun y => y.gid == a.code && !y.closed
    (parts = [p, q, v, w] →
      let t := performBytes ([p, q, v, w].foldl recordPart s) p.cap.obj 0 (p.data ++ q.data ++ v.data ++ w.data)
      let t := [p, q, v, w].foldl (fun s y => landFor s y.fold y.data.length) t
      Happens .groupDrainPerform s (closeGroup t a.id a.code fun y => { y with good := 4 }))
    ∧ (∀ l, parts = p :: l → l.length < 3 → p.since + 100000 ≤ s.time →
      Happens .groupDrainTimeout s (closeGroup s a.id a.code fun y => { y with code := 3 }))

namespace Sys2Proof.Claims

/-- A message arrives on a connection that is up, at a port whose link is up, with the number that its responder expects next (R283). -/
def expected (s : State) : Prop :=
  (s.portOf (s.conn s.args.id).port).up = true ∧ (s.conn s.args.id).up = true ∧ s.args.seq % 2 ^ 32 = (s.conn s.args.id).expected

/-- A message has been answered with a status: the next number is expected, and the status is in the window (R283). -/
def answeredWith (old : State) (st : Nat) (data : List Byte) (s : State) : State :=
  s.setConn old.args.id { s.conn old.args.id with
    expected := (old.args.seq + 1) % 2 ^ 32, window := (st :: (old.conn old.args.id).window).take 4096
    answer := some (old.args.seq % 2 ^ 32, st, data) }

/-- The units of a message have all performed (R283): nothing of the next one has begun. -/
def settled (cn : Nat) (s : State) : State := s.setConn cn { s.conn cn with begun := [] }

/-- The responder takes a message with the expected number, of which nothing has performed and which no input interrupts: where nothing
refuses it, `act` performs, and its status is 0; where one reason does,
nothing performs, and that reason is its status (R214, R283, R411). -/
def Responds (p : State → Prop) (i : Instr) (reasons : State → Option (List Nat)) (act : State → State) (data : State → List Byte) : Prop :=
  ∀ s, p s → expected s → s.pause = 0 → (s.conn s.args.id).begun = [] →
    (reasons s = some [] → Happens i s (answeredWith s 0 (data s) (settled s.args.id (act s))))
    ∧ ∀ n, reasons s = some [n] → Happens i s (answeredWith s n [] s)

end Sys2Proof.Claims

/-- R212 to R214, R250, R253, R283, R362, R411, R413, R420: what a responder does with a message that has the expected number: it performs and is
acknowledged, or it is refused with its reason; and what a port does with a frame. The model's choices: a GET is read in one event (log 86), and
what a PERMIT does to a word that it finds (log 66). -/
def Obligations.MessagesAreAnswered : Prop :=
  let n := fun s : State => s.args.data.length
  let toObject := fun s : State => s.args.obj ≠ 0xFFA000
  let object := fun (right : Nat) (len : State → Nat) (lenOk landOk : State → Bool) (s : State) =>
    objectReasons s s.args.id s.args.obj s.args.gen s.args.off (len s) right (lenOk s) (landOk s)
  let legal := fun (len : State → Nat) (s : State) => decide (1 ≤ len s) && decide (len s ≤ 4096)
  let landing := fun s : State => !s.args.flag || (s.conn s.args.id).landed != 0
  let by' := fun (kind : ActKind) (off len : Nat) (s : State) => peerAct s s.args.id s.args.obj off len kind
  Responds toObject .put (object rightW n (legal n) landing)
    (fun s =>
      let units := unitsOf (if s.args.nats.isEmpty then 16 else 1) (atOffsets s.args.off s.args.data)
      let t := units.foldl (fun t d =>
        let u := touch t s.args.obj s.args.off (n s) 0
        performBytes (u.record ((peerAct u s.args.id s.args.obj ((d.head?.map (·.1)).getD s.args.off) d.length (.write true)).over u)) s.args.obj 0 d) s
      if s.args.flag then t.setConn s.args.id { t.conn s.args.id with landed := (t.conn s.args.id).landed - 1 } else t) (fun _ => [])
  ∧ Responds toObject .get (object rightR (·.args.len) (legal (·.args.len)) (fun _ => true))
    (fun s => (fillSpan (touch s s.args.obj s.args.off s.args.len 0) s.args.obj s.args.off s.args.len 0).recordRead
      (by' (.read true []) s.args.off s.args.len s))
    (fun s => partyBytes (fillSpan (touch s s.args.obj s.args.off s.args.len 0) s.args.obj s.args.off s.args.len 0) s.args.obj s.args.off s.args.len 0)
  ∧ Responds toObject .fadd (object rightA n (fun s => legal n s && n s % 4 == 0 && s.args.off % 4 == 0) (fun _ => true))
    (fun s => (List.range (n s / 4)).foldl (fun t i =>
      let u := touch t s.args.obj s.args.off (n s) 0
      addElems (11, s.args.flag) s.args.obj (s.args.off + 4 * i) ((s.args.data.drop (4 * i)).take 4)
        (u.recordRead ((peerAct u s.args.id s.args.obj (s.args.off + 4 * i) 4 (.atomic false [])).over u))) s) (fun _ => [])
  ∧ Responds toObject .permit
    (object rightA (fun _ => 8) (fun s => decide (1 ≤ s.args.len) && decide (s.args.len ≤ 65535) && s.args.off % 8 == 0) (fun _ => true))
    (fun s => grantPermits
      ((touch s s.args.obj s.args.off 8 0).recordRead ((by' (.atomic false []) s.args.off 8 s).over s)) s.args.obj s.args.off s.args.len (if s.args.val = 0 then 9766 else s.args.val.toNat))
    (fun _ => [])
  ∧ (∀ s, expected s → s.args.off < 4096 → pastValid (s.pasture s.args.off) = true → s.args.code = 0 →
      (∃ p, peerOf s s.args.id = some p ∧ pastPaddock (s.pasture s.args.off) = p.paddock) →
      let t := (s.record (peerAct s s.args.id (tailPseudo s.args.off) 0 8 (.write true))).hubWrite (s.pastureAddr s.args.off + 16) 8 s.args.val.toNat
      Happens .tail s (answeredWith s 0 [] (settled s.args.id (t.seeTail s.args.off))))
  ∧ (∀ s, expected s → (s.conn s.args.id).begun = [] →
      (peerOf s s.args.id = none → Happens .tail s (answeredWith s 1 [] s))
      ∧ ∀ p, peerOf s s.args.id = some p → s.args.code = 0 →
        (4096 ≤ s.args.off ∨ pastValid (s.pasture s.args.off) = false → Happens .tail s (answeredWith s 13 [] s))
        ∧ (s.args.off < 4096 → pastValid (s.pasture s.args.off) = true → pastPaddock (s.pasture s.args.off) ≠ p.paddock →
            Happens .tail s (answeredWith s 4 [] s)))
  ∧ (∀ s, expected s → mayRecord s s.args.id = true →
      Happens .recorderFreezeRelease s (answeredWith s 0 [] (settled s.args.id { s with recorder := { s.recorder with frozen := false } })))
  ∧ (∀ s : State,
      let p := s.args.id
      let f := s.args.frame
      let t := countLink s p s.args.len s.args.code
      let thrown := f.kind = .pause ∨ f.kind = .pfc ∨ f.kind = .otherDelivery ∨ 9216 < f.len
      ((s.portOf p).up = false → Happens .frameReceive s s)
      ∧ ((s.portOf p).up = true → 16 < s.args.code → Happens .frameReceive s t)
      ∧ ((s.portOf p).up = true → s.args.code ≤ 16 → thrown →
          Happens .frameReceive s (t.setPort p { t.portOf p with discarded := (t.portOf p).discarded + 1 }))
      ∧ ((s.portOf p).up = true → s.args.code ≤ 16 → ¬ thrown → (∀ x ∈ s.peers, x.addr ≠ f.src.toNat) →
          Happens .frameReceive s (dropFrame t p f.src.toNat))
      ∧ ((s.portOf p).up = true → s.args.code ≤ 16 → ¬ thrown → (∃ x ∈ s.peers, x.addr = f.src.toNat) →
          (f.kind = .otherSemantic → ∃ r, 1 ≤ r ∧ Happens .frameReceive s (t.setConn f.conn { t.conn f.conn with answer := some (s.args.seq, r, []) }))
          ∧ (f.kind ≠ .otherSemantic → Happens .frameReceive s t))
      ∧ (s.args.len = 0 → s.args.code = 0 → t = s)
      ∧ (s.args.code = 0 → s.args.len ≠ 0 → (s.health.find? fun h => h.1 == 0x400 + 64 * p) = none → s.args.len < 2 ^ 64 →
          (sget 0 t.health (0x400 + 64 * p)).toNat = s.args.len))

/-- R214, R250, R252, R283, R307, R381, R409, R411 to R413: the sender's side: an answer completes its message once, a failed connection fails its
GETs with reason 11, leases end, connections and links change state, and a lost link moves its connections, with their numbers and what they
hold, to another port toward the same peer. How a lease and a re-establishment meet is the model's choice (log 66). -/
def Obligations.SendersAndLinks : Prop := ∀ (s : State) (m : Message),
  let a := s.args
  let c := s.conn a.id
  let gone := s.setConn a.id { c with unacked := c.unacked.filter fun x => x.seq != m.seq }
  let mine := c.unacked.find? (fun x => x.seq == a.seq) = some m
  (mine → m.kind ≠ 4 → Happens .ack s (succeed gone m))
  ∧ (mine → Happens .nak s (refuse gone m a.code))
  ∧ (c.unacked.find? (fun x => x.seq == a.seq) = none → Happens .ack s s ∧ Happens .nak s s)
  ∧ (mine → m.kind = 4 → a.data.length = m.len → ∀ t, landResponse s m a.data = .ok t →
      Happens .getResponse s (succeed (t.setConn t.args.id { t.conn t.args.id with
        unacked := (t.conn t.args.id).unacked.filter fun x => x.seq != m.seq }) m))
  ∧ Happens .messageResend s s
  ∧ (m ∈ c.unacked → m.sent + 100000000 ≤ s.time → portsToward s a.id = [] →
      Happens .connectionFail s ((c.unacked.filter fun x => x.kind == 4).foldl (fun s x => refuse s x 11)
        (s.setConn a.id { c with failed := true, unacked := c.unacked.filter fun x => x.kind != 4 })))
  ∧ (c.up = true → 1024 * c.lease ≤ s.time → Happens .permitLeaseExpiry s (s.setConn a.id { c with landed := 0 }))
  ∧ (withinLimit s a.id = false → Happens .connectionReestablished s s)
  ∧ (withinLimit s a.id = true → Happens .connectionReestablished s (s.setConn a.id { c with
      up := true, failed := false, expected := a.seq % 2 ^ 32, window := [], answer := none, begun := [],
      landed := if 1024 * c.lease ≤ s.time then 0 else c.landed }))
  ∧ ((s.portOf a.id).up = true →
      let u := s.setPort a.id { s.portOf a.id with up := false }
      Leads .portLinkDown s fun t => (t.portOf a.id).up = false
        ∧ (∀ cn, (∀ x ∈ s.conns, x.1 = cn → x.2.port ≠ a.id) → t.conn cn = s.conn cn)
        ∧ ∀ cn, (∃ x ∈ s.conns, x.1 = cn ∧ x.2.port = a.id) →
          (portsToward u cn = [] → t.conn cn = s.conn cn)
          ∧ (portsToward u cn ≠ [] → ∃ q ∈ portsToward u cn, t.conn cn = { s.conn cn with port := q, failed := false }))
  ∧ ((s.portOf a.id).up = false → a.id < 4 → s.boot = .running → Leads .portLinkUp s fun t => (t.portOf a.id).up = true)
  ∧ ((s.linkOf a.id).training = false → a.flag = false →
      Leads .flitCrcReplay s fun t => t.linkOf a.id = ⟨(s.linkOf a.id).replays + 1, (s.linkOf a.id).consecutive + 1,
        decide (64 ≤ (s.linkOf a.id).consecutive + 1)⟩)
  ∧ ((s.linkOf a.id).training = true → a.flag = true →
      Leads .linkRetrain s fun t => (t.linkOf a.id).training = false ∧ (t.linkOf a.id).consecutive = 0)
  ∧ ((s.linkOf a.id).training = true → a.flag = false → Leads .linkRetrain s fun t => t.recorder.frozen = true ∧ t.watchdog.isSome = true)

/-- R15, R263, R416: the Drovers: a request is sent when nothing blocks it, or evicts what covers its destination first; a fetch whose checks pass
waits for controllers that hold further requests, spends their counts, and lands whole (in one event: the model's choice, log 86), and its handle
is `RESIDENT`; one that fails is `FAILED` with its ERR, but a predicted one that fails a check is dropped and counted; a Cellar read that cannot be
corrected fails both with ERR 1; an eviction ends in `ABSENT`, or in `FETCHING` behind a queued request. -/
def Obligations.DroverSteps : Prop := ∀ (s : State) (r : DroverReq),
  let h := s.args.id
  let d := s.handleDesc h
  let ranked := ((s.drover h).filter fun r => r.demand && !r.sent) ++ (s.drover h).filter fun r => !r.demand && !r.sent
  let first := ∃ before after, ranked = before ++ r :: after ∧ blocked s r.handle = false
    ∧ (∀ b ∈ before, overlaps s b.handle r.handle = false)
    ∧ ∀ l x m, before = l ++ x :: m → blocked s x.handle = true ∨ ∃ b ∈ l, overlaps s b.handle x.handle = true
  let data := fun t : State => atOffsets (descDst d).2 (locBytes t (descSrc d).1 (descSrc d).2 (descLen d) 0)
  let held := fetchFills s (descSrc d).1 (descSrc d).2 (descLen d)
  let lands := fun t : State => endFetch t h { t.handle h with state := 2, err := 0, landed := descLen d } 6
  (first → toEvict s r.handle = [] →
      Happens .droverRequestSend s (s.setDrover h ((s.drover h).map fun x => if x = r then { x with sent := true } else x)))
  ∧ (first → toEvict s r.handle ≠ [] →
      Happens .droverRequestSend s ((toEvict s r.handle).foldl (fun s g => s.setHandle g { s.handle g with state := 3 }) s))
  ∧ (sentRequest s h = some r → fetchChecks s h = .lands → held = [] →
      let t := spendFetch s (descSrc d).1 (descSrc d).2 (descLen d)
      Happens .handleFetchComplete s (lands (if r.demand = true
        then performBytes (touch t (descSrc d).1 (descSrc d).2 (descLen d) 0) (descDst d).1 0 (data t)
        else performQuiet t (descDst d).1 0 (data t))))
  ∧ (sentRequest s h = some r → fetchChecks s h = .lands → held ≠ [] → Happens .handleFetchComplete s (held.foldl State.holdReq s))
  ∧ (sentRequest s h = some r → ∀ e, fetchChecks s h = .fails e →
      (r.demand = true ∨ e = 1 → Happens .handleFetchComplete s (failHandle s h e) ∧ Happens .handleFetchFail s (failHandle s h e))
      ∧ (r.demand = false → e ≠ 1 → Happens .handleFetchComplete s (dropFetch s r) ∧ Happens .handleFetchFail s (dropFetch s r)))
  ∧ (sentRequest s h = some r → fetchChecks s h = .waits →
      (r.demand = true → Happens .handleFetchComplete s s ∧ Happens .handleFetchFail s (failHandle s h 1))
      ∧ (r.demand = false → Happens .handleFetchComplete s (dropFetch s r) ∧ Happens .handleFetchFail s (dropFetch s r)))
  ∧ (sentRequest s h = some r → fetchChecks s h = .lands → Happens .handleFetchFail s (failHandle s h 1))
  ∧ (∀ err, ((failHandle s h err).handle h).state = 4 ∧ ((failHandle s h err).handle h).err = err)
  ∧ ((s.handle h).state = 3 →
      let st := if (s.drover0 ++ s.drover1).any (fun r => r.handle == h) then 1 else 0
      Happens .handleEvictComplete s (s.setHandle h { s.handle h with state := st, err := 0, landed := 0 }))

/-- R289, R291, R293, R295 to R299, R322, R401, R425: records, pastures and pens: from a ring or a return lane through a pen to an idle core, and
from a wake to the return lane. The model's choices: from when a ring counts as non-empty (log 28), what LINK and RETLANE hold (log 17), what a
pickup checks (logs 72, 75), the fields of a notice (log 73), and that a ring whose offset is not aligned is not valid (log 94). -/
def Obligations.SchedulingSteps : Prop := ∀ (s : State) (cl n p : Nat),
  let a := s.args
  let t := sweepPens s
  let canRead := fun obj off : Nat => portCheck s ⟨0, true⟩ none obj off 64 false 0 = .ok () ∧ flashIn s obj off 64 0 = none
    ∧ fillHeld s obj off 64 0 = false
  (s.tailsSeen.contains a.id = true →
      let u : State := { s with tailsSeen := s.tailsSeen.filter fun x => x != a.id }
      Happens .pastureNonempty s (joinOrder (if ringCount (u.pasture a.id) = 0 ∨ u.counted.contains a.id = true then u
        else { u with counted := u.counted ++ [a.id] }) a.id))
  ∧ (s.tailsSeen.contains a.id = false → Happens .pastureNonempty s s)
  ∧ (a.id = cl → cl < 6 → waitingHead t cl = some p → (List.range 32).find? (fun n => (t.pen cl n).pasture.isNone) = some n →
      Happens .penMap s (mapPen t cl n p))
  ∧ (a.id = cl → waitingHead t cl = some p → oldestPen t cl = some n →
      (t.pen cl n).since + quantOf t cl ≤ t.time → Happens .penRemap s (mapPen (releasePen t cl n) cl n p))
  ∧ (a.id = cl → a.core = n → n < 32 → (s.pen cl n).pasture = some p → (s.pen cl n).buf.length < 8 → eligible s cl p = true → s.lane p = [] →
      let obj := ringObj (s.pasture p)
      let off := ringSlot (s.pasture p) (headOf (s.pasture p))
      let u := fillSpan (touch s obj off 64 0) obj off 64 0
      (canRead obj off →
        Happens .penClaim s (sweepPens ((bufferRecord u cl n (recordAt u obj off) (obj, off) false).hubWrite (u.pastureAddr p + 24) 8
          (headOf (s.pasture p) + 1))))
      ∧ ((∃ f, portCheck s ⟨0, true⟩ none obj off 64 false 0 = .error (.fatal f))
          ∨ (portCheck s ⟨0, true⟩ none obj off 64 false 0 = .ok () ∧ (flashIn s obj off 64 0).isSome = true) →
        Happens .penClaim s (stallPasture s cl n p obj off)))
  ∧ (a.id = cl → a.core = n → n < 32 → (s.pen cl n).pasture = some p → (s.pen cl n).buf.length < 8 → eligible s cl p = true →
      ∀ e rest, s.lane p = e :: rest → canRead e.frameObj e.frameOff →
        let u := fillSpan (touch s e.frameObj e.frameOff 64 0) e.frameObj e.frameOff 64 0
        (e.record = none → Happens .penClaim s (sweepPens
          (bufferRecord (u.setLane p rest) cl n (recordAt u e.frameObj e.frameOff) (e.frameObj, e.frameOff) true)))
        ∧ ∀ r src, e.record = some (r, src) → Happens .penClaim s (sweepPens (bufferRecord (u.setLane p rest) cl n r src false)))
  ∧ (∀ u b, takeRecord t a.core = some (u, p, b) →
      (rejectCauses u p b = [] → .wait ∉ pickupReads u b.record → Happens .pickup s (startRecord u a.core b.record))
      ∧ (rejectCauses u p b ≠ [] → ∃ why, Happens .pickup s
          (u.tell (queueOf a.core) 0 { noticeOf u (unitOf a.core) 0x30 a.core b.source.1 b.source.2 with reason := why })))
  ∧ (∀ r, s.returning[a.id]? = some r →
      let behind := r.pin.isSome = true ∧ ∃ x ∈ s.returning.take a.id, x.pin = r.pin
      let waits := areaWaits s r.frameObj r.frameOff = true ∨ ∃ e, (s.lane r.pasture).getLast? = some e ∧ areaWaits s e.frameObj e.frameOff = true
      let u := landStatus { s with returning := s.returning.eraseIdx a.id } r
      (behind ∨ waits → Happens .recordReturn s s)
      ∧ (¬ (behind ∨ waits) → Happens .recordReturn s (joinOrder (u.pushLane r.pasture ⟨r.frameObj, r.frameOff, none⟩) r.pasture)))
  ∧ (∀ w, s.waiting[a.id]? = some w → (∃ n cond v scope obj off gen pad, w.on = .word n cond v scope obj off gen pad) →
      Happens .wakeWithoutCause s (wakeRecord s w 4 none))
  ∧ (s.wakesSeen.contains a.id = false → Happens .pinfoldWake s s)
  ∧ (s.wakesSeen.contains a.id = true →
      let u : State := { s with wakesSeen := s.wakesSeen.filter fun x => x != a.id }
      let pins := s.waiting.filterMap fun w => match w.on with
        | .pinfold c seq prio answer => if c = a.id then some (seq, prio, answer, w) else none
        | _ => none
      (∀ seq prio answer w, pins = [(seq, prio, answer, w)] → answer ≠ 0 →
        Happens .pinfoldWake s ((wakeRecord u w (if answer = 1 then 10 else 11) none).hubWrite
          (u.pinEntry a.id seq + 13) 1 3))
      -- no entry leaves before a pending one of its PRIO with a lower SEQ
      ∧ (∀ x y, pins = [x, y] → x.2.2.1 = 0 → y.2.2.1 ≠ 0 → x.1 < y.1 →
          (x.2.1 = y.2.1 → Happens .pinfoldWake s u)
          ∧ (x.2.1 ≠ y.2.1 → Happens .pinfoldWake s ((wakeRecord u y.2.2.2 (if y.2.2.1 = 1 then 10 else 11) none).hubWrite
              (u.pinEntry a.id y.1 + 13) 1 3))))

/-- R187, R192, R206, R208, R280, R281, R360, R381, R403, R415: the L2's fills and write-backs, the write queues, changes of split, prefetches,
scrubs and the Cellar's own work. The model's choices: where the bytes of a line stand (log 81), how a block of GQ4 is encoded again (log 82), what
counts as programmed whole (logs 29, 68), and which line makes room (log 4). -/
def Sys2Proof.Claims.MemoryHardwareSteps : Prop := ∀ (s : State) (l : Line) (c : Ctx),
  let a := s.args
  let e := s.objEnt a.obj
  let pe := s.pageEnt e a.off
  let p := s.phaseOf a.id
  let size := 0x380000 - 0x40000 * p.cur
  let mine := fun q : Burst => q.stack == a.id && q.chan == a.off
  -- a sector of a resident page in a legal format comes into its home slice; any other stays out
  let fills := s.isTable a.obj = true ∧ a.off < e.size ∧ e.valid = true ∧ pe.resident e.page = true ∧ pe.pairOk = true ∧ pe.rf = false
    ∧ sectorFails s a.obj e pe a.off = false
  (fills → s.spent (deviceOf pe.base) = false → Happens .sectorFill s (fillSector s a.obj e pe a.off))
  ∧ (fills → s.spent (deviceOf pe.base) = true → Happens .sectorFill s (s.holdReq ⟨deviceOf pe.base, a.obj, a.off / 128 * 128, false⟩))
  ∧ (¬ fills → Happens .sectorFill s s)
  -- a write-back: of a clean line, of a line that must wait, of one whose page is elsewhere, and of one that goes
  ∧ (s.lines.find? (fun x => x.obj == a.obj && x.line == a.off / 256 && (x.home == pe.home a.obj a.off || decide (a.code = x.home + 1))) = some l →
      let out := fun t : State => if a.flag = true ∨ l.place = .leaving then t.dropLine l else t
      (l.dirty = 0 → Happens .l2Writeback s (out s))
      ∧ (l.dirty ≠ 0 → (e.valid = false ∨ pe.resident e.page = false) → Happens .l2Writeback s s)
      ∧ (l.dirty ≠ 0 → e.valid = true → pe.resident e.page = true → lineGoes e pe l = false → Happens .l2Writeback s (s.dropLine l))
      ∧ (l.dirty ≠ 0 → lineGoes e pe l = true →
          (∀ t, sendLine s e pe l = (t, false) → Happens .l2Writeback s t) ∧ ∀ t, sendLine s e pe l = (t, true) → Happens .l2Writeback s (out t))
      -- it waits for writes of its units that have begun to perform, for a controller that has spent its count, and for room in the queues
      ∧ (l.dirty ≠ 0 → lineGoes e pe l = true →
          (writesDue s e pe l = true → Happens .l2Writeback s s)
          ∧ (writesDue s e pe l = false → deviceOf pe.base < 8 → s.spent (deviceOf pe.base) = true →
              Happens .l2Writeback s (s.holdReq ⟨deviceOf pe.base, l.obj, 256 * l.line, true⟩))
          ∧ (writesDue s e pe l = false → deviceOf pe.base < 8 → s.spent (deviceOf pe.base) = false →
              queueRoom s (deviceOf pe.base) (burstsIn (writeBackLine s e pe l).2.1) = false → Happens .l2Writeback s s)
          -- a Cellar stack that takes no writes loses the page
          ∧ (writesDue s e pe l = false → 8 ≤ deviceOf pe.base → 2 ≤ (s.cellar (deviceOf pe.base - 8)).state →
              Happens .l2Writeback s (out (markLost s l.obj (256 * l.line)))))
      -- a line of a page that neither converts nor compresses: its dirty sectors' bursts enter the write queues
      ∧ (let sp := plainSpans e pe l
         let u := s.setLine { l with dirty := 0 }
         l.dirty ≠ 0 → lineGoes e pe l = true → pe.converts = false → pe.cmp = false → deviceOf pe.base < 8 →
         s.spent (deviceOf pe.base) = false →
         (∀ b ∈ burstsIn sp, s.queueLength (deviceOf pe.base) (Config.pseudoChannel (deviceOf pe.base) (64 * b)) + (burstsIn sp).length ≤ 64) →
         Happens .l2Writeback s (out (wakeChanged s { u with
           arbiter := (s.spend (deviceOf pe.base) (64 * (burstsIn sp).length)).arbiter
           writeQ := s.writeQ ++ (burstsIn sp).map (burstOf u sp (deviceOf pe.base)) }))))
  -- a queue of 48 entries drains to 16, oldest first; a held read lets the entries that it meets be applied first
  ∧ (a.flag = false → 48 ≤ (s.writeQ.filter mine).length →
      Leads .writeQueueDrain s fun t => t.writeQ.filter mine = (s.writeQ.filter mine).drop ((s.writeQ.filter mine).length - 16)
        ∧ t.writeQ.filter (fun q => !mine q) = s.writeQ.filter (fun q => !mine q)
        ∧ t.mem = ((s.writeQ.filter mine).take ((s.writeQ.filter mine).length - 16)).foldl Burst.apply s.mem)
  ∧ (a.flag = false → (s.writeQ.filter mine).length < 48 → Happens .writeQueueDrain s s)
  ∧ (a.flag = true →
      let hit := fun q : Burst => mine q && meets (a.val.toNat, a.len) (q.addr, 64)
      Happens .writeQueueDrain s { s with mem := (s.writeQ.filter hit).foldl Burst.apply s.mem, writeQ := s.writeQ.filter fun q => !hit q })
  -- a change of split ends; a shrink once every released line has left
  ∧ (p.busy = true → p.tgt < p.cur → ∀ u, expelAll s (releasedLines s a.id p.tgt) = (u, true) →
      let t := u.clearSpan (spaceAddr (0xFF9000 + a.id) size) (0x40000 * (p.cur - p.tgt))
      Happens .phaseShrinkComplete s { t with phases := sput ⟨8, 8, false⟩ t.phases a.id ⟨p.tgt, p.tgt, false⟩ })
  ∧ (p.busy = true → p.tgt < p.cur → ∀ u, expelAll s (releasedLines s a.id p.tgt) = (u, false) → Happens .phaseShrinkComplete s u)
  ∧ (p.busy = true → p.tgt = p.cur →
      let t := s.clearSpan (spaceAddr (0xFF9000 + a.id) size) (0x380000 - size)
      Happens .phaseGrowComplete s { t with phases := sput ⟨8, 8, false⟩ t.phases a.id ⟨p.tgt, p.tgt, false⟩ })
  ∧ (p.busy = false → Happens .phaseShrinkComplete s s ∧ Happens .phaseGrowComplete s s)
  -- a prefetch fills the sector, or is dropped and counted
  ∧ ((s.ctxOf a.core = none ∨ isLocal a.obj = true) → Happens .hardwarePrefetch s s)
  ∧ (s.ctxOf a.core = some c → isLocal a.obj = false →
      let e := s.seenObj a.obj 0
      let pe := pageFor s a.obj e (a.off / e.page * e.page) 0
      ((∃ x, portCheck s (whoOf a.core c) none a.obj a.off 1 false 0 = .error x) → Happens .hardwarePrefetch s (countDrop s a.core))
      ∧ (portCheck s (whoOf a.core c) none a.obj a.off 1 false 0 = .ok () →
          ((2 ≤ pe.tier ∨ sectorFails s a.obj e pe a.off = true) → Happens .hardwarePrefetch s (countDrop s a.core))
          ∧ (pe.tier < 2 → sectorFails s a.obj e pe a.off = false →
              Happens .hardwarePrefetch s (if s.spent (deviceOf pe.base) = true then s else fillSector s a.obj e pe a.off))))
  -- a slice of the Cellar's programming ends after its hour; wear levelling, relocation and retirement change no stored value
  ∧ (a.id < 8 → (s.cellar a.id).sliceStart + 3600000000000 ≤ s.time →
      Happens .programmingSliceEnd s (s.setCellar a.id { s.cellar a.id with slice := 0, sliceStart := s.time }))
  ∧ (s.time < (s.cellar a.id).sliceStart + 3600000000000 → Happens .programmingSliceEnd s s)
  ∧ (8 ≤ a.id → Happens .programmingSliceEnd s s ∧ Happens .cellarMaintenance s s)
  ∧ (a.id < 8 → a.flag = false → (s.cellar a.id).state ≠ 3 → Leads .cellarMaintenance s fun t =>
      (a.act = .retireBlock → (t.cellar a.id).badblk = (s.cellar a.id).badblk + 1 ∧ (t.cellar a.id).spare ≤ (s.cellar a.id).spare)
      ∧ (∀ f, a.act = .relocate f → (t.cellar a.id).reloc = (s.cellar a.id).reloc + 1)
      ∧ (a.act = .wearLevel → (s.cellar a.id).wear ≤ (t.cellar a.id).wear)
      ∧ (t.cellar a.id).state = (if (t.cellar a.id).spare = 0 then 2 else if (t.cellar a.id).spare < 100 then 1 else 0))
  ∧ (a.id < 8 → a.flag = true → Leads .cellarMaintenance s fun t => (t.cellar a.id).state = 3)
  -- scrubs count what they have corrected
  ∧ (a.id < 3 → a.code < 8 → (sget 0 s.health (128 * a.id + 16 * a.code)).toNat + a.len < 2 ^ 64 → Leads .sramScrub s fun t =>
      (sget 0 t.health (128 * a.id + 16 * a.code)).toNat = (sget 0 s.health (128 * a.id + 16 * a.code)).toNat + a.len)
  ∧ ((sget 0 s.health (128 * stackDie a.id + 80)).toNat + a.len < 2 ^ 64 → Leads .hbmScrub s fun t =>
      (sget 0 t.health (128 * stackDie a.id + 80)).toNat = (sget 0 s.health (128 * stackDie a.id + 80)).toNat + a.len)

/-- The machine as a segment is aborted for replay, before its save area is written (R290, R405): its engine commands are cancelled, its operations in
flight and its porch discarded, and what its commit had reserved is released. -/
def Sys2Proof.Claims.discarded (s : State) (core : Nat) (c : Ctx) : State :=
  let u := releaseSlots ((cancelCopies (s.recall core) core fun _ => true).dropUnsent core) c.reserved
  u.setCore core { Core.vacate core (u.core core) with ctx := some { c with
    mode := .aborting, issue := none, slip := [], pend := [], fly := [], porch := [], fencing := [], reserved := [], spilling := false
    ringWait := none, parkAsked := false } }

/-- R404, R405, R410: an error in a core's own state. A segment that may be replayed is aborted: its record is RETURNING, with the save area of the
segment's start, once that may be written; a context whose journal is still to be acknowledged goes back with the journal as it is. Any other
context is killed, with the event of KIND 0x12, once the writes that its commit has begun have performed. The third error within 1 s asks for a
self-test. What of the journal a resent context keeps is the model's choice (logs 27, 65). -/
def Sys2Proof.Claims.CoreErrors : Prop := ∀ (s : State) (core : Nat) (c : Ctx), s.args.loc = .core core →
  let counted := fun row : Nat => countError s (dieOf core) (min 1 s.args.code) (unitOf core) (unitIndex core) row [core]
  let returned := fun t : State => t.ctxOf core = none ∧ ⟨c.record.frameObj, c.record.frameOff, c.record.pasture, none, none⟩ ∈ t.returning
  let told := fun (kind : Nat) (t : State) => t.ctxOf core = none ∧ ∃ e ∈ sget [] t.queues (queueOf core),
    e.kind = kind ∧ e.core = unitIndex core ∧ e.codeObj = c.codeObj ∧ (c.hasRecord = true → e.frameObj = c.record.frameObj ∧ e.frameOff = c.record.frameOff)
  (s.ctxOf core = none → Leads .uncorrectableError s fun t => t.ctxOf core = none)
  ∧ (s.ctxOf core = some c → c.replay = true → c.committing = false → c.hasRecord = true →
      (c.resends = true → Leads .uncorrectableError s returned)
      ∧ (c.resends = false →
        let u := Claims.discarded (counted 1) core c
        (saveCheck u core c = .ok () → Leads .uncorrectableError s returned)
        ∧ (saveCheck u core c = .error .wait → Leads .uncorrectableError s fun t => ∃ d, t.ctxOf core = some d ∧ d.mode = .aborting)
        ∧ ∀ f, saveCheck u core c = .error (.fatal f) → f.kind ≠ 0x13 → f.kind < 0x30 → Leads .uncorrectableError s (told f.kind)))
  ∧ (s.ctxOf core = some c → (c.replay = false ∨ c.hasRecord = false) → c.committing = false → c.doomed = none →
      Leads .uncorrectableError s (told 0x12))
  ∧ (s.ctxOf core = some c → c.committing = true → c.porch.any (·.due) = true → c.doomed = none →
      Leads .uncorrectableError s fun t => (∃ d e, t.ctxOf core = some d ∧ d.doomed = some e ∧ e.kind = 0x12 ∧ d.porch = c.porch ∧ d.committing = true)
        ∧ (t.core core).mx = [] ∧ (t.core core).cp = [])
  ∧ (core < 288 → 2 ≤ ((s.core core).errTimes.filter fun t => decide (s.time < t + 1000000000)).length →
      Leads .uncorrectableError s fun t => (t.core core).selfTest = true)

/-- R263, R404, R406, R407, R411, R416, R419, Table 25.2: an error elsewhere, by its place. A local space: the region is lost; stored bytes: the
page is lost; a walk's table: the walk takes the lost-page fault, a core's its own, a message is refused with reason 7, a fetch fails; an L2 sector:
a clean one is invalid, a dirty one loses its page; compression metadata: every page that it describes is lost; a save area at pickup: its page or
region is lost and the record rejected; the Cellar: the flash page fails until it is programmed whole; a watch entry: its records wake without
cause; a Drover's entry: a predicted request is dropped and a demand request sent again; the hub: a fatal package error. The span of a metadata
entry and when a flash page reads again are the model's choices (logs 68, 69). -/
def Sys2Proof.Claims.ErrorsAreContained : Prop := ∀ (s : State) (core sp o pa : Nat),
  let a := s.args
  let stored := fun row : Nat => countError s (stackDie (deviceOf pa)) 5 4 (deviceOf pa) row [pa]
  (a.loc = .space sp o → o / 65536 < 56 → Leads .uncorrectableError s fun t => (sget 0 t.lost sp).getLsbD (o / 65536) = true)
  ∧ (a.loc = .hbm pa →
      (deviceOf pa < 8 ∧ pageHolds s a.obj a.off pa = true → Happens .uncorrectableError s (markLost (stored 5) a.obj a.off))
      ∧ (¬ (deviceOf pa < 8 ∧ pageHolds s a.obj a.off pa = true) → Happens .uncorrectableError s (stored 5)))
  ∧ (a.loc = .table pa core →
      let t := if pageHolds s a.obj a.off pa = true then markLost (stored 6) a.obj a.off else stored 6
      (a.code = 0 → Happens .uncorrectableError s (fatalIn t core a.slot.idx ⟨0x09, 0, some (a.id, a.len), 0, false⟩))
      ∧ (a.code = 1 → (t.portOf (t.conn core).port).up = true → (t.conn core).up = true → a.seq % 2 ^ 32 = (t.conn core).expected →
          (t.conn core).begun = [] → Leads .uncorrectableError s fun u => (u.conn core).answer = some (a.seq % 2 ^ 32, 7, []))
      ∧ (2 ≤ a.code → ∀ r, sentRequest t core = some r →
          Happens .uncorrectableError s (if r.demand = true then failHandle t core (if a.flag = true then 2 else 4) else dropFetch t r)))
  ∧ (∀ ln sec l, a.loc = .l2 o ln sec → s.lineAt o (s.pageEnt (s.objEnt o) (256 * ln)) (256 * ln) = some l →
      let t := fun row : Nat => countError s (l.home / 144) 3 3 l.home row [o, 256 * ln + 128 * (sec % 2)]
      Happens .uncorrectableError s (if l.dirty.getLsbD (sec % 2) = true then markLost (t 5) o (256 * ln)
        else (t 4).setLine { l with valid := l.valid &&& ~~~sectorMask (128 * (sec % 2)) }))
  ∧ (∀ x, a.loc = .compression o x →
      let pe := s.pageEnt (s.objEnt o) x
      let on := s.isTable o = true ∧ pe.cmp = true ∧ pe.resident (s.objEnt o).page = true
      (on → Happens .uncorrectableError s ((s.allPages.filter (metaCovers s (pe.base + x % (s.objEnt o).page))).foldl (fun t p => markLost t p.1 p.2)
        (countError s (stackDie (deviceOf pe.base)) 5 4 (deviceOf pe.base) 7 [o, x])))
      ∧ (¬ on → Happens .uncorrectableError s s))
  ∧ (a.loc = .saveArea core → ∀ t p b, takeRecord s core = some (t, p, b) →
      let r := b.record
      let u := countError t (dieOf core) 5 0 core 8 [r.frameObj, r.frameOff]
      (r.srv = false → Happens .uncorrectableError s s)
      ∧ (r.srv = true → ∃ why, Happens .uncorrectableError s
          (let u := if isLocal r.frameObj = true then loseRegion u (spaceNo r.frameObj) r.frameOff else markLost u r.frameObj r.frameOff
           u.tell (queueOf core) 0 { noticeOf u (unitOf core) 0x30 core b.source.1 b.source.2 with reason := why })))
  ∧ (a.loc = .cellar pa →
      (deviceOf pa < 8 → Happens .uncorrectableError s s)
      ∧ (8 ≤ deviceOf pa → Leads .uncorrectableError s fun t => pa / 16384 ∈ (t.cellar (deviceOf pa - 8)).failed
          ∧ (t.cellar (deviceOf pa - 8)).uncorr = (s.cellar (deviceOf pa - 8)).uncorr + 1))
  ∧ (∀ ix, a.loc = .watch ix →
      Happens .uncorrectableError s ((entryMates s ix).foldl (fun s w => wakeRecord s w 4 none) (countError s 2 6 3 0 10 [ix])))
  ∧ (∀ die ix, a.loc = .drover die ix →
      let t := countError s 2 6 3 0 11 [die, ix]
      ((t.drover die)[ix]? = none → Happens .uncorrectableError s t)
      ∧ ∀ r, (t.drover die)[ix]? = some r →
        (r.demand = true → Happens .uncorrectableError s (t.setDrover die ((t.drover die).map fun x => if x = r then { x with sent := false } else x)))
        ∧ (r.demand = false → Happens .uncorrectableError s
            (countDrop ((t.setDrover die ((t.drover die).filter fun x => x != r)).unfetch r.handle) r.core)))
  ∧ (a.loc = .hub → Leads .uncorrectableError s fun t => t.recorder.frozen = true ∧ t.watchdog.isSome = true)

/-- The memory hardware's own steps, and what an error does by its place. -/
def Obligations.MemoryHardwareAndErrors : Prop := Claims.MemoryHardwareSteps ∧ Claims.CoreErrors ∧ Claims.ErrorsAreContained

/-- R15, R309, R374, R381 to R388, R419: the arbiter, the recorder, the watchdog, the resets, attestation and recovery. In an interval no more
than the ceiling is given, in tenths of a watt: to each stack its floor and no more than its peak, to each die up to 1,000 W before what remains
goes to those with demand; each controller's count is at least that of Table 17.8. A stack's peak watts are presumed (log 30), and which changes are
events for the housekeeper is the model's choice (log 93); the boot region, the key, the fuses and a configuration's layout are opaque (log 21). -/
def Obligations.HubSteps : Prop := ∀ s : State,
  let a := s.args
  (Leads .arbiterInterval s fun t =>
      let pkgw := s.num s.policy 2
      let diew := s.num (s.policy + 2) 2
      let base := min 2800 (if pkgw = 0 then 2800 else pkgw)
      let steps := min (if a.flag then s.arbiter.tsteps + 1 else if a.code != 0 then s.arbiter.tsteps - 1 else s.arbiter.tsteps) ((base - 640) / 140)
      let ceil := base - 140 * steps
      let die := min 1150 (if diew = 0 then 1150 else diew)
      let w := fun k : Nat => t.arbiter.alloc.getD k 0
      let peak := fun k : Nat => if k < 8 then 400 else 300
      t.arbiter.tsteps = steps ∧ t.arbiter.ceil = ceil ∧ t.arbiter.die = die
        ∧ (t.arbiter.alloc.length = 18 ∧ t.arbiter.alloc.foldl (· + ·) 0 ≤ 10 * ceil)
        ∧ (∀ k, k < 16 → w (2 + k) ≤ peak k ∧ (140 ≤ ceil → peak k / 4 ≤ w (2 + k)) ∧ (a.nats.getD (2 + k) 0 = 0 → w (2 + k) ≤ peak k / 4))
        ∧ (∀ k, k < 2 → w k ≤ 10 * die ∧ (140 + 2 * min 1000 die ≤ ceil → 10 * min 1000 die ≤ w k)
            ∧ (a.nats.getD k 0 = 0 → w k ≤ 10 * min 1000 die))
        ∧ (s.arbiter.held = [] → ∀ k, (k < 8 → 800000000 ≤ t.arbiter.bytes.getD k 0)
            ∧ (8 ≤ k → k < 16 → 300000000 ≤ t.arbiter.bytes.getD k 0) ∧ (k < 8 → 8000000 ≤ t.arbiter.writes.getD k 0))
        ∧ t.hubEvents = s.hubEvents + (if ceil ≠ s.arbiter.ceil ∨ die ≠ s.arbiter.die ∨ a.seq ≠ 0 then 1 else 0))
  ∧ (Leads .junctionOvertemp s fun t => t.recorder.frozen = true ∧ t.watchdog = some (s.watchdog.getD (s.time + 100000000)))
  ∧ ((s.byte (s.policy + 63)).getLsbD 0 = true →
      Happens .recorderAppend s (((s.log 3 0 0x7E 0 (s.num (s.policy + 32) 16)).log 3 0 0x7F 0 (s.num (s.policy + 48) 15)).hubWrite (s.policy + 63) 1 0))
  ∧ ((s.byte (s.policy + 63)).getLsbD 0 = false → Happens .recorderAppend s s)
  ∧ (∀ t, s.watchdog = some t → t ≤ s.time → Happens .hubWatchdog s (resetAll (fatalPackage s) true))
  ∧ (∀ i warm, (i, warm) ∈ [(Instr.coldReset, false), (Instr.warmReset, true)] → Leads i s fun t =>
      t.bootCount = s.bootCount + 1 ∧ t.waiting = [] ∧ t.folds = [] ∧ t.handles = []
      ∧ (t.boot = .recovery → t.cores = [] ∧ t.otab = 0 ∧ t.ptab = 0))
  ∧ (a.code = 0 → s.boot = .running → a.data.length = 32 → s.attest.leaf < 32768 → s.attest.top < 1024 →
      (a.flag = true → Leads .attestationRequest s fun t =>
        t.attest.leaf = s.attest.leaf + 1 ∧ t.attest.top = s.attest.top ∧ ∃ r, t.attest.report = some r ∧ r.nonce = a.data ∧ r.bootCount = s.bootCount)
      ∧ (a.flag = false → Leads .attestationRequest s fun t =>
        t.attest.top = s.attest.top + 1 ∧ t.attest.leaf = 0 ∧ t.attest.report = s.attest.report))
  ∧ (s.boot = .recovery → (s.portOf 0).up = true → (a.id = 0 ∨ a.id = 4) →
      let at' := 2 ^ 56 * (8 + a.id) + Config.bootRegion a.id (imageField a.data 4 1)
      Happens .recoveryExchange s (if imageOk s (imageField a.data 4 1) a.data = true
        then (programSpans (s.pokes at' a.data) a.id [(at', a.data.length)]).getD s else s))

/-- R13, R202, R350, Table 12.3, Table 23.5: what reset leaves. Memory and tags are zero, no core holds a context, every watermark is 128 and every
tile is EMPTY, every vault holds a room of 1.5 MiB, `TIME` and the descriptors are zero, no fold is valid, and the recorder holds nothing.
That a byte of a Cellar stack reads zero is the model's choice (log 6). -/
def Obligations.ResetState : Prop :=
  let r := State.reset
  (∀ a, r.byte a = 0 ∧ r.tagAt a = false) ∧ r.lines = [] ∧ r.writeQ = [] ∧ (∀ core, r.ctxOf core = none ∧ r.wm core 0 = 128 ∧ r.wm core 1 = 128)
  ∧ (∀ core n, r.tile core n = 0) ∧ (∀ v, r.roomSize v = 0x180000) ∧ r.time = 0 ∧ (∀ obj, r.desc obj = 0)
  ∧ (∀ f, (r.fold f).valid = false) ∧ (∀ h, (r.handle h).state = 0) ∧ r.recorder.next = 0 ∧ r.recorder.frozen = false

/-- The model's memory is in its canonical form at reset: addresses rise, and no listed byte is one that an unlisted address reads as. -/
def Obligations.MemoryCanonicalReset : Prop := Memory.wf State.reset.mem

/-- Every step of the machine keeps memory in its canonical form, from every state whose memory is in it; and every step keeps the entries of the
write queues at addresses that are multiples of 64 (R280), from every state where they are. -/
def Obligations.MemoryCanonicalKept : Prop :=
  (Keeps fun s => Memory.wf s.mem) ∧ Keeps fun s => ∀ q ∈ s.writeQ, q.addr % 64 = 0

/-- R60 and the encodings of every entry: the words of a well-formed operation, read in its slot with its extension word in the slot that it
names, are that operation again, with every operand. Operations that share their words are told apart by a staging word when they issue. -/
def Obligations.DecodeReadsEncode : Prop := ∀ (i : Instr) (sl : Slot) (lit : BitVec 3 → BitVec 24),
  i.slot = some sl → i.wf = true → (∀ x, i.extSlot = some x → lit x = i.ext) → decode sl lit i.encode = some i.canon

/-- R60, R61: a word that is read as an operation is a well-formed operation of its slot, and the words of that operation are the words that were
read: no two words of a slot are one operation, and every unused bit is checked. -/
def Obligations.EncodeWritesDecode : Prop := ∀ (sl : Slot) (lit : BitVec 3 → BitVec 24) (w : BitVec 24) (i : Instr),
  decode sl lit w = some i →
  i.wf = true ∧ i.slot = some sl ∧ i.canon = i ∧ i.encode = w ∧ ∀ x, i.extSlot = some x → lit x = i.ext

/-- R33, R60, Tables 3.14 to 3.18: words written out from their encodings are the operations they stand for; the first two and the bundle are the
example of Table 3.12. -/
def Obligations.SampleWords : Prop :=
  let none' := fun _ : BitVec 3 => (0 : BitVec 24)
  let bundle : List Byte := [0x00, 0x00, 0x00, 0x00, 0x02, 0x00, 0x80, 0x0A, 0x00, 0x00, 0x00, 0x37, 0x82, 0x04, 0x00, 0x00,
    0x00, 0x42, 0x30, 0x0C, 0x00, 0x00, 0x00, 0x00, 0x00, 0x00, 0x00, 0x00, 0x00, 0x40, 0x00, 0x00]
  let b : BitVec 256 := BitVec.ofNat 256 (ofBytes bundle)
  decode .ia none' 0x048237 = some (.add .ia false 8 8 0x37) ∧ decode .va none' 0x0C3042 = some (.vmul .va false 3 1 2)
  ∧ opAt b .ia = some (.add .ia false 8 8 0x37) ∧ opAt b .va = some (.vmul .va false 3 1 2) ∧ litBit b 7 = true ∧ guardOf b 3 = 1
  ∧ slotWord b 7 = 64 ∧ checkBundle 0 b = none
  ∧ decode .c none' 0x07FFFF = some (.br 0x3FFFF) ∧ decode .ib none' 0xDA5570 = some (.ld64 0x12 5 0x17 0)
  ∧ decode .cf none' 0x780000 = none ∧ decode .mx none' 0x180000 = none ∧ decode .xc none' 0x4C0000 = none ∧ decode .c none' 1 = none

namespace Sys2Proof.Claims

/-- The outcome `r` of a step is that of slot `sl`, which holds the operation `i`, issuing its part of the bundle in issue of the state `s`: where the
slot may not come to the bundle yet the machine only waits; where it comes, the operation executes if the guard that the slot read there holds,
unless its access must wait for one that a lagging slot has still to make (R271, R272), and the slot only issues if the guard does not hold. -/
def RunsSlot (s : State) (sl : Slot) (i : Instr) (r : Host.Outcome State Fault Refusal) : Prop :=
  (arriveSlot s sl = none → r = .next (markWaiting s).tick)
  ∧ ∀ t u, arriveSlot s sl = some t → t.cur = some u →
      (guardHolds u sl = true → heldUp t sl = false → r = exec i t) ∧ (guardHolds u sl = true → heldUp t sl = true → r = .next (markWaiting t).tick)
      ∧ (guardHolds u sl = false → r = .next (finishSlot sl t).tick)

/-- The words of a bundle hold the operation `i` in slot `sl`, not a literal. -/
def HoldsOp (b : BitVec 256) (sl : Slot) (i : Instr) : Prop :=
  litBit b sl.idx = false ∧ decode sl (fun k => slotWord b k.toNat) (slotWord b sl.idx) = some i

end Sys2Proof.Claims

/-- R38, R39, R41, R62, R72: a step issues what the bytes at the program counter hold. In a context with a bundle in issue, the first pending slot's
word decodes to the operation that the step executes where its guard holds; where it does not hold the slot only issues. In a context that reaches
its next bundle, the 32 bytes at its offset of its code object are fetched and checked, and its first slot's operation is executed. An input may
choose another slot of the bundle; while one slot's commit waits for room in a ring no other slot issues (R319). An event that is due is executed
with its arguments; that a race may be foreseen is how the model gives a read before its later operation its free value (log 84). Which slot comes
next is an input's choice (log 31), and that an access waits for what a lagging slot of its path has still to do is the model's way with R271 and
R272 (log 91). -/
def Obligations.StepRunsDecoded : Prop := ∀ (s : State) (c : Ctx) (i : Instr) (sl : Slot) (rest : List Slot),
  (∀ b, s.inputs = [] → settleAll s s.turn = s → s.cur = some c → c.mode = .run → c.doomed = none → c.fencing = [] → c.issue = some b → c.ringWait = none →
      b.pending = sl :: rest → HoldsOp b.bits sl i → RunsSlot s sl i (step s))
  ∧ (s.inputs = [] → settleAll s s.turn = s → s.cur = some c → c.mode = .run → c.doomed = none → c.fencing = [] → c.issue = none → c.parkAsked = false →
      (levelOf s.turn ≠ .u ∨ c.budget ≠ 0) → tierCheck s s.turn c.codeObj c.pc 32 0 = .ok () →
      portCheck s (whoOf s.turn c) none c.codeObj c.pc 32 false 0 = .ok () → flashIn s c.codeObj c.pc 32 0 = none →
      fillHeld s c.codeObj c.pc 32 0 = false →
      let s' := fillSpan (touch s c.codeObj c.pc 32 0) c.codeObj c.pc 32 0
      let b := BitVec.ofNat 256 (ofBytes (locBytes s' c.codeObj c.pc 32 0))
      checkBundle s.turn b = none → pendingOf b = sl :: rest → HoldsOp b sl i → RunsSlot (startBundle s' s.turn b) sl i (step s))
  ∧ (∀ b l, s.inputs = .slot sl :: l → s.cur = some c → c.mode = .run → c.doomed = none → c.fencing = [] → c.issue = some b → c.slip = [] →
      c.ringWait.all (· == sl) = true → b.awaits sl = true → b.together sl = [sl] → HoldsOp b.bits sl i →
      RunsSlot (({ s with inputs := l } : State).setCtx s.turn { c with issue := some { b with alone := true } }) sl i (step s))
  ∧ (∀ x l, s.inputs = .slot sl :: l → s.cur = some c → c.ringWait = some x → x ≠ sl →
      step s = .next { s with inputs := l, free := s.free + 1 })
  ∧ (∀ a l, s.inputs = .event i a :: l → i.slot = none → step s = exec i { s with inputs := l, args := a })
  ∧ (∀ n l, s.inputs = .elapse n :: l → step s = .next { s with inputs := l, time := s.time + n, free := s.free + 1 })
  ∧ (∀ n l, s.inputs = .turn n :: l → step s = .next { s with inputs := l, turn := n, free := s.free + 1 })
  ∧ (∀ n l, s.inputs = .pause n :: l → step s = .next { s with inputs := l, pause := n, free := s.free + 1 })
  ∧ (∀ o f n l, s.inputs = .foresee o f n :: l → step s = .next { s with
      inputs := l, free := s.free + 1
      foreseen := if s.acts.any Act.syncs = true then s.foreseen ++ [(o, f, n, s.acts.length)] else s.foreseen })

/-- No state stops the machine: every step answers a next state. -/
def Obligations.StepNeverStops : Prop := ∀ s : State, ∃ t, step s = .next t

/-- R4, R343: a byte that is written is read back, every other byte and the tag of every other block stay, and the tag of the block is cleared; runs
of bytes and little-endian numbers are read back as they were written. -/
def Sys2Proof.Claims.MemoryReadsBack : Prop := ∀ (s : State) (a x n v : Nat) (b : Byte) (l : List Byte),
  (s.poke a b).byte x = (if x = a then b else s.byte x)
  ∧ (s.poke a b).tagAt x = (s.tagAt x && decide (x / 16 ≠ a / 16))
  ∧ (s.pokes a l).bytes a l.length = l
  ∧ ((x < a ∨ a + l.length ≤ x) → (s.pokes a l).byte x = s.byte x)
  ∧ (v < 256 ^ n → (s.pokeNum a n v).num a n = v)

/-- R25, R38, R57 and Table 3.10: `p0` reads as 1 and `m0` as all ones whatever is in flight; the constants, the literals and the predicates as
integer sources. -/
def Obligations.SourceCodesRead : Prop := ∀ (s : State) (c : Ctx) (y : Slot),
  readP s c y 0 = true ∧ readM s c y 0 = BitVec.allOnes 512
  ∧ (∀ k : Nat, k < 8 → (readInt s c y (BitVec.ofNat 6 (0x38 + k))).toInt = [0, 1, 2, 4, 8, 16, 32, -1].getD k 0)
  ∧ (∀ k : Nat, k < 8 → (readInt s c y (BitVec.ofNat 6 (0x30 + k))).toInt = (slotWord c.bundle k).toInt)
  ∧ (∀ k : Nat, k < 4 → readInt s c y (BitVec.ofNat 6 (0x28 + k)) = if readP s c y k then 1 else 0)
  ∧ (∀ n : Nat, n < 32 → readInt s c y (BitVec.ofNat 6 n) = readS s c y n)

namespace Sys2Proof.Claims

/-- A result of fixed latency for register `s n`, issued by slot `y` at position `p`. -/
def inFlight (y : Slot) (n p lat : Nat) (v : Word) : Fly :=
  { slot := y, pos := p, due := p + lat, var := false, done := false, divider := false, dst := some (.s n, .word v (BitVec.allOnes 64)),
    ring := .none, pushed := false, flags := 0, amax := 0, amaxNan := false }

end Sys2Proof.Claims

/-- R44, R46: a slot reads the old value of a register before position n + L of its own write and the new one from there on; of two of its writes
the one that completes later remains, and the later-issued one where both complete at one position; another slot reads the new value after a
join that covers both slots at or after the write's position and its own. -/
def Obligations.ResultsBecomeVisible : Prop :=
  ∀ (s : State) (c : Ctx) (y z : Slot) (n p q lat lat' : Nat) (v w : Word), (∀ f ∈ c.fly, f.writes (.s n) = false) →
  let one := { c with fly := c.fly ++ [inFlight y n p lat v] }
  let two := { c with fly := c.fly ++ [inFlight y n p lat v, inFlight y n q lat' w] }
  (c.pos < p + lat → readS s one y n = sget 0 c.s n)
  ∧ (p + lat ≤ c.pos → readS s one y n = v)
  ∧ (p ≤ q → p + lat ≤ c.pos → q + lat' ≤ c.pos → readS s two y n = if p + lat ≤ q + lat' then w else v)
  ∧ (z ≠ y → p + 2 ≤ c.lastJoin y z → p + lat + 1 ≤ c.lastJoin y z → readS s one z n = v)

namespace Sys2Proof.Claims

/-- An operation with one destination, or none, changes nothing else: no memory, no tag, no other core, no accumulator, tile or engine, no system
register, no sticky register, no flag, no capability; of the registers, only `d` gets a new value in flight. -/
def KeepsRest (i : Instr) (d : Option Dst) : Prop := ∀ s c t, Issues s c → exec i s = .next t →
  (∀ a, t.byte a = s.byte a) ∧ t = { s with cores := t.cores, free := s.free + 1 }
  ∧ (∀ core, core ≠ s.turn → t.core core = s.core core)
  ∧ ∃ c', t.core s.turn = { s.core s.turn with ctx := some c' }
    ∧ c' = { c with fly := c'.fly, bA := c'.bA, bB := c'.bB, wA := c'.wA, wB := c'.wB, pc := c'.pc, pos := c'.pos, issue := c'.issue,
                    slip := c'.slip, lc0 := { c.lc0 with active := c'.lc0.active }, lc1 := { c.lc1 with active := c'.lc1.active } }
    ∧ ∀ D, (∀ n, D ≠ .lc n) → d ≠ some D → (c'.fly.filter (Fly.writes D)).map Fly.dst = (c.fly.filter (Fly.writes D)).map Fly.dst

end Sys2Proof.Claims

/-- The frame of the operations that give one result: the integer, field, division, predicate and FP32 operations, `bud.rd`, `time.rd`, the
staging writes, the reads and results of capabilities, `tt.rd` and `nop`. -/
def Sys2Proof.Claims.ResultsKeepRest : Prop := ∀ (u : IUnit) (x : Bool) (d dst : BitVec 5) (a b : BitVec 6) (p : BitVec 2) (k src xb : BitVec 4)
    (keep : BitVec 7) (need : BitVec 8) (h : Bool) (sl : Slot),
  let sd : Option Dst := if x then none else some (.s d.toNat)
  (∀ i ∈ [Instr.add u x d a b, .sub u x d a b, .mul u x d a b, .mulh u x d a b, .mulhu u x d a b, .div u x d a b, .divu u x d a b,
      .rem u x d a b, .remu u x d a b, .and u x d a b, .or u x d a b, .xor u x d a b, .andn u x d a b, .orn u x d a b, .xnor u x d a b,
      .shl u x d a b, .shr u x d a b, .sar u x d a b, .rotr u x d a b, .min u x d a b, .max u x d a b, .minu u x d a b, .maxu u x d a b,
      .clz u x d a, .ctz u x d a, .popc u x d a, .bswap u x d a, .bext u x d a b, .addS2 u x d a b, .addS3 u x d a b, .sext u x d a b,
      .zext u x d a b, .mov u x d a, .litHi u x d a b, .faddS x d a b, .fsubS x d a b, .fmulS x d a b, .ffmaS x d a b, .fminS x d a b,
      .fmaxS x d a b, .fcvtSI x d a, .fcvtSIU x d a, .fcvtIS x d a, .fcvtISU x d a, .fcvtISW x d a, .budRd x d, .timeRd x d], KeepsRest i sd)
  ∧ (∀ i ∈ [Instr.cmpEq u p a b, .cmpNe u p a b, .cmpLt u p a b, .cmpLtu u p a b, .cmpLe u p a b, .cmpLeu u p a b, .pand u p a b,
      .por u p a b, .pxor u p a b, .pnot u p a, .tstBit u p a b, .fcmpLtS p a b, .fcmpEqS p a b, .kcheck p src xb need],
      KeepsRest i (some (.p p.toNat)))
  ∧ (∀ i ∈ [Instr.bins u dst a b, .kgetObj dst src, .kgetBase dst src, .kgetLen dst src, .kgetRgt dst src, .ttRd a h dst],
      KeepsRest i (some (.s dst.toNat)))
  ∧ (∀ i ∈ [Instr.kmov k src, .kclr k, .kderive k src xb, .krestrict k src keep, .kmint k xb], KeepsRest i (some (.k k.toNat)))
  ∧ (∀ i ∈ [Instr.stg d a, .stgLo d a, .stgHi d a], KeepsRest i (some (.stage d.toNat)))
  ∧ KeepsRest (.nop sl) none

/-- The frame of the transfers: no memory, tag or other core changes; where the context goes on, its registers are those before, and only a call
has a new value in flight, for `s31`. -/
def Sys2Proof.Claims.TransfersKeepRest : Prop := ∀ (disp : BitVec 18) (src : BitVec 6) (i : Instr) (s t : State) (c : Ctx),
  i ∈ [Instr.br disp, .jmp src, .call disp, .callr src, .ret] → Issues s c → exec i s = .next t → c.reserved = [] → c.committing = false →
  (∀ a, t.byte a = s.byte a) ∧ t.tags = s.tags ∧ (∀ core, core ≠ s.turn → t.core core = s.core core)
  ∧ t = { s with cores := t.cores, tracked := t.tracked, queues := t.queues, recorder := t.recorder, free := s.free + 1 }
  ∧ ∀ c', t.ctxOf s.turn = some c' →
      c' = { c with fly := c'.fly, bA := c'.bA, bB := c'.bB, wA := c'.wA, wB := c'.wB, pc := c'.pc, pos := c'.pos, issue := c'.issue,
                      slip := c'.slip }
      ∧ ∀ D, ¬ (D = .s 31 ∧ (i = .call disp ∨ i = .callr src)) →
        (c'.fly.filter (Fly.writes D)).map Fly.dst = (c.fly.filter (Fly.writes D)).map Fly.dst

/-- The frames of the operations that give one result, and of the transfers. -/
def Obligations.ResultFrames : Prop := Claims.ResultsKeepRest ∧ Claims.TransfersKeepRest

namespace Sys2Proof.Claims

/-- Memory and its tags are those of another state. -/
def SameMemory (s t : State) : Prop := (∀ a, t.byte a = s.byte a) ∧ t.tags = s.tags

/-- The bytes in which an access to a span of an object may set AC (R346, R349): of each page that it touches, the highest byte of the page entry, at
the address that the walk of the object's tables gives. -/
def acBytes (s : State) (obj o n : Nat) : List Nat :=
  let e := s.seenObj obj 0
  if isLocal obj then [] else (pagesOf e.page o n).filterMap fun pg => (s.pageAddr e pg).map (· + 7)

/-- R349: touching a span changes no byte but the one with AC of the page entry of each page touched, and of it bit 5 alone, which becomes set where the
entry is present; of a span in one page it is set there. No tag changes but of those bytes' blocks, and of a local space nothing does. -/
def TouchSetsAc : Prop := ∀ (s : State) (obj o n a : Nat),
  let t := touch s obj o n 0
  (a ∉ acBytes s obj o n → t.byte a = s.byte a)
  ∧ (a ∈ acBytes s obj o n → t.byte a = s.byte a ∨ ((s.byte a).getLsbD 7 = true ∧ t.byte a = s.byte a ||| 0x20))
  ∧ (acBytes s obj o n = [a] → (s.byte a).getLsbD 7 = true → t.byte a = s.byte a ||| 0x20)
  ∧ ((∀ b ∈ acBytes s obj o n, b / 16 ≠ a / 16) → t.tagAt a = s.tagAt a)

/-- The frame of an operation that reads the units `units` of the object `obj`, as its capability and offset give them. -/
def LoadFrame (i : Instr) (span : State → Ctx → Nat × List (Nat × Nat)) : Prop := ∀ s t c,
  Issues s c → exec i s = .next t → (c.reserved = [] ∨ (t.ctxOf s.turn).isSome = true) → (∀ q ∈ s.writeQ, q.addr % 64 = 0) →
  let u := stateFor i s c
  let x := span u (ctxFor i c)
  (SameMemory s t ∨ SameMemory (unitsTouched x.1 x.2 u) t)
  ∧ (∀ core, core ≠ s.turn → t.core core = s.core core)
  ∧ t = { s with cores := t.cores, mem := t.mem, tags := t.tags, xlat := t.xlat, lines := t.lines, writeQ := t.writeQ, arbiter := t.arbiter,
                 acts := t.acts, pause := t.pause, tracked := t.tracked, queues := t.queues, recorder := t.recorder, free := s.free + 1 }

/-- The frame of an operation that holds a write of the span of `n` bytes from `o` of the object `obj`, while the porch has room. -/
def StoreFrame (i : Instr) (span : State → Ctx → Nat × Nat × Nat) : Prop := ∀ s t c,
  Issues s c → exec i s = .next t → c.spilling = false → entryCount c.porch + 2 ≤ 8192 → (c.reserved = [] ∨ (t.ctxOf s.turn).isSome = true) →
  let u := stateFor i s c
  let x := span u (ctxFor i c)
  (SameMemory s t ∨ SameMemory (unitsTouched x.1 [x.2] u) t)
  ∧ (∀ core, core ≠ s.turn → t.core core = s.core core)
  ∧ t = { s with cores := t.cores, mem := t.mem, tags := t.tags, writeQ := t.writeQ, xlat := t.xlat, tracked := t.tracked, queues := t.queues,
                 recorder := t.recorder, free := s.free + 1 }
  ∧ ∀ c', t.ctxOf s.turn = some c' → c'.s = c.s ∧ c'.p = c.p ∧ c'.k = c.k ∧ c'.m = c.m ∧ c'.stage = c.stage ∧ c'.flags = c.flags
      ∧ c'.fmt = c.fmt ∧ c'.vtype = c.vtype ∧ c'.vwin = c.vwin ∧ c'.vact = c.vact ∧ c'.fpc = c.fpc ∧ c'.hstat = c.hstat ∧ c'.pmt = c.pmt
      ∧ ∀ D, (∀ n, D ≠ .lc n) → (c'.fly.filter (Fly.writes D)).map Fly.dst = (c.fly.filter (Fly.writes D)).map Fly.dst

/-- The object of a capability and the offset in it of an operand's value. -/
def atOperand (s : State) (c : Ctx) (sl : Slot) (k : Nat) (v : Nat) : Nat × Nat := ((readK s c sl k).obj, (readK s c sl k).base + v)

end Sys2Proof.Claims

/-- The frame of the loads, `ldk` and `kld` included: no byte of memory changes but those with the AC bits of the page entries of the very bytes that
the load reads, and of them no bit but AC (R349); no tag of another block and no other core changes, nor any system register, fold or handle. A load
that waits, that goes on with units kept, or that ends its context by a fault changes none. A context that ends in a fault also gives up what its
commit has reserved. That the write queues hold bursts of 64 aligned bytes is an invariant (`MemoryCanonicalKept`). -/
def Obligations.LoadFrames : Prop := ∀ (r : BitVec 5) (k : BitVec 3) (o : BitVec 6) (cls : BitVec 4) (scope : BitVec 3) (kd : BitVec 4)
    (off : BitVec 11),
  Claims.TouchSetsAc
  ∧ (∀ x ∈ [(Instr.ldU8 r k o cls, 1), (.ldS8 r k o cls, 1), (.ldU16 r k o cls, 2), (.ldS16 r k o cls, 2), (.ldU32 r k o cls, 4), (.ldS32 r k o cls, 4),
      (.ld64 r k o cls, 8), (.ldAcq r k o scope, 8)],
      LoadFrame x.1 fun s c =>
        let at' := atOperand s c .ib k.toNat (readInt s c .ib o).toNat
        (at'.1, if (c.caught .ib).isSome then [] else elementUnits (decide ((readInt s c .ib o).toNat % x.2 = 0)) at'.2 x.2))
  ∧ LoadFrame (.ldk kd o cls) (fun s c =>
      let table := keyTable s c.paddock
      (table.1, [(table.2.1 + 16 * (readInt s c .ib o).toNat, 16)]))
  ∧ LoadFrame (.kld kd k off) fun s c =>
      let at' := atOperand s c .cf k.toNat (16 * off.toNat)
      (at'.1, [(at'.2, 16)])

/-- The frame of the scalar stores, `kst` and the reductions at their issue, while the porch has room: what they write is held, so that no byte
of memory changes but those with the AC bits of the page entries of the very bytes that will be written, and of them no bit but AC, and no register of
the context changes at all. -/
def Obligations.StoreFrames : Prop := ∀ (r : BitVec 5) (k : BitVec 3) (o : BitVec 6) (cls : BitVec 4) (scope xs : BitVec 3) (w : BitVec 2)
    (v : BitVec 6) (src : BitVec 4) (off : BitVec 11),
  (∀ x ∈ [(Instr.st8 r k o cls, 1), (.st16 r k o cls, 2), (.st32 r k o cls, 4), (.st64 r k o cls, 8), (.stRel r k o scope, 8)],
      StoreFrame x.1 fun s c =>
        let at' := atOperand s c .ib k.toNat (readInt s c .ib o).toNat
        (at'.1, at'.2, x.2))
  ∧ StoreFrame (.kst k src off) (fun s c =>
      let at' := atOperand s c .cf k.toNat (16 * off.toNat)
      (at'.1, at'.2, 16))
  ∧ ∀ i ∈ [Instr.redAdd k xs w scope cls v, .redInc k xs w scope cls, .redAnd k xs w scope cls v, .redOr k xs w scope cls v, .redXor k xs w scope cls v,
      .redSmin k xs w scope cls v, .redSmax k xs w scope cls v, .redUmin k xs w scope cls v, .redUmax k xs w scope cls v, .redFadd k xs w scope cls v],
      StoreFrame i fun s c =>
        let at' := atOperand s c .ib k.toNat (readS s c .ib 0).toNat
        (at'.1, at'.2, if w = 1 then 8 else 4)

/-- R226, the frame of the atomics with nothing held, no fence open, no record waiting, no pen serving and no line to write through: no other core
changes. Of a local space, no byte of memory changes but those of the word that the capability and the offset name, computed as the atomic computes
it. Of far memory, no byte changes but those, where they stand in memory and not in a line of the L2, and the bytes with AC and DI of the
entries of the pages that the word lies in. -/
def Obligations.AtomicFrames : Prop := ∀ (r : BitVec 5) (k xs : BitVec 3) (w : BitVec 2) (scope : BitVec 3) (cls : BitVec 4) (v : BitVec 6)
    (cmp : BitVec 5) (i : Instr) (s t : State) (c : Ctx),
  i ∈ [Instr.amoAdd r k xs w scope cls v, .amoInc r k xs w scope cls, .amoAnd r k xs w scope cls v, .amoOr r k xs w scope cls v,
    .amoXor r k xs w scope cls v, .amoSmin r k xs w scope cls v, .amoSmax r k xs w scope cls v, .amoUmin r k xs w scope cls v,
    .amoUmax r k xs w scope cls v, .amoSwap r k xs w scope cls v, .amoCas r k xs w scope cls v cmp, .amoFadd r k xs w scope cls v] →
  Issues s c → exec i s = .next t → c.caught .ib = none → c.porch = [] → c.fencing = [] → c.reserved = [] → s.waiting = [] → s.pens = [] →
  let u := stateFor i s c
  let at' := atOperand u (ctxFor i c) .ib k.toNat (readS u (ctxFor i c) .ib 0).toNat
  let n := if w = 1 then 8 else 4
  (isLocal at'.1 = true → (∀ l ∈ s.lines, l.place = .buffer → l.dirty = 0) →
    (∀ a, (a < spaceAddr at'.1 at'.2 ∨ spaceAddr at'.1 at'.2 + n ≤ a) → t.byte a = s.byte a) ∧ (∀ core, core ≠ s.turn → t.core core = s.core core))
  ∧ (isLocal at'.1 = false → (∀ l ∈ s.lines, l.place ≠ .buffer) → (∀ home, 0 < s.openWays home) → (∀ q ∈ s.writeQ, q.addr % 64 = 0) →
    let z := touch u at'.1 at'.2 n 0
    let page := fun o : Nat => pageFor z at'.1 (z.seenObj at'.1 0) (o / (z.seenObj at'.1 0).page * (z.seenObj at'.1 0).page) 0
    (∀ a, a ∉ acBytes u at'.1 at'.2 n → a ∉ acBytes z at'.1 at'.2 n →
      (∀ j, j < n → (page (at'.2 + j)).inLines = false → a ≠ (page (at'.2 + j)).base + (at'.2 + j) % (z.seenObj at'.1 0).page) → t.byte a = s.byte a)
    ∧ (∀ core, core ≠ s.turn → t.core core = s.core core))

/-- R201, R203, R343: writes that perform in a local space, while no record waits on a word and no line is to be written through, put each byte at its address, change no other byte,
clear the tags of the blocks that they touch, and change no core. -/
def Sys2Proof.Claims.LocalWritesPerform : Prop := ∀ (s : State) (obj o a : Nat) (l : List Byte), isLocal obj = true → s.waiting = [] →
  (∀ l ∈ s.lines, l.place = .buffer → l.dirty = 0) →
  let t := performBytes s obj 0 (atOffsets o l)
  (∀ i (h : i < l.length), t.byte (spaceAddr obj (o + i)) = l[i] ∧ t.tagAt (spaceAddr obj (o + i)) = false)
  ∧ ((∀ i, i < l.length → a ≠ spaceAddr obj (o + i)) → t.byte a = s.byte a)
  ∧ t.cores = s.cores ∧ t.waiting = s.waiting

/-- R4, R201, R203, R343: written bytes are read back, and nothing else changes. -/
def Obligations.WritesAreReadBack : Prop := Claims.MemoryReadsBack ∧ Claims.LocalWritesPerform

/-- R3, R232, R319, R389, R390, R393: taking a fatal event ends the context: its core is idle, its porch goes with it, the event stands in the recorder
and in the shepherd's queue, in the order in which events arose, from which the context's resumable events are gone; no memory and no other core
changes. Where a commit or spill of the context has performed some of its writes, the context goes on with the rest of them and nothing else. -/
def Obligations.FatalEventsEndTheContext : Prop := ∀ (s : State) (core sl : Nat) (c : Ctx) (f : FaultInfo),
  s.ctxOf core = some c → f.commit = false → f.kind < 0x20 → f.kind ≠ 0x13 → ¬ (s.recorder.frozen = true ∧ s.recorder.next = s.recorder.fseq) →
  let t := fatalIn s core sl f
  ((c.committing && c.porch.any (·.due)) = false → c.reserved = [] →
    t.ctxOf core = none ∧ (∀ a, t.byte a = s.byte a) ∧ t.tags = s.tags ∧ (∀ n, n ≠ core → t.core n = s.core n)
    ∧ t.recorder.next = s.recorder.next + 1
    ∧ ∃ e, sget [] t.queues (queueOf core) = queueIn e ((sget [] s.queues (queueOf core)).filter fun x =>
        !(x.resumable && x.unit == (if core < 288 then 0 else if core < 294 then 1 else 2) && x.core == (if core < 288 then core else clusterOf core)))
      ∧ e.kind = f.kind ∧ e.reason = f.reason ∧ e.slot = sl ∧ e.base = c.pc ∧ e.codeObj = c.codeObj ∧ e.paddock = c.paddock ∧ e.arg = f.arg
      ∧ (e.addrObj, e.addrOff) = f.addr.getD (0, 0) ∧ e.time = s.time)
  ∧ ((c.committing && c.porch.any (·.due)) = true → c.doomed = none →
    (∀ a, t.byte a = s.byte a) ∧ t.tags = s.tags ∧ t.queues = s.queues ∧ (∀ n, n ≠ core → t.core n = s.core n)
    ∧ t.recorder.next = s.recorder.next + 1
    ∧ ∃ c', t.ctxOf core = some c' ∧ c'.porch = c.porch ∧ c'.committing = true ∧ c'.doomed.isSome = true ∧ (t.core core).mx = [] ∧ (t.core core).cp = [])
  ∧ (∀ x y : TrapEv, queueIn x [y] = if x.time < y.time ∨ (x.time = y.time ∧ x.core < y.core) then [x, y] else [y, x])

/-- R14, R36 to R38, R47, R61, R62, R371: a bundle that passes its check has in each slot a literal with a zero guard or a well-formed operation of
the slot that its core's level allows, no two slots that write one register, and a header without reserved bits; a check that fails names the
lowest illegal slot. An operation of level S in a worker's bundle makes it illegal. -/
def Obligations.BundlesAreChecked : Prop := ∀ (core : Nat) (b : BitVec 256),
  (checkBundle core b = none →
    b.toNat % 2 ^ 20 = 0 ∧ bkind b = 0
    ∧ (∀ sl : Slot, (litBit b sl.idx = true ∧ guardOf b sl.idx = 0)
        ∨ (litBit b sl.idx = false ∧ ∃ i, opAt b sl = some i ∧ i.wf = true ∧ i.slot = some sl ∧ levelOk core i = true))
    ∧ ∀ (x y : Slot) (n : Name), x.idx < y.idx → n ∈ writesAt b x → n ∈ writesAt b y → False)
  ∧ (∀ k, checkBundle core b = some k → bkind b ≠ 0xF → k < 8 → ∃ sl : Slot, sl.idx = k ∧ (wordOk core b sl = false ∨ collides b sl = true)
      ∧ ∀ lower : Slot, lower.idx < k → wordOk core b lower = true ∧ collides b lower = false)
  ∧ (bkind b = 0xF → checkBundle core b = some 8)
  ∧ ∀ (sl : Slot) (i : Instr) (x y : BitVec 6) (kd kk xb : BitVec 4) (d : BitVec 5), litBit b sl.idx = false → opAt b sl = some i → core < 288 →
      i ∈ [Instr.rfe, .halt, .ctxResumeRun x y, .ctxResumePark x y, .ctxResumePre x y, .ctxKill x, .ctxKillRun x, .kmint kd xb, .xlatSync,
        .pgReform kk xb d] → checkBundle core b ≠ none

namespace Sys2Proof.Claims

/-- An access of path P of the party `p` on core `core`, at position `pos` of its program, of eight bytes. -/
def actOf (p : Party) (core id pos cls scope obj off : Nat) (held : Bool) (kind : ActKind) : Act :=
  { id := id, party := p, core := some core, prog := (0, pos, 2), path := .p, cls := cls, scope := scope, obj := obj, off := off, len := 8, held := held,
    tile := none, kind := kind }

/-- A `fence` of every class of the party `p`. -/
def fenceBy (p : Party) (core id pos scope : Nat) : Act :=
  { actOf p core id pos 16 scope 0 0 false (.fence 0xFFFF 0 false) with prog := (0, pos, 0), len := 0 }

end Sys2Proof.Claims

/-- R274 to R277, Table 15.4, Tests 15.1 and 15.2: the scopes of a worker, a shepherd and the housekeeper; a message between two contexts through a
release and an acquire, and two contexts that store and fence, are in a scope race on the locations that the pair touches exactly where the two
operations do not mutually include; outside a race a read is of the newest contents. -/
def Obligations.ScopesAndRaces : Prop := ∀ (c d : Nat) (A B : Party) (a b x f o sA sB : Nat) (s : State) (salt : Nat),
  (c < 288 → d < 288 → (inScope (some c) 0 (some d) = true ↔ d = c) ∧ (inScope (some c) 1 (some d) = true ↔ d / 4 = c / 4)
    ∧ (inScope (some c) 2 (some d) = true ↔ d / 48 = c / 48) ∧ (inScope (some c) 3 (some d) = true ↔ d / 144 = c / 144))
  ∧ (c < 288 → d < 6 → (inScope (some c) 2 (some (288 + d)) = true ↔ c / 48 = d) ∧ (inScope (some (288 + d)) 2 (some c) = true ↔ c / 48 = d)
    ∧ (inScope (some c) 3 (some (288 + d)) = true ↔ c / 144 = d / 3) ∧ (inScope (some (288 + d)) 3 (some c) = true ↔ c / 144 = d / 3)
    ∧ inScope (some c) 1 (some (288 + d)) = false ∧ inScope (some (288 + d)) 1 (some c) = false)
  ∧ (c < 295 → d < 295 → inScope (some c) 4 (some d) = true ∧ inScope (some c) 5 none = true ∧ inScope (some c) 4 none = false
    ∧ (inScope (some 294) 3 (some d) = true ↔ d = 294))
  ∧ (A ≠ B → a < 295 → b < 295 → x ≤ o → o < x + 8 → (o < f ∨ f + 8 ≤ o) →
      let both := inScope (some a) sA (some b) && inScope (some b) sB (some a)
      -- a message: A stores X and releases F, B acquires F and loads X
      let message := [actOf B b 3 1 0 0 c x false (.read false []), actOf B b 2 0 16 sB c f false (.read true [1]),
        actOf A a 1 1 16 sA c f true (.write true), actOf A a 0 0 0 0 c x true (.write false)]
      -- store buffering: A stores X, fences and loads F; B stores F, fences and loads X
      let buffering := [actOf B b 5 2 0 0 c x false (.read false []), actOf A a 4 2 0 0 c f false (.read false []), fenceBy B b 3 1 sB, fenceBy A a 2 1 sA,
        actOf B b 1 0 0 0 c f true (.write false), actOf A a 0 0 0 0 c x true (.write false)]
      racedAt message c o = !both
      ∧ (0 < sA → 0 < sB → racedAt buffering c o = !both)
      ∧ (s.acts = message → s.foreseen = [] → both = true → ∀ key, partyByte s c key o salt = locByte s c o salt))
end

