-- ==== Sys2Proof/Laws/Exec.lean ====
section
/-! SUPPORT. What `exec` calls for each instruction: one lemma for each arm, so that no proof unfolds the whole dispatch. -/

namespace Sys2Proof.Machine
open Sys2Proof

@[simp] theorem exec_nop sl (s : State) : exec (.nop sl) s = execNop sl s := rfl
@[simp] theorem exec_br disp (s : State) : exec (.br disp) s = execBr disp s := rfl
@[simp] theorem exec_jmp a0 (s : State) : exec (.jmp a0) s = execJmp a0 s := rfl
@[simp] theorem exec_call disp (s : State) : exec (.call disp) s = execCall disp s := rfl
@[simp] theorem exec_callr a0 (s : State) : exec (.callr a0) s = execCallr a0 s := rfl
@[simp] theorem exec_ret (s : State) : exec .ret s = execRet s := rfl
@[simp] theorem exec_loop l c e (s : State) : exec (.loop l c e) s = execLoop l c e s := rfl
@[simp] theorem exec_bktJmp c xs tdisp np (s : State) : exec (.bktJmp c xs tdisp np) s = execBktJmp c xs tdisp np s := rfl
@[simp] theorem exec_park xs mask (s : State) : exec (.park xs mask) s = execPark xs mask s := rfl
@[simp] theorem exec_exit (s : State) : exec .exit s = execExit s := rfl
@[simp] theorem exec_spawn k o p (s : State) : exec (.spawn k o p) s = execSpawn k o p s := rfl
@[simp] theorem exec_waitw k xs o cond w64 scope v (s : State) : exec (.waitw k xs o cond w64 scope v) s = execWaitw k xs o cond w64 scope v s := rfl
@[simp] theorem exec_wakew k xs o scope n (s : State) : exec (.wakew k xs o scope n) s = execWakew k xs o scope n s := rfl
@[simp] theorem exec_foldArrive fid (s : State) : exec (.foldArrive fid) s = execFoldArrive fid s := rfl
@[simp] theorem exec_foldWait fid (s : State) : exec (.foldWait fid) s = execFoldWait fid s := rfl
@[simp] theorem exec_foldSync fid (s : State) : exec (.foldSync fid) s = execFoldSync fid s := rfl
@[simp] theorem exec_foldBytes c fid (s : State) : exec (.foldBytes c fid) s = execFoldBytes c fid s := rfl
@[simp] theorem exec_whWait a0 (s : State) : exec (.whWait a0) s = execWhWait a0 s := rfl
@[simp] theorem exec_probe k w o l (s : State) : exec (.probe k w o l) s = execProbe k w o l s := rfl
@[simp] theorem exec_segMark (s : State) : exec .segMark s = execSegMark s := rfl
@[simp] theorem exec_fence scope xs cmask (s : State) : exec (.fence scope xs cmask) s = execFence scope xs cmask s := rfl
@[simp] theorem exec_fenceX scope paths (s : State) : exec (.fenceX scope paths) s = execFenceX scope paths s := rfl
@[simp] theorem exec_trap a code (s : State) : exec (.trap a code) s = execTrap a code s := rfl
@[simp] theorem exec_brk code (s : State) : exec (.brk code) s = execBrk code s := rfl
@[simp] theorem exec_rfe (s : State) : exec .rfe s = execRfe s := rfl
@[simp] theorem exec_ctxResumeRun a b (s : State) : exec (.ctxResumeRun a b) s = execCtxResumeRun a b s := rfl
@[simp] theorem exec_ctxResumePark a b (s : State) : exec (.ctxResumePark a b) s = execCtxResumePark a b s := rfl
@[simp] theorem exec_ctxResumePre a b (s : State) : exec (.ctxResumePre a b) s = execCtxResumePre a b s := rfl
@[simp] theorem exec_ctxKill a (s : State) : exec (.ctxKill a) s = execCtxKill a s := rfl
@[simp] theorem exec_ctxKillRun a (s : State) : exec (.ctxKillRun a) s = execCtxKillRun a s := rfl
@[simp] theorem exec_halt (s : State) : exec .halt s = execHalt s := rfl
@[simp] theorem exec_add u x d a b (s : State) : exec (.add u x d a b) s = execAdd u x d a b s := rfl
@[simp] theorem exec_sub u x d a b (s : State) : exec (.sub u x d a b) s = execSub u x d a b s := rfl
@[simp] theorem exec_mul u x d a b (s : State) : exec (.mul u x d a b) s = execMul u x d a b s := rfl
@[simp] theorem exec_mulh u x d a b (s : State) : exec (.mulh u x d a b) s = execMulh u x d a b s := rfl
@[simp] theorem exec_mulhu u x d a b (s : State) : exec (.mulhu u x d a b) s = execMulhu u x d a b s := rfl
@[simp] theorem exec_div u x d a b (s : State) : exec (.div u x d a b) s = execDiv u x d a b s := rfl
@[simp] theorem exec_divu u x d a b (s : State) : exec (.divu u x d a b) s = execDivu u x d a b s := rfl
@[simp] theorem exec_rem u x d a b (s : State) : exec (.rem u x d a b) s = execRem u x d a b s := rfl
@[simp] theorem exec_remu u x d a b (s : State) : exec (.remu u x d a b) s = execRemu u x d a b s := rfl
@[simp] theorem exec_and u x d a b (s : State) : exec (.and u x d a b) s = execAnd u x d a b s := rfl
@[simp] theorem exec_or u x d a b (s : State) : exec (.or u x d a b) s = execOr u x d a b s := rfl
@[simp] theorem exec_xor u x d a b (s : State) : exec (.xor u x d a b) s = execXor u x d a b s := rfl
@[simp] theorem exec_andn u x d a b (s : State) : exec (.andn u x d a b) s = execAndn u x d a b s := rfl
@[simp] theorem exec_orn u x d a b (s : State) : exec (.orn u x d a b) s = execOrn u x d a b s := rfl
@[simp] theorem exec_xnor u x d a b (s : State) : exec (.xnor u x d a b) s = execXnor u x d a b s := rfl
@[simp] theorem exec_shl u x d a b (s : State) : exec (.shl u x d a b) s = execShl u x d a b s := rfl
@[simp] theorem exec_shr u x d a b (s : State) : exec (.shr u x d a b) s = execShr u x d a b s := rfl
@[simp] theorem exec_sar u x d a b (s : State) : exec (.sar u x d a b) s = execSar u x d a b s := rfl
@[simp] theorem exec_rotr u x d a b (s : State) : exec (.rotr u x d a b) s = execRotr u x d a b s := rfl
@[simp] theorem exec_min u x d a b (s : State) : exec (.min u x d a b) s = execMin u x d a b s := rfl
@[simp] theorem exec_max u x d a b (s : State) : exec (.max u x d a b) s = execMax u x d a b s := rfl
@[simp] theorem exec_minu u x d a b (s : State) : exec (.minu u x d a b) s = execMinu u x d a b s := rfl
@[simp] theorem exec_maxu u x d a b (s : State) : exec (.maxu u x d a b) s = execMaxu u x d a b s := rfl
@[simp] theorem exec_clz u x d a (s : State) : exec (.clz u x d a) s = execClz u x d a s := rfl
@[simp] theorem exec_ctz u x d a (s : State) : exec (.ctz u x d a) s = execCtz u x d a s := rfl
@[simp] theorem exec_popc u x d a (s : State) : exec (.popc u x d a) s = execPopc u x d a s := rfl
@[simp] theorem exec_bswap u x d a (s : State) : exec (.bswap u x d a) s = execBswap u x d a s := rfl
@[simp] theorem exec_bext u x d a b (s : State) : exec (.bext u x d a b) s = execBext u x d a b s := rfl
@[simp] theorem exec_bins u d a b (s : State) : exec (.bins u d a b) s = execBins u d a b s := rfl
@[simp] theorem exec_addS2 u x d a b (s : State) : exec (.addS2 u x d a b) s = execAddS2 u x d a b s := rfl
@[simp] theorem exec_addS3 u x d a b (s : State) : exec (.addS3 u x d a b) s = execAddS3 u x d a b s := rfl
@[simp] theorem exec_sext u x d a b (s : State) : exec (.sext u x d a b) s = execSext u x d a b s := rfl
@[simp] theorem exec_zext u x d a b (s : State) : exec (.zext u x d a b) s = execZext u x d a b s := rfl
@[simp] theorem exec_mov u x d a (s : State) : exec (.mov u x d a) s = execMov u x d a s := rfl
@[simp] theorem exec_litHi u x d a b (s : State) : exec (.litHi u x d a b) s = execLitHi u x d a b s := rfl
@[simp] theorem exec_cmpEq u p a b (s : State) : exec (.cmpEq u p a b) s = execCmpEq u p a b s := rfl
@[simp] theorem exec_cmpNe u p a b (s : State) : exec (.cmpNe u p a b) s = execCmpNe u p a b s := rfl
@[simp] theorem exec_cmpLt u p a b (s : State) : exec (.cmpLt u p a b) s = execCmpLt u p a b s := rfl
@[simp] theorem exec_cmpLtu u p a b (s : State) : exec (.cmpLtu u p a b) s = execCmpLtu u p a b s := rfl
@[simp] theorem exec_cmpLe u p a b (s : State) : exec (.cmpLe u p a b) s = execCmpLe u p a b s := rfl
@[simp] theorem exec_cmpLeu u p a b (s : State) : exec (.cmpLeu u p a b) s = execCmpLeu u p a b s := rfl
@[simp] theorem exec_pand u p a b (s : State) : exec (.pand u p a b) s = execPand u p a b s := rfl
@[simp] theorem exec_por u p a b (s : State) : exec (.por u p a b) s = execPor u p a b s := rfl
@[simp] theorem exec_pxor u p a b (s : State) : exec (.pxor u p a b) s = execPxor u p a b s := rfl
@[simp] theorem exec_pnot u p a (s : State) : exec (.pnot u p a) s = execPnot u p a s := rfl
@[simp] theorem exec_tstBit u p a b (s : State) : exec (.tstBit u p a b) s = execTstBit u p a b s := rfl
@[simp] theorem exec_faddS x d a b (s : State) : exec (.faddS x d a b) s = execFaddS x d a b s := rfl
@[simp] theorem exec_fsubS x d a b (s : State) : exec (.fsubS x d a b) s = execFsubS x d a b s := rfl
@[simp] theorem exec_fmulS x d a b (s : State) : exec (.fmulS x d a b) s = execFmulS x d a b s := rfl
@[simp] theorem exec_ffmaS x d a b (s : State) : exec (.ffmaS x d a b) s = execFfmaS x d a b s := rfl
@[simp] theorem exec_fminS x d a b (s : State) : exec (.fminS x d a b) s = execFminS x d a b s := rfl
@[simp] theorem exec_fmaxS x d a b (s : State) : exec (.fmaxS x d a b) s = execFmaxS x d a b s := rfl
@[simp] theorem exec_fcmpLtS p a b (s : State) : exec (.fcmpLtS p a b) s = execFcmpLtS p a b s := rfl
@[simp] theorem exec_fcmpEqS p a b (s : State) : exec (.fcmpEqS p a b) s = execFcmpEqS p a b s := rfl
@[simp] theorem exec_fcvtSI x d a (s : State) : exec (.fcvtSI x d a) s = execFcvtSI x d a s := rfl
@[simp] theorem exec_fcvtSIU x d a (s : State) : exec (.fcvtSIU x d a) s = execFcvtSIU x d a s := rfl
@[simp] theorem exec_fcvtIS x d a (s : State) : exec (.fcvtIS x d a) s = execFcvtIS x d a s := rfl
@[simp] theorem exec_fcvtISU x d a (s : State) : exec (.fcvtISU x d a) s = execFcvtISU x d a s := rfl
@[simp] theorem exec_fcvtISW x d a (s : State) : exec (.fcvtISW x d a) s = execFcvtISW x d a s := rfl
@[simp] theorem exec_sysRd x d a (s : State) : exec (.sysRd x d a) s = execSysRd x d a s := rfl
@[simp] theorem exec_sysWr a b (s : State) : exec (.sysWr a b) s = execSysWr a b s := rfl
@[simp] theorem exec_budRd x d (s : State) : exec (.budRd x d) s = execBudRd x d s := rfl
@[simp] theorem exec_timeRd x d (s : State) : exec (.timeRd x d) s = execTimeRd x d s := rfl
@[simp] theorem exec_ldU8 r k o c (s : State) : exec (.ldU8 r k o c) s = execLdU8 r k o c s := rfl
@[simp] theorem exec_ldS8 r k o c (s : State) : exec (.ldS8 r k o c) s = execLdS8 r k o c s := rfl
@[simp] theorem exec_ldU16 r k o c (s : State) : exec (.ldU16 r k o c) s = execLdU16 r k o c s := rfl
@[simp] theorem exec_ldS16 r k o c (s : State) : exec (.ldS16 r k o c) s = execLdS16 r k o c s := rfl
@[simp] theorem exec_ldU32 r k o c (s : State) : exec (.ldU32 r k o c) s = execLdU32 r k o c s := rfl
@[simp] theorem exec_ldS32 r k o c (s : State) : exec (.ldS32 r k o c) s = execLdS32 r k o c s := rfl
@[simp] theorem exec_ld64 r k o c (s : State) : exec (.ld64 r k o c) s = execLd64 r k o c s := rfl
@[simp] theorem exec_ldAcq r k o scope (s : State) : exec (.ldAcq r k o scope) s = execLdAcq r k o scope s := rfl
@[simp] theorem exec_st8 r k o c (s : State) : exec (.st8 r k o c) s = execSt8 r k o c s := rfl
@[simp] theorem exec_st16 r k o c (s : State) : exec (.st16 r k o c) s = execSt16 r k o c s := rfl
@[simp] theorem exec_st32 r k o c (s : State) : exec (.st32 r k o c) s = execSt32 r k o c s := rfl
@[simp] theorem exec_st64 r k o c (s : State) : exec (.st64 r k o c) s = execSt64 r k o c s := rfl
@[simp] theorem exec_stRel r k o scope (s : State) : exec (.stRel r k o scope) s = execStRel r k o scope s := rfl
@[simp] theorem exec_ldk kd o c (s : State) : exec (.ldk kd o c) s = execLdk kd o c s := rfl
@[simp] theorem exec_amoAdd r k xs w scope c v (s : State) : exec (.amoAdd r k xs w scope c v) s = execAmoAdd r k xs w scope c v s := rfl
@[simp] theorem exec_amoInc r k xs w scope c (s : State) : exec (.amoInc r k xs w scope c) s = execAmoInc r k xs w scope c s := rfl
@[simp] theorem exec_amoAnd r k xs w scope c v (s : State) : exec (.amoAnd r k xs w scope c v) s = execAmoAnd r k xs w scope c v s := rfl
@[simp] theorem exec_amoOr r k xs w scope c v (s : State) : exec (.amoOr r k xs w scope c v) s = execAmoOr r k xs w scope c v s := rfl
@[simp] theorem exec_amoXor r k xs w scope c v (s : State) : exec (.amoXor r k xs w scope c v) s = execAmoXor r k xs w scope c v s := rfl
@[simp] theorem exec_amoSmin r k xs w scope c v (s : State) : exec (.amoSmin r k xs w scope c v) s = execAmoSmin r k xs w scope c v s := rfl
@[simp] theorem exec_amoSmax r k xs w scope c v (s : State) : exec (.amoSmax r k xs w scope c v) s = execAmoSmax r k xs w scope c v s := rfl
@[simp] theorem exec_amoUmin r k xs w scope c v (s : State) : exec (.amoUmin r k xs w scope c v) s = execAmoUmin r k xs w scope c v s := rfl
@[simp] theorem exec_amoUmax r k xs w scope c v (s : State) : exec (.amoUmax r k xs w scope c v) s = execAmoUmax r k xs w scope c v s := rfl
@[simp] theorem exec_amoSwap r k xs w scope c v (s : State) : exec (.amoSwap r k xs w scope c v) s = execAmoSwap r k xs w scope c v s := rfl
@[simp] theorem exec_amoCas r k xs w scope c v cmp (s : State) : exec (.amoCas r k xs w scope c v cmp) s = execAmoCas r k xs w scope c v cmp s := rfl
@[simp] theorem exec_amoFadd r k xs w scope c v (s : State) : exec (.amoFadd r k xs w scope c v) s = execAmoFadd r k xs w scope c v s := rfl
@[simp] theorem exec_redAdd k xs w scope c v (s : State) : exec (.redAdd k xs w scope c v) s = execRedAdd k xs w scope c v s := rfl
@[simp] theorem exec_redInc k xs w scope c (s : State) : exec (.redInc k xs w scope c) s = execRedInc k xs w scope c s := rfl
@[simp] theorem exec_redAnd k xs w scope c v (s : State) : exec (.redAnd k xs w scope c v) s = execRedAnd k xs w scope c v s := rfl
@[simp] theorem exec_redOr k xs w scope c v (s : State) : exec (.redOr k xs w scope c v) s = execRedOr k xs w scope c v s := rfl
@[simp] theorem exec_redXor k xs w scope c v (s : State) : exec (.redXor k xs w scope c v) s = execRedXor k xs w scope c v s := rfl
@[simp] theorem exec_redSmin k xs w scope c v (s : State) : exec (.redSmin k xs w scope c v) s = execRedSmin k xs w scope c v s := rfl
@[simp] theorem exec_redSmax k xs w scope c v (s : State) : exec (.redSmax k xs w scope c v) s = execRedSmax k xs w scope c v s := rfl
@[simp] theorem exec_redUmin k xs w scope c v (s : State) : exec (.redUmin k xs w scope c v) s = execRedUmin k xs w scope c v s := rfl
@[simp] theorem exec_redUmax k xs w scope c v (s : State) : exec (.redUmax k xs w scope c v) s = execRedUmax k xs w scope c v s := rfl
@[simp] theorem exec_redFadd k xs w scope c v (s : State) : exec (.redFadd k xs w scope c v) s = execRedFadd k xs w scope c v s := rfl
@[simp] theorem exec_vadd u x d a b (s : State) : exec (.vadd u x d a b) s = execVadd u x d a b s := rfl
@[simp] theorem exec_vsub u x d a b (s : State) : exec (.vsub u x d a b) s = execVsub u x d a b s := rfl
@[simp] theorem exec_vmul u x d a b (s : State) : exec (.vmul u x d a b) s = execVmul u x d a b s := rfl
@[simp] theorem exec_vfma u x d a b (s : State) : exec (.vfma u x d a b) s = execVfma u x d a b s := rfl
@[simp] theorem exec_vfms u x d a b (s : State) : exec (.vfms u x d a b) s = execVfms u x d a b s := rfl
@[simp] theorem exec_vfnma u x d a b (s : State) : exec (.vfnma u x d a b) s = execVfnma u x d a b s := rfl
@[simp] theorem exec_vmin u x d a b (s : State) : exec (.vmin u x d a b) s = execVmin u x d a b s := rfl
@[simp] theorem exec_vmax u x d a b (s : State) : exec (.vmax u x d a b) s = execVmax u x d a b s := rfl
@[simp] theorem exec_vabs u x d a (s : State) : exec (.vabs u x d a) s = execVabs u x d a s := rfl
@[simp] theorem exec_vneg u x d a (s : State) : exec (.vneg u x d a) s = execVneg u x d a s := rfl
@[simp] theorem exec_vmov u x d a (s : State) : exec (.vmov u x d a) s = execVmov u x d a s := rfl
@[simp] theorem exec_vand u x d a b (s : State) : exec (.vand u x d a b) s = execVand u x d a b s := rfl
@[simp] theorem exec_vor u x d a b (s : State) : exec (.vor u x d a b) s = execVor u x d a b s := rfl
@[simp] theorem exec_vxor u x d a b (s : State) : exec (.vxor u x d a b) s = execVxor u x d a b s := rfl
@[simp] theorem exec_vnot u x d a (s : State) : exec (.vnot u x d a) s = execVnot u x d a s := rfl
@[simp] theorem exec_vshl u x d a b (s : State) : exec (.vshl u x d a b) s = execVshl u x d a b s := rfl
@[simp] theorem exec_vshr u x d a b (s : State) : exec (.vshr u x d a b) s = execVshr u x d a b s := rfl
@[simp] theorem exec_vsar u x d a b (s : State) : exec (.vsar u x d a b) s = execVsar u x d a b s := rfl
@[simp] theorem exec_vcmpEq u m a b (s : State) : exec (.vcmpEq u m a b) s = execVcmpEq u m a b s := rfl
@[simp] theorem exec_vcmpNe u m a b (s : State) : exec (.vcmpNe u m a b) s = execVcmpNe u m a b s := rfl
@[simp] theorem exec_vcmpLt u m a b (s : State) : exec (.vcmpLt u m a b) s = execVcmpLt u m a b s := rfl
@[simp] theorem exec_vcmpLe u m a b (s : State) : exec (.vcmpLe u m a b) s = execVcmpLe u m a b s := rfl
@[simp] theorem exec_vsel u x d a b (s : State) : exec (.vsel u x d a b) s = execVsel u x d a b s := rfl
@[simp] theorem exec_vcvtTo u x d a t q (s : State) : exec (.vcvtTo u x d a t q) s = execVcvtTo u x d a t q s := rfl
@[simp] theorem exec_vcvtFrom u x d a t q (s : State) : exec (.vcvtFrom u x d a t q) s = execVcvtFrom u x d a t q s := rfl
@[simp] theorem exec_vcvtSc u x d a a0 g q (s : State) : exec (.vcvtSc u x d a a0 g q) s = execVcvtSc u x d a a0 g q s := rfl
@[simp] theorem exec_vredAdd u x d a b (s : State) : exec (.vredAdd u x d a b) s = execVredAdd u x d a b s := rfl
@[simp] theorem exec_vredMax u x d a b (s : State) : exec (.vredMax u x d a b) s = execVredMax u x d a b s := rfl
@[simp] theorem exec_vredMin u x d a b (s : State) : exec (.vredMin u x d a b) s = execVredMin u x d a b s := rfl
@[simp] theorem exec_vscanAdd u x d a b (s : State) : exec (.vscanAdd u x d a b) s = execVscanAdd u x d a b s := rfl
@[simp] theorem exec_vbcast u x d a b (s : State) : exec (.vbcast u x d a b) s = execVbcast u x d a b s := rfl
@[simp] theorem exec_vext u d a b (s : State) : exec (.vext u d a b) s = execVext u d a b s := rfl
@[simp] theorem exec_vperm u x d a b (s : State) : exec (.vperm u x d a b) s = execVperm u x d a b s := rfl
@[simp] theorem exec_vrot u x d a b (s : State) : exec (.vrot u x d a b) s = execVrot u x d a b s := rfl
@[simp] theorem exec_vpart u x d a xs cv msk cnt (s : State) : exec (.vpart u x d a xs cv msk cnt) s = execVpart u x d a xs cv msk cnt s := rfl
@[simp] theorem exec_vld u x v o k c (s : State) : exec (.vld u x v o k c) s = execVld u x v o k c s := rfl
@[simp] theorem exec_vst u v o k c (s : State) : exec (.vst u v o k c) s = execVst u v o k c s := rfl
@[simp] theorem exec_vgath u x v i k c (s : State) : exec (.vgath u x v i k c) s = execVgath u x v i k c s := rfl
@[simp] theorem exec_vscat u v i k c (s : State) : exec (.vscat u v i k c) s = execVscat u v i k c s := rfl
@[simp] theorem exec_vlut u x d a q (s : State) : exec (.vlut u x d a q) s = execVlut u x d a q s := rfl
@[simp] theorem exec_vmulhi x d a b (s : State) : exec (.vmulhi x d a b) s = execVmulhi x d a b s := rfl
@[simp] theorem exec_vdot4 x d a b (s : State) : exec (.vdot4 x d a b) s = execVdot4 x d a b s := rfl
@[simp] theorem exec_vamax x d a b (s : State) : exec (.vamax x d a b) s = execVamax x d a b s := rfl
@[simp] theorem exec_vexp2 x d a (s : State) : exec (.vexp2 x d a) s = execVexp2 x d a s := rfl
@[simp] theorem exec_vlog2 x d a (s : State) : exec (.vlog2 x d a) s = execVlog2 x d a s := rfl
@[simp] theorem exec_vrcp x d a (s : State) : exec (.vrcp x d a) s = execVrcp x d a s := rfl
@[simp] theorem exec_vrsqrt x d a (s : State) : exec (.vrsqrt x d a) s = execVrsqrt x d a s := rfl
@[simp] theorem exec_vsqrt x d a (s : State) : exec (.vsqrt x d a) s = execVsqrt x d a s := rfl
@[simp] theorem exec_vtanh x d a (s : State) : exec (.vtanh x d a) s = execVtanh x d a s := rfl
@[simp] theorem exec_verf x d a (s : State) : exec (.verf x d a) s = execVerf x d a s := rfl
@[simp] theorem exec_vsigm x d a (s : State) : exec (.vsigm x d a) s = execVsigm x d a s := rfl
@[simp] theorem exec_vdiv x d a b (s : State) : exec (.vdiv x d a b) s = execVdiv x d a b s := rfl
@[simp] theorem exec_vfloor x d a (s : State) : exec (.vfloor x d a) s = execVfloor x d a s := rfl
@[simp] theorem exec_mma a b n z tb a0 (s : State) : exec (.mma a b n z tb a0) s = execMma a b n z tb a0 s := rfl
@[simp] theorem exec_maccClr n r c (s : State) : exec (.maccClr n r c) s = execMaccClr n r c s := rfl
@[simp] theorem exec_maccLd t n r (s : State) : exec (.maccLd t n r) s = execMaccLd t n r s := rfl
@[simp] theorem exec_maccSt t n r (s : State) : exec (.maccSt t n r) s = execMaccSt t n r s := rfl
@[simp] theorem exec_mcancel m (s : State) : exec (.mcancel m) s = execMcancel m s := rfl
@[simp] theorem exec_cpFill t k xb a c (s : State) : exec (.cpFill t k xb a c) s = execCpFill t k xb a c s := rfl
@[simp] theorem exec_cpDrain t k xb a c (s : State) : exec (.cpDrain t k xb a c) s = execCpDrain t k xb a c s := rfl
@[simp] theorem exec_cpGath t k xb c (s : State) : exec (.cpGath t k xb c) s = execCpGath t k xb c s := rfl
@[simp] theorem exec_cpScat t k xb c (s : State) : exec (.cpScat t k xb c) s = execCpScat t k xb c s := rfl
@[simp] theorem exec_cpBcst t k xb c (s : State) : exec (.cpBcst t k xb c) s = execCpBcst t k xb c s := rfl
@[simp] theorem exec_cpRedFadd t k xb c (s : State) : exec (.cpRedFadd t k xb c) s = execCpRedFadd t k xb c s := rfl
@[simp] theorem exec_cpRedBf2Add t k xb c (s : State) : exec (.cpRedBf2Add t k xb c) s = execCpRedBf2Add t k xb c s := rfl
@[simp] theorem exec_cpRedIntAdd t k xb c (s : State) : exec (.cpRedIntAdd t k xb c) s = execCpRedIntAdd t k xb c s := rfl
@[simp] theorem exec_cpRedSmax t k xb c (s : State) : exec (.cpRedSmax t k xb c) s = execCpRedSmax t k xb c s := rfl
@[simp] theorem exec_cpRedUmax t k xb c (s : State) : exec (.cpRedUmax t k xb c) s = execCpRedUmax t k xb c s := rfl
@[simp] theorem exec_cpSelr t k xb c (s : State) : exec (.cpSelr t k xb c) s = execCpSelr t k xb c s := rfl
@[simp] theorem exec_cpSelc t k xb c (s : State) : exec (.cpSelc t k xb c) s = execCpSelc t k xb c s := rfl
@[simp] theorem exec_cpRmaPut t k xb c (s : State) : exec (.cpRmaPut t k xb c) s = execCpRmaPut t k xb c s := rfl
@[simp] theorem exec_cpRmaGet t k xb c (s : State) : exec (.cpRmaGet t k xb c) s = execCpRmaGet t k xb c s := rfl
@[simp] theorem exec_cpRamo t k xb c (s : State) : exec (.cpRamo t k xb c) s = execCpRamo t k xb c s := rfl
@[simp] theorem exec_cpGdrain t k xb c (s : State) : exec (.cpGdrain t k xb c) s = execCpGdrain t k xb c s := rfl
@[simp] theorem exec_cpPmtGrant k xb c (s : State) : exec (.cpPmtGrant k xb c) s = execCpPmtGrant k xb c s := rfl
@[simp] theorem exec_cpPmtTake k xb c (s : State) : exec (.cpPmtTake k xb c) s = execCpPmtTake k xb c s := rfl
@[simp] theorem exec_cpCancel t (s : State) : exec (.cpCancel t) s = execCpCancel t s := rfl
@[simp] theorem exec_cpCancelAll (s : State) : exec .cpCancelAll s = execCpCancelAll s := rfl
@[simp] theorem exec_whFetchPred a0 (s : State) : exec (.whFetchPred a0) s = execWhFetchPred a0 s := rfl
@[simp] theorem exec_whFetchDem a0 (s : State) : exec (.whFetchDem a0) s = execWhFetchDem a0 s := rfl
@[simp] theorem exec_whDrop a0 (s : State) : exec (.whDrop a0) s = execWhDrop a0 s := rfl
@[simp] theorem exec_whPin a0 (s : State) : exec (.whPin a0) s = execWhPin a0 s := rfl
@[simp] theorem exec_whUnpin a0 (s : State) : exec (.whUnpin a0) s = execWhUnpin a0 s := rfl
@[simp] theorem exec_whQry a0 (s : State) : exec (.whQry a0) s = execWhQry a0 s := rfl
@[simp] theorem exec_stg r a0 (s : State) : exec (.stg r a0) s = execStg r a0 s := rfl
@[simp] theorem exec_stgLo r a0 (s : State) : exec (.stgLo r a0) s = execStgLo r a0 s := rfl
@[simp] theorem exec_stgHi r a0 (s : State) : exec (.stgHi r a0) s = execStgHi r a0 s := rfl
@[simp] theorem exec_ttDef t ts k (s : State) : exec (.ttDef t ts k) s = execTtDef t ts k s := rfl
@[simp] theorem exec_ttFree t (s : State) : exec (.ttFree t) s = execTtFree t s := rfl
@[simp] theorem exec_ttBind t ts (s : State) : exec (.ttBind t ts) s = execTtBind t ts s := rfl
@[simp] theorem exec_ttUnbind t (s : State) : exec (.ttUnbind t) s = execTtUnbind t s := rfl
@[simp] theorem exec_ttMark t fid (s : State) : exec (.ttMark t fid) s = execTtMark t fid s := rfl
@[simp] theorem exec_ttMarkWait t fid (s : State) : exec (.ttMarkWait t fid) s = execTtMarkWait t fid s := rfl
@[simp] theorem exec_ttMarkNofold t (s : State) : exec (.ttMarkNofold t) s = execTtMarkNofold t s := rfl
@[simp] theorem exec_ttRd t h d (s : State) : exec (.ttRd t h d) s = execTtRd t h d s := rfl
@[simp] theorem exec_fmtSet scm ofmt accf bf af (s : State) : exec (.fmtSet scm ofmt accf bf af) s = execFmtSet scm ofmt accf bf af s := rfl
@[simp] theorem exec_vtSet t (s : State) : exec (.vtSet t) s = execVtSet t s := rfl
@[simp] theorem exec_vwinSet b q (s : State) : exec (.vwinSet b q) s = execVwinSet b q s := rfl
@[simp] theorem exec_vactSet m (s : State) : exec (.vactSet m) s = execVactSet m s := rfl
@[simp] theorem exec_fpcSet wf wc fl so ws st rm (s : State) : exec (.fpcSet wf wc fl so ws st rm) s = execFpcSet wf wc fl so ws st rm s := rfl
@[simp] theorem exec_fpcSetC so ws st rm (s : State) : exec (.fpcSetC so ws st rm) s = execFpcSetC so ws st rm s := rfl
@[simp] theorem exec_fpcSetF fl (s : State) : exec (.fpcSetF fl) s = execFpcSetF fl s := rfl
@[simp] theorem exec_lendMx b (s : State) : exec (.lendMx b) s = execLendMx b s := rfl
@[simp] theorem exec_lendVec b (s : State) : exec (.lendVec b) s = execLendVec b s := rfl
@[simp] theorem exec_phase k t (s : State) : exec (.phase k t) s = execPhase k t s := rfl
@[simp] theorem exec_amaxClr (s : State) : exec .amaxClr s = execAmaxClr s := rfl
@[simp] theorem exec_vlutLd k c blk (s : State) : exec (.vlutLd k c blk) s = execVlutLd k c blk s := rfl
@[simp] theorem exec_kmov d a0 (s : State) : exec (.kmov d a0) s = execKmov d a0 s := rfl
@[simp] theorem exec_kderive d a0 xb (s : State) : exec (.kderive d a0 xb) s = execKderive d a0 xb s := rfl
@[simp] theorem exec_krestrict d a0 keep (s : State) : exec (.krestrict d a0 keep) s = execKrestrict d a0 keep s := rfl
@[simp] theorem exec_kgetObj d a0 (s : State) : exec (.kgetObj d a0) s = execKgetObj d a0 s := rfl
@[simp] theorem exec_kgetBase d a0 (s : State) : exec (.kgetBase d a0) s = execKgetBase d a0 s := rfl
@[simp] theorem exec_kgetLen d a0 (s : State) : exec (.kgetLen d a0) s = execKgetLen d a0 s := rfl
@[simp] theorem exec_kgetRgt d a0 (s : State) : exec (.kgetRgt d a0) s = execKgetRgt d a0 s := rfl
@[simp] theorem exec_kcheck p a0 xb need (s : State) : exec (.kcheck p a0 xb need) s = execKcheck p a0 xb need s := rfl
@[simp] theorem exec_kclr d (s : State) : exec (.kclr d) s = execKclr d s := rfl
@[simp] theorem exec_kst k a0 o (s : State) : exec (.kst k a0 o) s = execKst k a0 o s := rfl
@[simp] theorem exec_kld d k o (s : State) : exec (.kld d k o) s = execKld d k o s := rfl
@[simp] theorem exec_kmint d xb (s : State) : exec (.kmint d xb) s = execKmint d xb s := rfl
@[simp] theorem exec_xlatSync (s : State) : exec .xlatSync s = execXlatSync s := rfl
@[simp] theorem exec_pgReform k xb d (s : State) : exec (.pgReform k xb d) s = execPgReform k xb d s := rfl
@[simp] theorem exec_hresetWrite (s : State) : exec .hresetWrite s = execHresetWrite s := rfl
@[simp] theorem exec_foldloWrite (s : State) : exec .foldloWrite s = execFoldloWrite s := rfl
@[simp] theorem exec_foldhiWrite (s : State) : exec .foldhiWrite s = execFoldhiWrite s := rfl
@[simp] theorem exec_spaceDescriptorWrite (s : State) : exec .spaceDescriptorWrite s = execSpaceDescriptorWrite s := rfl
@[simp] theorem exec_localSpaceClearEnd (s : State) : exec .localSpaceClearEnd s = execLocalSpaceClearEnd s := rfl
@[simp] theorem exec_schcfgWrite (s : State) : exec .schcfgWrite s = execSchcfgWrite s := rfl
@[simp] theorem exec_bundleCheck (s : State) : exec .bundleCheck s = execBundleCheck s := rfl
@[simp] theorem exec_budgetTrap (s : State) : exec .budgetTrap s = execBudgetTrap s := rfl
@[simp] theorem exec_trapDelivery (s : State) : exec .trapDelivery s = execTrapDelivery s := rfl
@[simp] theorem exec_mxCommandStart (s : State) : exec .mxCommandStart s = execMxCommandStart s := rfl
@[simp] theorem exec_mmaRowFinal (s : State) : exec .mmaRowFinal s = execMmaRowFinal s := rfl
@[simp] theorem exec_mxCommandComplete (s : State) : exec .mxCommandComplete s = execMxCommandComplete s := rfl
@[simp] theorem exec_copySourceRead (s : State) : exec .copySourceRead s = execCopySourceRead s := rfl
@[simp] theorem exec_byteLanding (s : State) : exec .byteLanding s = execByteLanding s := rfl
@[simp] theorem exec_copyCommandComplete (s : State) : exec .copyCommandComplete s = execCopyCommandComplete s := rfl
@[simp] theorem exec_atomicTile (s : State) : exec .atomicTile s = execAtomicTile s := rfl
@[simp] theorem exec_groupDrainPerform (s : State) : exec .groupDrainPerform s = execGroupDrainPerform s := rfl
@[simp] theorem exec_groupDrainTimeout (s : State) : exec .groupDrainTimeout s = execGroupDrainTimeout s := rfl
@[simp] theorem exec_spawnSlotReserve (s : State) : exec .spawnSlotReserve s = execSpawnSlotReserve s := rfl
@[simp] theorem exec_porchSpill (s : State) : exec .porchSpill s = execPorchSpill s := rfl
@[simp] theorem exec_put (s : State) : exec .put s = execPut s := rfl
@[simp] theorem exec_get (s : State) : exec .get s = execGet s := rfl
@[simp] theorem exec_getResponse (s : State) : exec .getResponse s = execGetResponse s := rfl
@[simp] theorem exec_fadd (s : State) : exec .fadd s = execFadd s := rfl
@[simp] theorem exec_tail (s : State) : exec .tail s = execTail s := rfl
@[simp] theorem exec_permit (s : State) : exec .permit s = execPermit s := rfl
@[simp] theorem exec_ack (s : State) : exec .ack s = execAck s := rfl
@[simp] theorem exec_nak (s : State) : exec .nak s = execNak s := rfl
@[simp] theorem exec_messageResend (s : State) : exec .messageResend s = execMessageResend s := rfl
@[simp] theorem exec_connectionFail (s : State) : exec .connectionFail s = execConnectionFail s := rfl
@[simp] theorem exec_frameReceive (s : State) : exec .frameReceive s = execFrameReceive s := rfl
@[simp] theorem exec_portLinkDown (s : State) : exec .portLinkDown s = execPortLinkDown s := rfl
@[simp] theorem exec_flitCrcReplay (s : State) : exec .flitCrcReplay s = execFlitCrcReplay s := rfl
@[simp] theorem exec_linkRetrain (s : State) : exec .linkRetrain s = execLinkRetrain s := rfl
@[simp] theorem exec_permitLeaseExpiry (s : State) : exec .permitLeaseExpiry s = execPermitLeaseExpiry s := rfl
@[simp] theorem exec_droverRequestSend (s : State) : exec .droverRequestSend s = execDroverRequestSend s := rfl
@[simp] theorem exec_handleFetchComplete (s : State) : exec .handleFetchComplete s = execHandleFetchComplete s := rfl
@[simp] theorem exec_handleFetchFail (s : State) : exec .handleFetchFail s = execHandleFetchFail s := rfl
@[simp] theorem exec_handleEvictComplete (s : State) : exec .handleEvictComplete s = execHandleEvictComplete s := rfl
@[simp] theorem exec_pastureNonempty (s : State) : exec .pastureNonempty s = execPastureNonempty s := rfl
@[simp] theorem exec_penMap (s : State) : exec .penMap s = execPenMap s := rfl
@[simp] theorem exec_penRemap (s : State) : exec .penRemap s = execPenRemap s := rfl
@[simp] theorem exec_penClaim (s : State) : exec .penClaim s = execPenClaim s := rfl
@[simp] theorem exec_pickup (s : State) : exec .pickup s = execPickup s := rfl
@[simp] theorem exec_recordReturn (s : State) : exec .recordReturn s = execRecordReturn s := rfl
@[simp] theorem exec_wakeWithoutCause (s : State) : exec .wakeWithoutCause s = execWakeWithoutCause s := rfl
@[simp] theorem exec_pinfoldWake (s : State) : exec .pinfoldWake s = execPinfoldWake s := rfl
@[simp] theorem exec_sectorFill (s : State) : exec .sectorFill s = execSectorFill s := rfl
@[simp] theorem exec_l2Writeback (s : State) : exec .l2Writeback s = execL2Writeback s := rfl
@[simp] theorem exec_writeQueueDrain (s : State) : exec .writeQueueDrain s = execWriteQueueDrain s := rfl
@[simp] theorem exec_phaseShrinkComplete (s : State) : exec .phaseShrinkComplete s = execPhaseShrinkComplete s := rfl
@[simp] theorem exec_phaseGrowComplete (s : State) : exec .phaseGrowComplete s = execPhaseGrowComplete s := rfl
@[simp] theorem exec_uncorrectableError (s : State) : exec .uncorrectableError s = execUncorrectableError s := rfl
@[simp] theorem exec_sramScrub (s : State) : exec .sramScrub s = execSramScrub s := rfl
@[simp] theorem exec_hbmScrub (s : State) : exec .hbmScrub s = execHbmScrub s := rfl
@[simp] theorem exec_coreSelfTest (s : State) : exec .coreSelfTest s = execCoreSelfTest s := rfl
@[simp] theorem exec_cellarMaintenance (s : State) : exec .cellarMaintenance s = execCellarMaintenance s := rfl
@[simp] theorem exec_arbiterInterval (s : State) : exec .arbiterInterval s = execArbiterInterval s := rfl
@[simp] theorem exec_junctionOvertemp (s : State) : exec .junctionOvertemp s = execJunctionOvertemp s := rfl
@[simp] theorem exec_recorderAppend (s : State) : exec .recorderAppend s = execRecorderAppend s := rfl
@[simp] theorem exec_hubWatchdog (s : State) : exec .hubWatchdog s = execHubWatchdog s := rfl
@[simp] theorem exec_coldReset (s : State) : exec .coldReset s = execColdReset s := rfl
@[simp] theorem exec_warmReset (s : State) : exec .warmReset s = execWarmReset s := rfl
@[simp] theorem exec_attestationRequest (s : State) : exec .attestationRequest s = execAttestationRequest s := rfl
@[simp] theorem exec_recorderFreezeRelease (s : State) : exec .recorderFreezeRelease s = execRecorderFreezeRelease s := rfl
@[simp] theorem exec_variableLatencyResult (s : State) : exec .variableLatencyResult s = execVariableLatencyResult s := rfl
@[simp] theorem exec_portLinkUp (s : State) : exec .portLinkUp s = execPortLinkUp s := rfl
@[simp] theorem exec_connectionReestablished (s : State) : exec .connectionReestablished s = execConnectionReestablished s := rfl
@[simp] theorem exec_programmingSliceEnd (s : State) : exec .programmingSliceEnd s = execProgrammingSliceEnd s := rfl
@[simp] theorem exec_recoveryExchange (s : State) : exec .recoveryExchange s = execRecoveryExchange s := rfl
@[simp] theorem exec_hardwarePrefetch (s : State) : exec .hardwarePrefetch s = execHardwarePrefetch s := rfl

end Sys2Proof.Machine
end

