-- ==== Sys2Proof/Laws/Tables.lean ====
section
/-! SUPPORT. Tables by number and memory: what is read after a write, and the canonical form, which every table operation keeps. -/

namespace Sys2Proof.Machine
open Sys2Proof

variable {α : Type}

theorem sget_sins_filter (d : α) (n m : Nat) (v : α) (t : Sparse α) :
    sget d (sins n v (t.filter fun e => e.1 != n)) m = if m = n then v else sget d t m := by
  induction t with
  | nil =>
    by_cases h : m = n
    · simp [sins, sget, h]
    · simp [sins, sget, h, Ne.symm h]
  | cons e t ih =>
    obtain ⟨k, w⟩ := e
    by_cases hk : k = n
    · subst hk
      simp only [List.filter_cons, bne_self_eq_false, Bool.false_eq_true, if_false, ih, sget]
      by_cases h : m = k
      · simp [h]
      · simp [h, Ne.symm h]
    · have hk' : (k != n) = true := by simpa using hk
      simp only [List.filter_cons, hk', if_true, sins]
      by_cases hlt : n < k
      · simp only [hlt, if_true, sget]
        by_cases h : m = n
        · simp [h]
        · simp only [Ne.symm h, if_false]
          by_cases h2 : k = m
          · simp [h2, h]
          · simp only [h2, if_false, h]
            clear ih hlt
            induction t with
            | nil => rfl
            | cons e t ih2 =>
              obtain ⟨k2, w2⟩ := e
              by_cases hk2 : k2 = n
              · subst hk2; simpa [List.filter_cons, sget, Ne.symm h] using ih2
              · have : (k2 != n) = true := by simpa using hk2
                simp only [List.filter_cons, this, if_true, sget, ih2]
      · simp only [hlt, if_false, sget, ih]
        by_cases h2 : k = m
        · subst h2; simp [hk]
        · simp [h2]

theorem sget_filter_ne (d : α) (n m : Nat) (t : Sparse α) (h : m ≠ n) : sget d (t.filter fun e => e.1 != n) m = sget d t m := by
  induction t with
  | nil => rfl
  | cons e t ih =>
    obtain ⟨k, w⟩ := e
    by_cases hk : k = n
    · subst hk; simpa [List.filter_cons, sget, Ne.symm h] using ih
    · have : (k != n) = true := by simpa using hk
      simp only [List.filter_cons, this, if_true, sget, ih]

theorem sget_filter_eq (d : α) (n : Nat) (t : Sparse α) : sget d (t.filter fun e => e.1 != n) n = d := by
  induction t with
  | nil => rfl
  | cons e t ih =>
    obtain ⟨k, w⟩ := e
    by_cases hk : k = n
    · subst hk; simpa [List.filter_cons] using ih
    · have : (k != n) = true := by simpa using hk
      simp only [List.filter_cons, this, if_true, sget, hk, if_false, ih]

/-- Reading a table after a write: the written value at its number, the old one elsewhere. -/
theorem sget_sput [DecidableEq α] (d : α) (t : Sparse α) (n m : Nat) (v : α) :
    sget d (sput d t n v) m = if m = n then v else sget d t m := by
  unfold sput
  by_cases hv : v = d
  · subst hv
    simp only [if_true]
    by_cases h : m = n
    · subst h; simp [sget_filter_eq]
    · simp [h, sget_filter_ne v n m t h]
  · simp only [hv, if_false, sget_sins_filter]

@[simp] theorem sget_sput_self [DecidableEq α] (d : α) (t : Sparse α) (n : Nat) (v : α) : sget d (sput d t n v) n = v := by
  simp [sget_sput]

theorem sget_sput_ne [DecidableEq α] (d : α) (t : Sparse α) {n m : Nat} (v : α) (h : m ≠ n) : sget d (sput d t n v) m = sget d t m := by
  simp [sget_sput, h]

/-- A write leaves every other number's entry, whatever the default that the entry is read with. -/
theorem sget_sput_other [DecidableEq α] (d d' : α) (t : Sparse α) {n m : Nat} (v : α) (h : m ≠ n) :
    sget d' (sput d t n v) m = sget d' t m := by
  unfold sput
  simp only
  split
  · exact sget_filter_ne d' n m t h
  · rw [sget_sins_filter]; simp [h]

/-! ### The canonical form -/

/-- The canonical form in terms of the keys and of each entry. -/
theorem swf_iff [DecidableEq α] (d : α) (t : Sparse α) :
    swf d t = true ↔ (t.map (·.1)).Pairwise (· < ·) ∧ ∀ e ∈ t, e.2 ≠ d := by
  induction t with
  | nil => simp [swf]
  | cons e t ih =>
    obtain ⟨k, v⟩ := e
    cases t with
    | nil => simp [swf]
    | cons e' t =>
      obtain ⟨k', v'⟩ := e'
      simp only [swf, Bool.and_eq_true, decide_eq_true_eq, ih]
      constructor
      · rintro ⟨⟨h1, h2⟩, h3, h4⟩
        refine ⟨?_, ?_⟩
        · simp only [List.map_cons, List.pairwise_cons] at h3 ⊢
          refine ⟨?_, h3⟩
          intro a ha
          simp only [List.mem_cons] at ha
          rcases ha with rfl | ha
          · exact h2
          · exact Nat.lt_trans h2 (h3.1 a ha)
        · intro e he
          rcases List.mem_cons.mp he with rfl | he
          · exact h1
          · exact h4 e he
      · rintro ⟨h1, h2⟩
        simp only [List.map_cons, List.pairwise_cons] at h1
        refine ⟨⟨h2 _ List.mem_cons_self, h1.1 k' (by simp)⟩, ?_, fun e he => h2 e (List.mem_cons_of_mem _ he)⟩
        simpa only [List.map_cons, List.pairwise_cons] using h1.2

theorem swf_filter [DecidableEq α] (d : α) (t : Sparse α) (p : Nat × α → Bool) (h : swf d t = true) : swf d (t.filter p) = true := by
  rw [swf_iff] at h ⊢
  refine ⟨?_, fun e he => h.2 e ((List.mem_filter.mp he).1)⟩
  have : List.Sublist ((t.filter p).map (·.1)) (t.map (·.1)) := List.Sublist.map _ List.filter_sublist
  exact List.Pairwise.sublist this h.1

theorem mem_sins (n : Nat) (v : α) (t : Sparse α) (e : Nat × α) : e ∈ sins n v t ↔ e = (n, v) ∨ e ∈ t := by
  induction t with
  | nil => simp [sins]
  | cons e' t ih =>
    obtain ⟨k, w⟩ := e'
    simp only [sins]
    split
    · simp [List.mem_cons]
    · simp only [List.mem_cons, ih]; constructor <;> rintro (h | h | h) <;> simp [h]

theorem swf_sins [DecidableEq α] (d : α) (n : Nat) (v : α) (t : Sparse α) (h : swf d t = true) (hn : ∀ e ∈ t, e.1 ≠ n) (hv : v ≠ d) :
    swf d (sins n v t) = true := by
  rw [swf_iff] at h ⊢
  refine ⟨?_, ?_⟩
  · obtain ⟨h1, -⟩ := h
    induction t with
    | nil => simp [sins]
    | cons e t ih =>
      obtain ⟨k, w⟩ := e
      simp only [List.map_cons, List.pairwise_cons] at h1
      have hk : k ≠ n := hn _ List.mem_cons_self
      simp only [sins]
      split
      · rename_i hlt
        simp only [List.map_cons, List.pairwise_cons]
        refine ⟨?_, h1⟩
        intro a ha
        simp only [List.mem_cons] at ha
        rcases ha with rfl | ha
        · exact hlt
        · exact Nat.lt_trans hlt (h1.1 a ha)
      · rename_i hlt
        simp only [List.map_cons, List.pairwise_cons]
        refine ⟨?_, ih (fun e he => hn e (List.mem_cons_of_mem _ he)) h1.2⟩
        intro a ha
        obtain ⟨e, he, rfl⟩ := List.mem_map.mp ha
        rcases (mem_sins n v t e).mp he with rfl | he
        · show k < n; omega
        · exact h1.1 _ (List.mem_map_of_mem he)
  · intro e he
    rcases (mem_sins n v t e).mp he with rfl | he
    · exact hv
    · exact h.2 e he

/-- A write to a table keeps its canonical form. -/
theorem swf_sput [DecidableEq α] (d : α) (t : Sparse α) (n : Nat) (v : α) (h : swf d t = true) : swf d (sput d t n v) = true := by
  unfold sput
  have hf := swf_filter d t (fun e => e.1 != n) h
  simp only
  split
  · exact hf
  · rename_i hv
    refine swf_sins d n v _ hf ?_ hv
    intro e he
    have := (List.mem_filter.mp he).2
    simpa using this

/-! ### Memory -/

/-- Reading a byte after a write. -/
theorem mget_mput (m : List Host.Cell) (a x : Nat) (b : Byte) : mget (mput m a b) x = if x = a then b else mget m x :=
  sget_sput freshByte m a x b

/-- A write of a byte keeps the canonical form of memory. -/
theorem Memory.wf_mput (m : List Host.Cell) (a : Nat) (b : Byte) (h : Memory.wf m) : Memory.wf (mput m a b) := swf_sput freshByte m a b h

/-- Clearing bytes keeps the canonical form of memory. -/
theorem Memory.wf_filter (m : List Host.Cell) (p : Host.Cell → Bool) (h : Memory.wf m) : Memory.wf (m.filter p) := swf_filter freshByte m p h

@[simp] theorem State.setByte_mem (s : State) (a : Nat) (b : Byte) : (s.setByte a b).mem = mput s.mem a b := rfl
@[simp] theorem State.poke_mem (s : State) (a : Nat) (b : Byte) : (s.poke a b).mem = mput s.mem a b := rfl
@[simp] theorem State.untag_mem (s : State) (a : Nat) : (s.untag a).mem = s.mem := rfl

/-! ### Write-queue entries (R280) -/

/-- A byte of a 64-byte value after one of its bytes is set. -/
theorem setBits_byte (w : BitVec 512) (i j : Nat) (b : Byte) (hi : i < 64) (hj : j < 64) :
    BitVec.ofNat 8 ((setBits w (8 * i) 8 b.toNat).toNat / 256 ^ j) = if j = i then b else BitVec.ofNat 8 (w.toNat / 256 ^ j) := by
  have key : ∀ k, k < 8 → (BitVec.ofNat 8 ((setBits w (8 * i) 8 b.toNat).toNat / 256 ^ j)).getLsbD k
      = (if j = i then b else BitVec.ofNat 8 (w.toNat / 256 ^ j)).getLsbD k := by
    intro k hk
    have h256 : (256 : Nat) ^ j = 2 ^ (8 * j) := by rw [show (256 : Nat) = 2 ^ 8 by rfl, ← Nat.pow_mul]
    have hb : b.toNat < 2 ^ 8 := b.isLt
    have hw : w.toNat < 2 ^ 512 := w.isLt
    have hsum : w.toNat / 2 ^ (8 * i + 8) * 2 ^ (8 * i + 8) + b.toNat % 2 ^ 8 * 2 ^ (8 * i) + w.toNat % 2 ^ (8 * i)
        = 2 ^ (8 * i) * (2 ^ 8 * (w.toNat / 2 ^ (8 * i + 8)) + b.toNat) + w.toNat % 2 ^ (8 * i) := by
      rw [Nat.mod_eq_of_lt hb, Nat.pow_add, Nat.mul_add, Nat.mul_comm b.toNat, Nat.mul_comm (_ / _), Nat.mul_assoc]
    have hr : w.toNat % 2 ^ (8 * i) < 2 ^ (8 * i) := Nat.mod_lt _ (Nat.two_pow_pos _)
    simp only [setBits, BitVec.getLsbD_ofNat, BitVec.toNat_ofNat, hk, decide_true, Bool.true_and, h256, Nat.testBit_div_two_pow,
      Nat.testBit_mod_two_pow, show k + 8 * j < 512 by omega, hsum]
    rw [Nat.testBit_two_pow_mul_add _ hr]
    by_cases h1 : j = i
    · subst h1
      rw [if_neg (by omega), if_pos rfl, show k + 8 * j - 8 * j = k by omega, Nat.testBit_two_pow_mul_add _ hb, if_pos hk]
      rfl
    · rw [if_neg h1]
      simp only [BitVec.getLsbD_ofNat, hk, decide_true, Bool.true_and, Nat.testBit_div_two_pow]
      by_cases h2 : k + 8 * j < 8 * i
      · rw [if_pos h2, Nat.testBit_mod_two_pow]; simp [h2]
      · rw [if_neg h2, Nat.testBit_two_pow_mul_add _ hb, if_neg (by omega), Nat.testBit_div_two_pow]
        congr 1; omega
  apply BitVec.eq_of_getLsbD_eq
  exact key

/-- The byte of an entry for an address after a byte is put. -/
theorem Burst.byteAt_put (q : Burst) (a x : Nat) (b : Byte) :
    (q.put a b).byteAt x = (q.byteAt x).map fun v => if x = a then b else v := by
  unfold Burst.put
  split
  · rename_i h
    have ha : q.addr ≤ a ∧ a < q.addr + 64 := by
      unfold Burst.byteAt at h
      exact Decidable.byContradiction fun hn => by simp [hn] at h
    unfold Burst.byteAt
    split
    · rename_i hx
      dsimp only at hx
      split
      · dsimp only
        simp only [Option.map_some, setBits_byte q.data (a - q.addr) (x - q.addr) b (by omega) (by omega)]
        by_cases hxa : x = a
        · simp [hxa]
        · simp [hxa, show x - q.addr ≠ a - q.addr by omega]
      · rfl
    · rfl
  · rename_i h
    by_cases hxa : x = a
    · subst hxa
      cases hq : q.byteAt x with
      | none => rfl
      | some v => simp [hq] at h
    · simp [hxa]

/-- Taking the newest entry commutes with a change of every entry's byte. -/
theorem foldl_newest (l : List Burst) (x : Nat) (f : Burst → Burst) (g : Byte → Byte)
    (h : ∀ q, (f q).byteAt x = (q.byteAt x).map g) (b : Option Byte) :
    (l.map f).foldl (fun b q => (q.byteAt x).or b) (b.map g) = (l.foldl (fun b q => (q.byteAt x).or b) b).map g := by
  induction l generalizing b with
  | nil => rfl
  | cons q t ih =>
    simp only [List.map_cons, List.foldl_cons, h]
    rw [← ih]
    cases q.byteAt x <;> rfl

/-- What the write queues hold for an address after a byte is set. -/
theorem State.queued_setByte (s : State) (a x : Nat) (b : Byte) :
    (s.setByte a b).queued x = (s.queued x).map fun v => if x = a then b else v :=
  foldl_newest s.writeQ x _ _ (fun q => q.byteAt_put a x b) none

/-- Reading a byte after `setByte`. -/
theorem State.byte_setByte (s : State) (a x : Nat) (b : Byte) : (s.setByte a b).byte x = if x = a then b else s.byte x := by
  unfold State.byte
  rw [State.queued_setByte, State.setByte_mem, mget_mput]
  cases s.queued x with
  | none => rfl
  | some v => rfl

@[simp] theorem State.byte_untag (s : State) (a x : Nat) : (s.untag a).byte x = s.byte x := rfl

/-- Reading a byte after `poke`. -/
theorem State.byte_poke (s : State) (a x : Nat) (b : Byte) : (s.poke a b).byte x = if x = a then b else s.byte x :=
  State.byte_setByte (s.untag a) a x b

/-- Reading a byte after a run of bytes is written. -/
theorem State.byte_pokes (s : State) (a x : Nat) (l : List Byte) :
    (s.pokes a l).byte x = if h : a ≤ x ∧ x < a + l.length then l[x - a]'(by omega) else s.byte x := by
  induction l generalizing s a with
  | nil =>
    rw [dif_neg (by simp)]
    rfl
  | cons b t ih =>
    simp only [State.pokes, ih, State.byte_poke, List.length_cons]
    by_cases h1 : x = a
    · subst h1
      rw [dif_neg (by omega), dif_pos (by omega)]
      simp
    · simp only [h1, if_false]
      by_cases h2 : a + 1 ≤ x ∧ x < a + 1 + t.length
      · rw [dif_pos h2, dif_pos (by omega)]
        have h3 : x - a = (x - (a + 1)) + 1 := by omega
        simp only [h3, List.getElem_cons_succ]
      · rw [dif_neg h2, dif_neg (by omega)]

theorem State.wf_poke (s : State) (a : Nat) (b : Byte) (h : Memory.wf s.mem) : Memory.wf (s.poke a b).mem := Memory.wf_mput _ _ _ h

theorem State.wf_pokes (s : State) (a : Nat) (l : List Byte) (h : Memory.wf s.mem) : Memory.wf (s.pokes a l).mem := by
  induction l generalizing s a with
  | nil => exact h
  | cons b t ih => exact ih _ _ (Memory.wf_mput _ _ _ h)

theorem State.wf_pokeNum (s : State) (a n v : Nat) (h : Memory.wf s.mem) : Memory.wf (s.pokeNum a n v).mem := State.wf_pokes _ _ _ h

end Sys2Proof.Machine
end

