-- ==== Sys2Proof/Laws/State.lean ====
section
/-! SUPPORT. What the updates of the state change and what they leave: one lemma for each field and update, so that no proof unfolds a
record update. -/

namespace Sys2Proof.Machine
open Sys2Proof

/-! ### Cores and contexts -/

/-- A core after one is replaced. -/
theorem State.core_setCore (s : State) (c n : Nat) (x : Core) : (s.setCore c x).core n = if n = c then x else s.core n := by
  simp only [State.core, State.setCore]
  split
  · rename_i h; subst h; simp
  · rename_i h; exact sget_sput_other _ _ _ _ h

@[simp] theorem State.core_setCore_self (s : State) (c : Nat) (x : Core) : (s.setCore c x).core c = x := by simp [State.core_setCore]

@[simp] theorem State.ctxOf_setCtx_self (s : State) (c : Nat) (y : Ctx) : (s.setCtx c y).ctxOf c = some y := by
  simp [State.setCtx, State.ctxOf]

/-- The context of a core after one context is replaced. -/
theorem State.ctxOf_setCtx (s : State) (c n : Nat) (y : Ctx) : (s.setCtx c y).ctxOf n = if n = c then some y else s.ctxOf n := by
  simp only [State.setCtx, State.ctxOf, State.core_setCore]
  split <;> rfl

/-- The parts of a core other than its context after a context is replaced. -/
theorem State.core_setCtx (s : State) (c n : Nat) (y : Ctx) :
    (s.setCtx c y).core n = if n = c then { s.core c with ctx := some y } else s.core n := by
  simp only [State.setCtx, State.core_setCore]

/-- A change of a context where the core holds one. -/
theorem State.modCtx_some {s : State} {c : Nat} {y : Ctx} (h : s.ctxOf c = some y) (f : Ctx → Ctx) : s.modCtx c f = s.setCtx c (f y) := by
  simp [State.modCtx, h]

/-- A change of a context where the core holds none. -/
theorem State.modCtx_none {s : State} {c : Nat} (h : s.ctxOf c = none) (f : Ctx → Ctx) : s.modCtx c f = s := by
  simp [State.modCtx, h]

/-- The context of a core after a change of one. -/
theorem State.ctxOf_modCtx (s : State) (c n : Nat) (f : Ctx → Ctx) :
    (s.modCtx c f).ctxOf n = if n = c then (s.ctxOf c).map f else s.ctxOf n := by
  unfold State.modCtx
  split
  · rename_i h; split
    · rename_i h2; subst h2; simp [h]
    · rfl
  · rename_i y h
    rw [State.ctxOf_setCtx]; simp [h]

@[simp] theorem State.ctxOf_tick (s : State) (c : Nat) : s.tick.ctxOf c = s.ctxOf c := rfl
@[simp] theorem State.core_tick (s : State) (c : Nat) : s.tick.core c = s.core c := rfl
@[simp] theorem State.byte_tick (s : State) (a : Nat) : s.tick.byte a = s.byte a := rfl
@[simp] theorem State.free_tick (s : State) : s.tick.free = s.free + 1 := rfl

/-! ### Fields -/

@[simp] theorem State.turn_tick (s : State) : s.tick.turn = s.turn := rfl
@[simp] theorem State.inputs_tick (s : State) : s.tick.inputs = s.inputs := rfl
@[simp] theorem State.pause_tick (s : State) : s.tick.pause = s.pause := rfl
@[simp] theorem State.args_tick (s : State) : s.tick.args = s.args := rfl
@[simp] theorem State.cores_tick (s : State) : s.tick.cores = s.cores := rfl
@[simp] theorem State.time_tick (s : State) : s.tick.time = s.time := rfl
@[simp] theorem State.mem_tick (s : State) : s.tick.mem = s.mem := rfl
@[simp] theorem State.acts_tick (s : State) : s.tick.acts = s.acts := rfl
@[simp] theorem State.foreseen_tick (s : State) : s.tick.foreseen = s.foreseen := rfl
@[simp] theorem State.tags_tick (s : State) : s.tick.tags = s.tags := rfl
@[simp] theorem State.lines_tick (s : State) : s.tick.lines = s.lines := rfl
@[simp] theorem State.writeQ_tick (s : State) : s.tick.writeQ = s.writeQ := rfl
@[simp] theorem State.compr_tick (s : State) : s.tick.compr = s.compr := rfl
@[simp] theorem State.xlat_tick (s : State) : s.tick.xlat = s.xlat := rfl
@[simp] theorem State.otab_tick (s : State) : s.tick.otab = s.otab := rfl
@[simp] theorem State.ptab_tick (s : State) : s.tick.ptab = s.ptab := rfl
@[simp] theorem State.htab_tick (s : State) : s.tick.htab = s.htab := rfl
@[simp] theorem State.padtab_tick (s : State) : s.tick.padtab = s.padtab := rfl
@[simp] theorem State.oldTabs_tick (s : State) : s.tick.oldTabs = s.oldTabs := rfl
@[simp] theorem State.descs_tick (s : State) : s.tick.descs = s.descs := rfl
@[simp] theorem State.clearing_tick (s : State) : s.tick.clearing = s.clearing := rfl
@[simp] theorem State.lost_tick (s : State) : s.tick.lost = s.lost := rfl
@[simp] theorem State.phases_tick (s : State) : s.tick.phases = s.phases := rfl
@[simp] theorem State.waiting_tick (s : State) : s.tick.waiting = s.waiting := rfl
@[simp] theorem State.returning_tick (s : State) : s.tick.returning = s.returning := rfl
@[simp] theorem State.lanes_tick (s : State) : s.tick.lanes = s.lanes := rfl
@[simp] theorem State.order_tick (s : State) : s.tick.order = s.order := rfl
@[simp] theorem State.pens_tick (s : State) : s.tick.pens = s.pens := rfl
@[simp] theorem State.schcfg_tick (s : State) : s.tick.schcfg = s.schcfg := rfl
@[simp] theorem State.folds_tick (s : State) : s.tick.folds = s.folds := rfl
@[simp] theorem State.handles_tick (s : State) : s.tick.handles = s.handles := rfl
@[simp] theorem State.drover0_tick (s : State) : s.tick.drover0 = s.drover0 := rfl
@[simp] theorem State.drover1_tick (s : State) : s.tick.drover1 = s.drover1 := rfl
@[simp] theorem State.parts_tick (s : State) : s.tick.parts = s.parts := rfl
@[simp] theorem State.tracked_tick (s : State) : s.tick.tracked = s.tracked := rfl
@[simp] theorem State.queues_tick (s : State) : s.tick.queues = s.queues := rfl
@[simp] theorem State.delivered_tick (s : State) : s.tick.delivered = s.delivered := rfl
@[simp] theorem State.hubEvents_tick (s : State) : s.tick.hubEvents = s.hubEvents := rfl
@[simp] theorem State.recorder_tick (s : State) : s.tick.recorder = s.recorder := rfl
@[simp] theorem State.conns_tick (s : State) : s.tick.conns = s.conns := rfl
@[simp] theorem State.ports_tick (s : State) : s.tick.ports = s.ports := rfl
@[simp] theorem State.links_tick (s : State) : s.tick.links = s.links := rfl
@[simp] theorem State.cellars_tick (s : State) : s.tick.cellars = s.cellars := rfl
@[simp] theorem State.arbiter_tick (s : State) : s.tick.arbiter = s.arbiter := rfl
@[simp] theorem State.tailsSeen_tick (s : State) : s.tick.tailsSeen = s.tailsSeen := rfl
@[simp] theorem State.wakesSeen_tick (s : State) : s.tick.wakesSeen = s.wakesSeen := rfl
@[simp] theorem State.counted_tick (s : State) : s.tick.counted = s.counted := rfl
@[simp] theorem State.boot_tick (s : State) : s.tick.boot = s.boot := rfl
@[simp] theorem State.bootCount_tick (s : State) : s.tick.bootCount = s.bootCount := rfl
@[simp] theorem State.attest_tick (s : State) : s.tick.attest = s.attest := rfl
@[simp] theorem State.svn_tick (s : State) : s.tick.svn = s.svn := rfl
@[simp] theorem State.peers_tick (s : State) : s.tick.peers = s.peers := rfl
@[simp] theorem State.egress_tick (s : State) : s.tick.egress = s.egress := rfl
@[simp] theorem State.policy_tick (s : State) : s.tick.policy = s.policy := rfl
@[simp] theorem State.health_tick (s : State) : s.tick.health = s.health := rfl
@[simp] theorem State.watchdog_tick (s : State) : s.tick.watchdog = s.watchdog := rfl

@[simp] theorem State.turn_setCore (s : State) (c : Nat) (x : Core) : (s.setCore c x).turn = s.turn := rfl
@[simp] theorem State.inputs_setCore (s : State) (c : Nat) (x : Core) : (s.setCore c x).inputs = s.inputs := rfl
@[simp] theorem State.free_setCore (s : State) (c : Nat) (x : Core) : (s.setCore c x).free = s.free := rfl
@[simp] theorem State.pause_setCore (s : State) (c : Nat) (x : Core) : (s.setCore c x).pause = s.pause := rfl
@[simp] theorem State.args_setCore (s : State) (c : Nat) (x : Core) : (s.setCore c x).args = s.args := rfl
@[simp] theorem State.time_setCore (s : State) (c : Nat) (x : Core) : (s.setCore c x).time = s.time := rfl
@[simp] theorem State.mem_setCore (s : State) (c : Nat) (x : Core) : (s.setCore c x).mem = s.mem := rfl
@[simp] theorem State.acts_setCore (s : State) (c : Nat) (x : Core) : (s.setCore c x).acts = s.acts := rfl
@[simp] theorem State.foreseen_setCore (s : State) (c : Nat) (x : Core) : (s.setCore c x).foreseen = s.foreseen := rfl
@[simp] theorem State.tags_setCore (s : State) (c : Nat) (x : Core) : (s.setCore c x).tags = s.tags := rfl
@[simp] theorem State.lines_setCore (s : State) (c : Nat) (x : Core) : (s.setCore c x).lines = s.lines := rfl
@[simp] theorem State.writeQ_setCore (s : State) (c : Nat) (x : Core) : (s.setCore c x).writeQ = s.writeQ := rfl
@[simp] theorem State.compr_setCore (s : State) (c : Nat) (x : Core) : (s.setCore c x).compr = s.compr := rfl
@[simp] theorem State.xlat_setCore (s : State) (c : Nat) (x : Core) : (s.setCore c x).xlat = s.xlat := rfl
@[simp] theorem State.otab_setCore (s : State) (c : Nat) (x : Core) : (s.setCore c x).otab = s.otab := rfl
@[simp] theorem State.ptab_setCore (s : State) (c : Nat) (x : Core) : (s.setCore c x).ptab = s.ptab := rfl
@[simp] theorem State.htab_setCore (s : State) (c : Nat) (x : Core) : (s.setCore c x).htab = s.htab := rfl
@[simp] theorem State.padtab_setCore (s : State) (c : Nat) (x : Core) : (s.setCore c x).padtab = s.padtab := rfl
@[simp] theorem State.oldTabs_setCore (s : State) (c : Nat) (x : Core) : (s.setCore c x).oldTabs = s.oldTabs := rfl
@[simp] theorem State.descs_setCore (s : State) (c : Nat) (x : Core) : (s.setCore c x).descs = s.descs := rfl
@[simp] theorem State.clearing_setCore (s : State) (c : Nat) (x : Core) : (s.setCore c x).clearing = s.clearing := rfl
@[simp] theorem State.lost_setCore (s : State) (c : Nat) (x : Core) : (s.setCore c x).lost = s.lost := rfl
@[simp] theorem State.phases_setCore (s : State) (c : Nat) (x : Core) : (s.setCore c x).phases = s.phases := rfl
@[simp] theorem State.waiting_setCore (s : State) (c : Nat) (x : Core) : (s.setCore c x).waiting = s.waiting := rfl
@[simp] theorem State.returning_setCore (s : State) (c : Nat) (x : Core) : (s.setCore c x).returning = s.returning := rfl
@[simp] theorem State.lanes_setCore (s : State) (c : Nat) (x : Core) : (s.setCore c x).lanes = s.lanes := rfl
@[simp] theorem State.order_setCore (s : State) (c : Nat) (x : Core) : (s.setCore c x).order = s.order := rfl
@[simp] theorem State.pens_setCore (s : State) (c : Nat) (x : Core) : (s.setCore c x).pens = s.pens := rfl
@[simp] theorem State.schcfg_setCore (s : State) (c : Nat) (x : Core) : (s.setCore c x).schcfg = s.schcfg := rfl
@[simp] theorem State.folds_setCore (s : State) (c : Nat) (x : Core) : (s.setCore c x).folds = s.folds := rfl
@[simp] theorem State.handles_setCore (s : State) (c : Nat) (x : Core) : (s.setCore c x).handles = s.handles := rfl
@[simp] theorem State.drover0_setCore (s : State) (c : Nat) (x : Core) : (s.setCore c x).drover0 = s.drover0 := rfl
@[simp] theorem State.drover1_setCore (s : State) (c : Nat) (x : Core) : (s.setCore c x).drover1 = s.drover1 := rfl
@[simp] theorem State.parts_setCore (s : State) (c : Nat) (x : Core) : (s.setCore c x).parts = s.parts := rfl
@[simp] theorem State.tracked_setCore (s : State) (c : Nat) (x : Core) : (s.setCore c x).tracked = s.tracked := rfl
@[simp] theorem State.queues_setCore (s : State) (c : Nat) (x : Core) : (s.setCore c x).queues = s.queues := rfl
@[simp] theorem State.delivered_setCore (s : State) (c : Nat) (x : Core) : (s.setCore c x).delivered = s.delivered := rfl
@[simp] theorem State.hubEvents_setCore (s : State) (c : Nat) (x : Core) : (s.setCore c x).hubEvents = s.hubEvents := rfl
@[simp] theorem State.recorder_setCore (s : State) (c : Nat) (x : Core) : (s.setCore c x).recorder = s.recorder := rfl
@[simp] theorem State.conns_setCore (s : State) (c : Nat) (x : Core) : (s.setCore c x).conns = s.conns := rfl
@[simp] theorem State.ports_setCore (s : State) (c : Nat) (x : Core) : (s.setCore c x).ports = s.ports := rfl
@[simp] theorem State.links_setCore (s : State) (c : Nat) (x : Core) : (s.setCore c x).links = s.links := rfl
@[simp] theorem State.cellars_setCore (s : State) (c : Nat) (x : Core) : (s.setCore c x).cellars = s.cellars := rfl
@[simp] theorem State.arbiter_setCore (s : State) (c : Nat) (x : Core) : (s.setCore c x).arbiter = s.arbiter := rfl
@[simp] theorem State.tailsSeen_setCore (s : State) (c : Nat) (x : Core) : (s.setCore c x).tailsSeen = s.tailsSeen := rfl
@[simp] theorem State.wakesSeen_setCore (s : State) (c : Nat) (x : Core) : (s.setCore c x).wakesSeen = s.wakesSeen := rfl
@[simp] theorem State.counted_setCore (s : State) (c : Nat) (x : Core) : (s.setCore c x).counted = s.counted := rfl
@[simp] theorem State.boot_setCore (s : State) (c : Nat) (x : Core) : (s.setCore c x).boot = s.boot := rfl
@[simp] theorem State.bootCount_setCore (s : State) (c : Nat) (x : Core) : (s.setCore c x).bootCount = s.bootCount := rfl
@[simp] theorem State.attest_setCore (s : State) (c : Nat) (x : Core) : (s.setCore c x).attest = s.attest := rfl
@[simp] theorem State.svn_setCore (s : State) (c : Nat) (x : Core) : (s.setCore c x).svn = s.svn := rfl
@[simp] theorem State.peers_setCore (s : State) (c : Nat) (x : Core) : (s.setCore c x).peers = s.peers := rfl
@[simp] theorem State.egress_setCore (s : State) (c : Nat) (x : Core) : (s.setCore c x).egress = s.egress := rfl
@[simp] theorem State.policy_setCore (s : State) (c : Nat) (x : Core) : (s.setCore c x).policy = s.policy := rfl
@[simp] theorem State.health_setCore (s : State) (c : Nat) (x : Core) : (s.setCore c x).health = s.health := rfl
@[simp] theorem State.watchdog_setCore (s : State) (c : Nat) (x : Core) : (s.setCore c x).watchdog = s.watchdog := rfl

@[simp] theorem State.turn_setCtx (s : State) (c : Nat) (y : Ctx) : (s.setCtx c y).turn = s.turn := rfl
@[simp] theorem State.inputs_setCtx (s : State) (c : Nat) (y : Ctx) : (s.setCtx c y).inputs = s.inputs := rfl
@[simp] theorem State.free_setCtx (s : State) (c : Nat) (y : Ctx) : (s.setCtx c y).free = s.free := rfl
@[simp] theorem State.pause_setCtx (s : State) (c : Nat) (y : Ctx) : (s.setCtx c y).pause = s.pause := rfl
@[simp] theorem State.args_setCtx (s : State) (c : Nat) (y : Ctx) : (s.setCtx c y).args = s.args := rfl
@[simp] theorem State.time_setCtx (s : State) (c : Nat) (y : Ctx) : (s.setCtx c y).time = s.time := rfl
@[simp] theorem State.mem_setCtx (s : State) (c : Nat) (y : Ctx) : (s.setCtx c y).mem = s.mem := rfl
@[simp] theorem State.acts_setCtx (s : State) (c : Nat) (y : Ctx) : (s.setCtx c y).acts = s.acts := rfl
@[simp] theorem State.foreseen_setCtx (s : State) (c : Nat) (y : Ctx) : (s.setCtx c y).foreseen = s.foreseen := rfl
@[simp] theorem State.tags_setCtx (s : State) (c : Nat) (y : Ctx) : (s.setCtx c y).tags = s.tags := rfl
@[simp] theorem State.lines_setCtx (s : State) (c : Nat) (y : Ctx) : (s.setCtx c y).lines = s.lines := rfl
@[simp] theorem State.writeQ_setCtx (s : State) (c : Nat) (y : Ctx) : (s.setCtx c y).writeQ = s.writeQ := rfl
@[simp] theorem State.compr_setCtx (s : State) (c : Nat) (y : Ctx) : (s.setCtx c y).compr = s.compr := rfl
@[simp] theorem State.xlat_setCtx (s : State) (c : Nat) (y : Ctx) : (s.setCtx c y).xlat = s.xlat := rfl
@[simp] theorem State.otab_setCtx (s : State) (c : Nat) (y : Ctx) : (s.setCtx c y).otab = s.otab := rfl
@[simp] theorem State.ptab_setCtx (s : State) (c : Nat) (y : Ctx) : (s.setCtx c y).ptab = s.ptab := rfl
@[simp] theorem State.htab_setCtx (s : State) (c : Nat) (y : Ctx) : (s.setCtx c y).htab = s.htab := rfl
@[simp] theorem State.padtab_setCtx (s : State) (c : Nat) (y : Ctx) : (s.setCtx c y).padtab = s.padtab := rfl
@[simp] theorem State.oldTabs_setCtx (s : State) (c : Nat) (y : Ctx) : (s.setCtx c y).oldTabs = s.oldTabs := rfl
@[simp] theorem State.descs_setCtx (s : State) (c : Nat) (y : Ctx) : (s.setCtx c y).descs = s.descs := rfl
@[simp] theorem State.clearing_setCtx (s : State) (c : Nat) (y : Ctx) : (s.setCtx c y).clearing = s.clearing := rfl
@[simp] theorem State.lost_setCtx (s : State) (c : Nat) (y : Ctx) : (s.setCtx c y).lost = s.lost := rfl
@[simp] theorem State.phases_setCtx (s : State) (c : Nat) (y : Ctx) : (s.setCtx c y).phases = s.phases := rfl
@[simp] theorem State.waiting_setCtx (s : State) (c : Nat) (y : Ctx) : (s.setCtx c y).waiting = s.waiting := rfl
@[simp] theorem State.returning_setCtx (s : State) (c : Nat) (y : Ctx) : (s.setCtx c y).returning = s.returning := rfl
@[simp] theorem State.lanes_setCtx (s : State) (c : Nat) (y : Ctx) : (s.setCtx c y).lanes = s.lanes := rfl
@[simp] theorem State.order_setCtx (s : State) (c : Nat) (y : Ctx) : (s.setCtx c y).order = s.order := rfl
@[simp] theorem State.pens_setCtx (s : State) (c : Nat) (y : Ctx) : (s.setCtx c y).pens = s.pens := rfl
@[simp] theorem State.schcfg_setCtx (s : State) (c : Nat) (y : Ctx) : (s.setCtx c y).schcfg = s.schcfg := rfl
@[simp] theorem State.folds_setCtx (s : State) (c : Nat) (y : Ctx) : (s.setCtx c y).folds = s.folds := rfl
@[simp] theorem State.handles_setCtx (s : State) (c : Nat) (y : Ctx) : (s.setCtx c y).handles = s.handles := rfl
@[simp] theorem State.drover0_setCtx (s : State) (c : Nat) (y : Ctx) : (s.setCtx c y).drover0 = s.drover0 := rfl
@[simp] theorem State.drover1_setCtx (s : State) (c : Nat) (y : Ctx) : (s.setCtx c y).drover1 = s.drover1 := rfl
@[simp] theorem State.parts_setCtx (s : State) (c : Nat) (y : Ctx) : (s.setCtx c y).parts = s.parts := rfl
@[simp] theorem State.tracked_setCtx (s : State) (c : Nat) (y : Ctx) : (s.setCtx c y).tracked = s.tracked := rfl
@[simp] theorem State.queues_setCtx (s : State) (c : Nat) (y : Ctx) : (s.setCtx c y).queues = s.queues := rfl
@[simp] theorem State.delivered_setCtx (s : State) (c : Nat) (y : Ctx) : (s.setCtx c y).delivered = s.delivered := rfl
@[simp] theorem State.hubEvents_setCtx (s : State) (c : Nat) (y : Ctx) : (s.setCtx c y).hubEvents = s.hubEvents := rfl
@[simp] theorem State.recorder_setCtx (s : State) (c : Nat) (y : Ctx) : (s.setCtx c y).recorder = s.recorder := rfl
@[simp] theorem State.conns_setCtx (s : State) (c : Nat) (y : Ctx) : (s.setCtx c y).conns = s.conns := rfl
@[simp] theorem State.ports_setCtx (s : State) (c : Nat) (y : Ctx) : (s.setCtx c y).ports = s.ports := rfl
@[simp] theorem State.links_setCtx (s : State) (c : Nat) (y : Ctx) : (s.setCtx c y).links = s.links := rfl
@[simp] theorem State.cellars_setCtx (s : State) (c : Nat) (y : Ctx) : (s.setCtx c y).cellars = s.cellars := rfl
@[simp] theorem State.arbiter_setCtx (s : State) (c : Nat) (y : Ctx) : (s.setCtx c y).arbiter = s.arbiter := rfl
@[simp] theorem State.tailsSeen_setCtx (s : State) (c : Nat) (y : Ctx) : (s.setCtx c y).tailsSeen = s.tailsSeen := rfl
@[simp] theorem State.wakesSeen_setCtx (s : State) (c : Nat) (y : Ctx) : (s.setCtx c y).wakesSeen = s.wakesSeen := rfl
@[simp] theorem State.counted_setCtx (s : State) (c : Nat) (y : Ctx) : (s.setCtx c y).counted = s.counted := rfl
@[simp] theorem State.boot_setCtx (s : State) (c : Nat) (y : Ctx) : (s.setCtx c y).boot = s.boot := rfl
@[simp] theorem State.bootCount_setCtx (s : State) (c : Nat) (y : Ctx) : (s.setCtx c y).bootCount = s.bootCount := rfl
@[simp] theorem State.attest_setCtx (s : State) (c : Nat) (y : Ctx) : (s.setCtx c y).attest = s.attest := rfl
@[simp] theorem State.svn_setCtx (s : State) (c : Nat) (y : Ctx) : (s.setCtx c y).svn = s.svn := rfl
@[simp] theorem State.peers_setCtx (s : State) (c : Nat) (y : Ctx) : (s.setCtx c y).peers = s.peers := rfl
@[simp] theorem State.egress_setCtx (s : State) (c : Nat) (y : Ctx) : (s.setCtx c y).egress = s.egress := rfl
@[simp] theorem State.policy_setCtx (s : State) (c : Nat) (y : Ctx) : (s.setCtx c y).policy = s.policy := rfl
@[simp] theorem State.health_setCtx (s : State) (c : Nat) (y : Ctx) : (s.setCtx c y).health = s.health := rfl
@[simp] theorem State.watchdog_setCtx (s : State) (c : Nat) (y : Ctx) : (s.setCtx c y).watchdog = s.watchdog := rfl

@[simp] theorem State.turn_modCtx (s : State) (c : Nat) (f : Ctx → Ctx) : (s.modCtx c f).turn = s.turn := by unfold State.modCtx; split <;> rfl
@[simp] theorem State.inputs_modCtx (s : State) (c : Nat) (f : Ctx → Ctx) : (s.modCtx c f).inputs = s.inputs := by unfold State.modCtx; split <;> rfl
@[simp] theorem State.free_modCtx (s : State) (c : Nat) (f : Ctx → Ctx) : (s.modCtx c f).free = s.free := by unfold State.modCtx; split <;> rfl
@[simp] theorem State.pause_modCtx (s : State) (c : Nat) (f : Ctx → Ctx) : (s.modCtx c f).pause = s.pause := by unfold State.modCtx; split <;> rfl
@[simp] theorem State.args_modCtx (s : State) (c : Nat) (f : Ctx → Ctx) : (s.modCtx c f).args = s.args := by unfold State.modCtx; split <;> rfl
@[simp] theorem State.time_modCtx (s : State) (c : Nat) (f : Ctx → Ctx) : (s.modCtx c f).time = s.time := by unfold State.modCtx; split <;> rfl
@[simp] theorem State.mem_modCtx (s : State) (c : Nat) (f : Ctx → Ctx) : (s.modCtx c f).mem = s.mem := by unfold State.modCtx; split <;> rfl
@[simp] theorem State.acts_modCtx (s : State) (c : Nat) (f : Ctx → Ctx) : (s.modCtx c f).acts = s.acts := by unfold State.modCtx; split <;> rfl
@[simp] theorem State.foreseen_modCtx (s : State) (c : Nat) (f : Ctx → Ctx) : (s.modCtx c f).foreseen = s.foreseen := by unfold State.modCtx; split <;> rfl
@[simp] theorem State.tags_modCtx (s : State) (c : Nat) (f : Ctx → Ctx) : (s.modCtx c f).tags = s.tags := by unfold State.modCtx; split <;> rfl
@[simp] theorem State.lines_modCtx (s : State) (c : Nat) (f : Ctx → Ctx) : (s.modCtx c f).lines = s.lines := by unfold State.modCtx; split <;> rfl
@[simp] theorem State.writeQ_modCtx (s : State) (c : Nat) (f : Ctx → Ctx) : (s.modCtx c f).writeQ = s.writeQ := by unfold State.modCtx; split <;> rfl
@[simp] theorem State.compr_modCtx (s : State) (c : Nat) (f : Ctx → Ctx) : (s.modCtx c f).compr = s.compr := by unfold State.modCtx; split <;> rfl
@[simp] theorem State.xlat_modCtx (s : State) (c : Nat) (f : Ctx → Ctx) : (s.modCtx c f).xlat = s.xlat := by unfold State.modCtx; split <;> rfl
@[simp] theorem State.otab_modCtx (s : State) (c : Nat) (f : Ctx → Ctx) : (s.modCtx c f).otab = s.otab := by unfold State.modCtx; split <;> rfl
@[simp] theorem State.ptab_modCtx (s : State) (c : Nat) (f : Ctx → Ctx) : (s.modCtx c f).ptab = s.ptab := by unfold State.modCtx; split <;> rfl
@[simp] theorem State.htab_modCtx (s : State) (c : Nat) (f : Ctx → Ctx) : (s.modCtx c f).htab = s.htab := by unfold State.modCtx; split <;> rfl
@[simp] theorem State.padtab_modCtx (s : State) (c : Nat) (f : Ctx → Ctx) : (s.modCtx c f).padtab = s.padtab := by unfold State.modCtx; split <;> rfl
@[simp] theorem State.oldTabs_modCtx (s : State) (c : Nat) (f : Ctx → Ctx) : (s.modCtx c f).oldTabs = s.oldTabs := by unfold State.modCtx; split <;> rfl
@[simp] theorem State.descs_modCtx (s : State) (c : Nat) (f : Ctx → Ctx) : (s.modCtx c f).descs = s.descs := by unfold State.modCtx; split <;> rfl
@[simp] theorem State.clearing_modCtx (s : State) (c : Nat) (f : Ctx → Ctx) : (s.modCtx c f).clearing = s.clearing := by unfold State.modCtx; split <;> rfl
@[simp] theorem State.lost_modCtx (s : State) (c : Nat) (f : Ctx → Ctx) : (s.modCtx c f).lost = s.lost := by unfold State.modCtx; split <;> rfl
@[simp] theorem State.phases_modCtx (s : State) (c : Nat) (f : Ctx → Ctx) : (s.modCtx c f).phases = s.phases := by unfold State.modCtx; split <;> rfl
@[simp] theorem State.waiting_modCtx (s : State) (c : Nat) (f : Ctx → Ctx) : (s.modCtx c f).waiting = s.waiting := by unfold State.modCtx; split <;> rfl
@[simp] theorem State.returning_modCtx (s : State) (c : Nat) (f : Ctx → Ctx) : (s.modCtx c f).returning = s.returning := by unfold State.modCtx; split <;> rfl
@[simp] theorem State.lanes_modCtx (s : State) (c : Nat) (f : Ctx → Ctx) : (s.modCtx c f).lanes = s.lanes := by unfold State.modCtx; split <;> rfl
@[simp] theorem State.order_modCtx (s : State) (c : Nat) (f : Ctx → Ctx) : (s.modCtx c f).order = s.order := by unfold State.modCtx; split <;> rfl
@[simp] theorem State.pens_modCtx (s : State) (c : Nat) (f : Ctx → Ctx) : (s.modCtx c f).pens = s.pens := by unfold State.modCtx; split <;> rfl
@[simp] theorem State.schcfg_modCtx (s : State) (c : Nat) (f : Ctx → Ctx) : (s.modCtx c f).schcfg = s.schcfg := by unfold State.modCtx; split <;> rfl
@[simp] theorem State.folds_modCtx (s : State) (c : Nat) (f : Ctx → Ctx) : (s.modCtx c f).folds = s.folds := by unfold State.modCtx; split <;> rfl
@[simp] theorem State.handles_modCtx (s : State) (c : Nat) (f : Ctx → Ctx) : (s.modCtx c f).handles = s.handles := by unfold State.modCtx; split <;> rfl
@[simp] theorem State.drover0_modCtx (s : State) (c : Nat) (f : Ctx → Ctx) : (s.modCtx c f).drover0 = s.drover0 := by unfold State.modCtx; split <;> rfl
@[simp] theorem State.drover1_modCtx (s : State) (c : Nat) (f : Ctx → Ctx) : (s.modCtx c f).drover1 = s.drover1 := by unfold State.modCtx; split <;> rfl
@[simp] theorem State.parts_modCtx (s : State) (c : Nat) (f : Ctx → Ctx) : (s.modCtx c f).parts = s.parts := by unfold State.modCtx; split <;> rfl
@[simp] theorem State.tracked_modCtx (s : State) (c : Nat) (f : Ctx → Ctx) : (s.modCtx c f).tracked = s.tracked := by unfold State.modCtx; split <;> rfl
@[simp] theorem State.queues_modCtx (s : State) (c : Nat) (f : Ctx → Ctx) : (s.modCtx c f).queues = s.queues := by unfold State.modCtx; split <;> rfl
@[simp] theorem State.delivered_modCtx (s : State) (c : Nat) (f : Ctx → Ctx) : (s.modCtx c f).delivered = s.delivered := by unfold State.modCtx; split <;> rfl
@[simp] theorem State.hubEvents_modCtx (s : State) (c : Nat) (f : Ctx → Ctx) : (s.modCtx c f).hubEvents = s.hubEvents := by unfold State.modCtx; split <;> rfl
@[simp] theorem State.recorder_modCtx (s : State) (c : Nat) (f : Ctx → Ctx) : (s.modCtx c f).recorder = s.recorder := by unfold State.modCtx; split <;> rfl
@[simp] theorem State.conns_modCtx (s : State) (c : Nat) (f : Ctx → Ctx) : (s.modCtx c f).conns = s.conns := by unfold State.modCtx; split <;> rfl
@[simp] theorem State.ports_modCtx (s : State) (c : Nat) (f : Ctx → Ctx) : (s.modCtx c f).ports = s.ports := by unfold State.modCtx; split <;> rfl
@[simp] theorem State.links_modCtx (s : State) (c : Nat) (f : Ctx → Ctx) : (s.modCtx c f).links = s.links := by unfold State.modCtx; split <;> rfl
@[simp] theorem State.cellars_modCtx (s : State) (c : Nat) (f : Ctx → Ctx) : (s.modCtx c f).cellars = s.cellars := by unfold State.modCtx; split <;> rfl
@[simp] theorem State.arbiter_modCtx (s : State) (c : Nat) (f : Ctx → Ctx) : (s.modCtx c f).arbiter = s.arbiter := by unfold State.modCtx; split <;> rfl
@[simp] theorem State.tailsSeen_modCtx (s : State) (c : Nat) (f : Ctx → Ctx) : (s.modCtx c f).tailsSeen = s.tailsSeen := by unfold State.modCtx; split <;> rfl
@[simp] theorem State.wakesSeen_modCtx (s : State) (c : Nat) (f : Ctx → Ctx) : (s.modCtx c f).wakesSeen = s.wakesSeen := by unfold State.modCtx; split <;> rfl
@[simp] theorem State.counted_modCtx (s : State) (c : Nat) (f : Ctx → Ctx) : (s.modCtx c f).counted = s.counted := by unfold State.modCtx; split <;> rfl
@[simp] theorem State.boot_modCtx (s : State) (c : Nat) (f : Ctx → Ctx) : (s.modCtx c f).boot = s.boot := by unfold State.modCtx; split <;> rfl
@[simp] theorem State.bootCount_modCtx (s : State) (c : Nat) (f : Ctx → Ctx) : (s.modCtx c f).bootCount = s.bootCount := by unfold State.modCtx; split <;> rfl
@[simp] theorem State.attest_modCtx (s : State) (c : Nat) (f : Ctx → Ctx) : (s.modCtx c f).attest = s.attest := by unfold State.modCtx; split <;> rfl
@[simp] theorem State.svn_modCtx (s : State) (c : Nat) (f : Ctx → Ctx) : (s.modCtx c f).svn = s.svn := by unfold State.modCtx; split <;> rfl
@[simp] theorem State.peers_modCtx (s : State) (c : Nat) (f : Ctx → Ctx) : (s.modCtx c f).peers = s.peers := by unfold State.modCtx; split <;> rfl
@[simp] theorem State.egress_modCtx (s : State) (c : Nat) (f : Ctx → Ctx) : (s.modCtx c f).egress = s.egress := by unfold State.modCtx; split <;> rfl
@[simp] theorem State.policy_modCtx (s : State) (c : Nat) (f : Ctx → Ctx) : (s.modCtx c f).policy = s.policy := by unfold State.modCtx; split <;> rfl
@[simp] theorem State.health_modCtx (s : State) (c : Nat) (f : Ctx → Ctx) : (s.modCtx c f).health = s.health := by unfold State.modCtx; split <;> rfl
@[simp] theorem State.watchdog_modCtx (s : State) (c : Nat) (f : Ctx → Ctx) : (s.modCtx c f).watchdog = s.watchdog := by unfold State.modCtx; split <;> rfl

@[simp] theorem State.turn_modCur (s : State) (f : Ctx → Ctx) : (s.modCur f).turn = s.turn := s.turn_modCtx s.turn f
@[simp] theorem State.inputs_modCur (s : State) (f : Ctx → Ctx) : (s.modCur f).inputs = s.inputs := s.inputs_modCtx s.turn f
@[simp] theorem State.free_modCur (s : State) (f : Ctx → Ctx) : (s.modCur f).free = s.free := s.free_modCtx s.turn f
@[simp] theorem State.pause_modCur (s : State) (f : Ctx → Ctx) : (s.modCur f).pause = s.pause := s.pause_modCtx s.turn f
@[simp] theorem State.args_modCur (s : State) (f : Ctx → Ctx) : (s.modCur f).args = s.args := s.args_modCtx s.turn f
@[simp] theorem State.time_modCur (s : State) (f : Ctx → Ctx) : (s.modCur f).time = s.time := s.time_modCtx s.turn f
@[simp] theorem State.mem_modCur (s : State) (f : Ctx → Ctx) : (s.modCur f).mem = s.mem := s.mem_modCtx s.turn f
@[simp] theorem State.acts_modCur (s : State) (f : Ctx → Ctx) : (s.modCur f).acts = s.acts := s.acts_modCtx s.turn f
@[simp] theorem State.foreseen_modCur (s : State) (f : Ctx → Ctx) : (s.modCur f).foreseen = s.foreseen := s.foreseen_modCtx s.turn f
@[simp] theorem State.tags_modCur (s : State) (f : Ctx → Ctx) : (s.modCur f).tags = s.tags := s.tags_modCtx s.turn f
@[simp] theorem State.lines_modCur (s : State) (f : Ctx → Ctx) : (s.modCur f).lines = s.lines := s.lines_modCtx s.turn f
@[simp] theorem State.writeQ_modCur (s : State) (f : Ctx → Ctx) : (s.modCur f).writeQ = s.writeQ := s.writeQ_modCtx s.turn f
@[simp] theorem State.compr_modCur (s : State) (f : Ctx → Ctx) : (s.modCur f).compr = s.compr := s.compr_modCtx s.turn f
@[simp] theorem State.xlat_modCur (s : State) (f : Ctx → Ctx) : (s.modCur f).xlat = s.xlat := s.xlat_modCtx s.turn f
@[simp] theorem State.otab_modCur (s : State) (f : Ctx → Ctx) : (s.modCur f).otab = s.otab := s.otab_modCtx s.turn f
@[simp] theorem State.ptab_modCur (s : State) (f : Ctx → Ctx) : (s.modCur f).ptab = s.ptab := s.ptab_modCtx s.turn f
@[simp] theorem State.htab_modCur (s : State) (f : Ctx → Ctx) : (s.modCur f).htab = s.htab := s.htab_modCtx s.turn f
@[simp] theorem State.padtab_modCur (s : State) (f : Ctx → Ctx) : (s.modCur f).padtab = s.padtab := s.padtab_modCtx s.turn f
@[simp] theorem State.oldTabs_modCur (s : State) (f : Ctx → Ctx) : (s.modCur f).oldTabs = s.oldTabs := s.oldTabs_modCtx s.turn f
@[simp] theorem State.descs_modCur (s : State) (f : Ctx → Ctx) : (s.modCur f).descs = s.descs := s.descs_modCtx s.turn f
@[simp] theorem State.clearing_modCur (s : State) (f : Ctx → Ctx) : (s.modCur f).clearing = s.clearing := s.clearing_modCtx s.turn f
@[simp] theorem State.lost_modCur (s : State) (f : Ctx → Ctx) : (s.modCur f).lost = s.lost := s.lost_modCtx s.turn f
@[simp] theorem State.phases_modCur (s : State) (f : Ctx → Ctx) : (s.modCur f).phases = s.phases := s.phases_modCtx s.turn f
@[simp] theorem State.waiting_modCur (s : State) (f : Ctx → Ctx) : (s.modCur f).waiting = s.waiting := s.waiting_modCtx s.turn f
@[simp] theorem State.returning_modCur (s : State) (f : Ctx → Ctx) : (s.modCur f).returning = s.returning := s.returning_modCtx s.turn f
@[simp] theorem State.lanes_modCur (s : State) (f : Ctx → Ctx) : (s.modCur f).lanes = s.lanes := s.lanes_modCtx s.turn f
@[simp] theorem State.order_modCur (s : State) (f : Ctx → Ctx) : (s.modCur f).order = s.order := s.order_modCtx s.turn f
@[simp] theorem State.pens_modCur (s : State) (f : Ctx → Ctx) : (s.modCur f).pens = s.pens := s.pens_modCtx s.turn f
@[simp] theorem State.schcfg_modCur (s : State) (f : Ctx → Ctx) : (s.modCur f).schcfg = s.schcfg := s.schcfg_modCtx s.turn f
@[simp] theorem State.folds_modCur (s : State) (f : Ctx → Ctx) : (s.modCur f).folds = s.folds := s.folds_modCtx s.turn f
@[simp] theorem State.handles_modCur (s : State) (f : Ctx → Ctx) : (s.modCur f).handles = s.handles := s.handles_modCtx s.turn f
@[simp] theorem State.drover0_modCur (s : State) (f : Ctx → Ctx) : (s.modCur f).drover0 = s.drover0 := s.drover0_modCtx s.turn f
@[simp] theorem State.drover1_modCur (s : State) (f : Ctx → Ctx) : (s.modCur f).drover1 = s.drover1 := s.drover1_modCtx s.turn f
@[simp] theorem State.parts_modCur (s : State) (f : Ctx → Ctx) : (s.modCur f).parts = s.parts := s.parts_modCtx s.turn f
@[simp] theorem State.tracked_modCur (s : State) (f : Ctx → Ctx) : (s.modCur f).tracked = s.tracked := s.tracked_modCtx s.turn f
@[simp] theorem State.queues_modCur (s : State) (f : Ctx → Ctx) : (s.modCur f).queues = s.queues := s.queues_modCtx s.turn f
@[simp] theorem State.delivered_modCur (s : State) (f : Ctx → Ctx) : (s.modCur f).delivered = s.delivered := s.delivered_modCtx s.turn f
@[simp] theorem State.hubEvents_modCur (s : State) (f : Ctx → Ctx) : (s.modCur f).hubEvents = s.hubEvents := s.hubEvents_modCtx s.turn f
@[simp] theorem State.recorder_modCur (s : State) (f : Ctx → Ctx) : (s.modCur f).recorder = s.recorder := s.recorder_modCtx s.turn f
@[simp] theorem State.conns_modCur (s : State) (f : Ctx → Ctx) : (s.modCur f).conns = s.conns := s.conns_modCtx s.turn f
@[simp] theorem State.ports_modCur (s : State) (f : Ctx → Ctx) : (s.modCur f).ports = s.ports := s.ports_modCtx s.turn f
@[simp] theorem State.links_modCur (s : State) (f : Ctx → Ctx) : (s.modCur f).links = s.links := s.links_modCtx s.turn f
@[simp] theorem State.cellars_modCur (s : State) (f : Ctx → Ctx) : (s.modCur f).cellars = s.cellars := s.cellars_modCtx s.turn f
@[simp] theorem State.arbiter_modCur (s : State) (f : Ctx → Ctx) : (s.modCur f).arbiter = s.arbiter := s.arbiter_modCtx s.turn f
@[simp] theorem State.tailsSeen_modCur (s : State) (f : Ctx → Ctx) : (s.modCur f).tailsSeen = s.tailsSeen := s.tailsSeen_modCtx s.turn f
@[simp] theorem State.wakesSeen_modCur (s : State) (f : Ctx → Ctx) : (s.modCur f).wakesSeen = s.wakesSeen := s.wakesSeen_modCtx s.turn f
@[simp] theorem State.counted_modCur (s : State) (f : Ctx → Ctx) : (s.modCur f).counted = s.counted := s.counted_modCtx s.turn f
@[simp] theorem State.boot_modCur (s : State) (f : Ctx → Ctx) : (s.modCur f).boot = s.boot := s.boot_modCtx s.turn f
@[simp] theorem State.bootCount_modCur (s : State) (f : Ctx → Ctx) : (s.modCur f).bootCount = s.bootCount := s.bootCount_modCtx s.turn f
@[simp] theorem State.attest_modCur (s : State) (f : Ctx → Ctx) : (s.modCur f).attest = s.attest := s.attest_modCtx s.turn f
@[simp] theorem State.svn_modCur (s : State) (f : Ctx → Ctx) : (s.modCur f).svn = s.svn := s.svn_modCtx s.turn f
@[simp] theorem State.peers_modCur (s : State) (f : Ctx → Ctx) : (s.modCur f).peers = s.peers := s.peers_modCtx s.turn f
@[simp] theorem State.egress_modCur (s : State) (f : Ctx → Ctx) : (s.modCur f).egress = s.egress := s.egress_modCtx s.turn f
@[simp] theorem State.policy_modCur (s : State) (f : Ctx → Ctx) : (s.modCur f).policy = s.policy := s.policy_modCtx s.turn f
@[simp] theorem State.health_modCur (s : State) (f : Ctx → Ctx) : (s.modCur f).health = s.health := s.health_modCtx s.turn f
@[simp] theorem State.watchdog_modCur (s : State) (f : Ctx → Ctx) : (s.modCur f).watchdog = s.watchdog := s.watchdog_modCtx s.turn f

@[simp] theorem State.turn_modCore (s : State) (c : Nat) (f : Core → Core) : (s.modCore c f).turn = s.turn := rfl
@[simp] theorem State.inputs_modCore (s : State) (c : Nat) (f : Core → Core) : (s.modCore c f).inputs = s.inputs := rfl
@[simp] theorem State.free_modCore (s : State) (c : Nat) (f : Core → Core) : (s.modCore c f).free = s.free := rfl
@[simp] theorem State.pause_modCore (s : State) (c : Nat) (f : Core → Core) : (s.modCore c f).pause = s.pause := rfl
@[simp] theorem State.args_modCore (s : State) (c : Nat) (f : Core → Core) : (s.modCore c f).args = s.args := rfl
@[simp] theorem State.time_modCore (s : State) (c : Nat) (f : Core → Core) : (s.modCore c f).time = s.time := rfl
@[simp] theorem State.mem_modCore (s : State) (c : Nat) (f : Core → Core) : (s.modCore c f).mem = s.mem := rfl
@[simp] theorem State.acts_modCore (s : State) (c : Nat) (f : Core → Core) : (s.modCore c f).acts = s.acts := rfl
@[simp] theorem State.foreseen_modCore (s : State) (c : Nat) (f : Core → Core) : (s.modCore c f).foreseen = s.foreseen := rfl
@[simp] theorem State.tags_modCore (s : State) (c : Nat) (f : Core → Core) : (s.modCore c f).tags = s.tags := rfl
@[simp] theorem State.lines_modCore (s : State) (c : Nat) (f : Core → Core) : (s.modCore c f).lines = s.lines := rfl
@[simp] theorem State.writeQ_modCore (s : State) (c : Nat) (f : Core → Core) : (s.modCore c f).writeQ = s.writeQ := rfl
@[simp] theorem State.compr_modCore (s : State) (c : Nat) (f : Core → Core) : (s.modCore c f).compr = s.compr := rfl
@[simp] theorem State.xlat_modCore (s : State) (c : Nat) (f : Core → Core) : (s.modCore c f).xlat = s.xlat := rfl
@[simp] theorem State.otab_modCore (s : State) (c : Nat) (f : Core → Core) : (s.modCore c f).otab = s.otab := rfl
@[simp] theorem State.ptab_modCore (s : State) (c : Nat) (f : Core → Core) : (s.modCore c f).ptab = s.ptab := rfl
@[simp] theorem State.htab_modCore (s : State) (c : Nat) (f : Core → Core) : (s.modCore c f).htab = s.htab := rfl
@[simp] theorem State.padtab_modCore (s : State) (c : Nat) (f : Core → Core) : (s.modCore c f).padtab = s.padtab := rfl
@[simp] theorem State.oldTabs_modCore (s : State) (c : Nat) (f : Core → Core) : (s.modCore c f).oldTabs = s.oldTabs := rfl
@[simp] theorem State.descs_modCore (s : State) (c : Nat) (f : Core → Core) : (s.modCore c f).descs = s.descs := rfl
@[simp] theorem State.clearing_modCore (s : State) (c : Nat) (f : Core → Core) : (s.modCore c f).clearing = s.clearing := rfl
@[simp] theorem State.lost_modCore (s : State) (c : Nat) (f : Core → Core) : (s.modCore c f).lost = s.lost := rfl
@[simp] theorem State.phases_modCore (s : State) (c : Nat) (f : Core → Core) : (s.modCore c f).phases = s.phases := rfl
@[simp] theorem State.waiting_modCore (s : State) (c : Nat) (f : Core → Core) : (s.modCore c f).waiting = s.waiting := rfl
@[simp] theorem State.returning_modCore (s : State) (c : Nat) (f : Core → Core) : (s.modCore c f).returning = s.returning := rfl
@[simp] theorem State.lanes_modCore (s : State) (c : Nat) (f : Core → Core) : (s.modCore c f).lanes = s.lanes := rfl
@[simp] theorem State.order_modCore (s : State) (c : Nat) (f : Core → Core) : (s.modCore c f).order = s.order := rfl
@[simp] theorem State.pens_modCore (s : State) (c : Nat) (f : Core → Core) : (s.modCore c f).pens = s.pens := rfl
@[simp] theorem State.schcfg_modCore (s : State) (c : Nat) (f : Core → Core) : (s.modCore c f).schcfg = s.schcfg := rfl
@[simp] theorem State.folds_modCore (s : State) (c : Nat) (f : Core → Core) : (s.modCore c f).folds = s.folds := rfl
@[simp] theorem State.handles_modCore (s : State) (c : Nat) (f : Core → Core) : (s.modCore c f).handles = s.handles := rfl
@[simp] theorem State.drover0_modCore (s : State) (c : Nat) (f : Core → Core) : (s.modCore c f).drover0 = s.drover0 := rfl
@[simp] theorem State.drover1_modCore (s : State) (c : Nat) (f : Core → Core) : (s.modCore c f).drover1 = s.drover1 := rfl
@[simp] theorem State.parts_modCore (s : State) (c : Nat) (f : Core → Core) : (s.modCore c f).parts = s.parts := rfl
@[simp] theorem State.tracked_modCore (s : State) (c : Nat) (f : Core → Core) : (s.modCore c f).tracked = s.tracked := rfl
@[simp] theorem State.queues_modCore (s : State) (c : Nat) (f : Core → Core) : (s.modCore c f).queues = s.queues := rfl
@[simp] theorem State.delivered_modCore (s : State) (c : Nat) (f : Core → Core) : (s.modCore c f).delivered = s.delivered := rfl
@[simp] theorem State.hubEvents_modCore (s : State) (c : Nat) (f : Core → Core) : (s.modCore c f).hubEvents = s.hubEvents := rfl
@[simp] theorem State.recorder_modCore (s : State) (c : Nat) (f : Core → Core) : (s.modCore c f).recorder = s.recorder := rfl
@[simp] theorem State.conns_modCore (s : State) (c : Nat) (f : Core → Core) : (s.modCore c f).conns = s.conns := rfl
@[simp] theorem State.ports_modCore (s : State) (c : Nat) (f : Core → Core) : (s.modCore c f).ports = s.ports := rfl
@[simp] theorem State.links_modCore (s : State) (c : Nat) (f : Core → Core) : (s.modCore c f).links = s.links := rfl
@[simp] theorem State.cellars_modCore (s : State) (c : Nat) (f : Core → Core) : (s.modCore c f).cellars = s.cellars := rfl
@[simp] theorem State.arbiter_modCore (s : State) (c : Nat) (f : Core → Core) : (s.modCore c f).arbiter = s.arbiter := rfl
@[simp] theorem State.tailsSeen_modCore (s : State) (c : Nat) (f : Core → Core) : (s.modCore c f).tailsSeen = s.tailsSeen := rfl
@[simp] theorem State.wakesSeen_modCore (s : State) (c : Nat) (f : Core → Core) : (s.modCore c f).wakesSeen = s.wakesSeen := rfl
@[simp] theorem State.counted_modCore (s : State) (c : Nat) (f : Core → Core) : (s.modCore c f).counted = s.counted := rfl
@[simp] theorem State.boot_modCore (s : State) (c : Nat) (f : Core → Core) : (s.modCore c f).boot = s.boot := rfl
@[simp] theorem State.bootCount_modCore (s : State) (c : Nat) (f : Core → Core) : (s.modCore c f).bootCount = s.bootCount := rfl
@[simp] theorem State.attest_modCore (s : State) (c : Nat) (f : Core → Core) : (s.modCore c f).attest = s.attest := rfl
@[simp] theorem State.svn_modCore (s : State) (c : Nat) (f : Core → Core) : (s.modCore c f).svn = s.svn := rfl
@[simp] theorem State.peers_modCore (s : State) (c : Nat) (f : Core → Core) : (s.modCore c f).peers = s.peers := rfl
@[simp] theorem State.egress_modCore (s : State) (c : Nat) (f : Core → Core) : (s.modCore c f).egress = s.egress := rfl
@[simp] theorem State.policy_modCore (s : State) (c : Nat) (f : Core → Core) : (s.modCore c f).policy = s.policy := rfl
@[simp] theorem State.health_modCore (s : State) (c : Nat) (f : Core → Core) : (s.modCore c f).health = s.health := rfl
@[simp] theorem State.watchdog_modCore (s : State) (c : Nat) (f : Core → Core) : (s.modCore c f).watchdog = s.watchdog := rfl

@[simp] theorem State.turn_launch (s : State) (w : Fly) : (s.launch w).turn = s.turn := s.turn_modCur _
@[simp] theorem State.inputs_launch (s : State) (w : Fly) : (s.launch w).inputs = s.inputs := s.inputs_modCur _
@[simp] theorem State.free_launch (s : State) (w : Fly) : (s.launch w).free = s.free := s.free_modCur _
@[simp] theorem State.pause_launch (s : State) (w : Fly) : (s.launch w).pause = s.pause := s.pause_modCur _
@[simp] theorem State.args_launch (s : State) (w : Fly) : (s.launch w).args = s.args := s.args_modCur _
@[simp] theorem State.time_launch (s : State) (w : Fly) : (s.launch w).time = s.time := s.time_modCur _
@[simp] theorem State.mem_launch (s : State) (w : Fly) : (s.launch w).mem = s.mem := s.mem_modCur _
@[simp] theorem State.acts_launch (s : State) (w : Fly) : (s.launch w).acts = s.acts := s.acts_modCur _
@[simp] theorem State.foreseen_launch (s : State) (w : Fly) : (s.launch w).foreseen = s.foreseen := s.foreseen_modCur _
@[simp] theorem State.tags_launch (s : State) (w : Fly) : (s.launch w).tags = s.tags := s.tags_modCur _
@[simp] theorem State.lines_launch (s : State) (w : Fly) : (s.launch w).lines = s.lines := s.lines_modCur _
@[simp] theorem State.writeQ_launch (s : State) (w : Fly) : (s.launch w).writeQ = s.writeQ := s.writeQ_modCur _
@[simp] theorem State.compr_launch (s : State) (w : Fly) : (s.launch w).compr = s.compr := s.compr_modCur _
@[simp] theorem State.xlat_launch (s : State) (w : Fly) : (s.launch w).xlat = s.xlat := s.xlat_modCur _
@[simp] theorem State.otab_launch (s : State) (w : Fly) : (s.launch w).otab = s.otab := s.otab_modCur _
@[simp] theorem State.ptab_launch (s : State) (w : Fly) : (s.launch w).ptab = s.ptab := s.ptab_modCur _
@[simp] theorem State.htab_launch (s : State) (w : Fly) : (s.launch w).htab = s.htab := s.htab_modCur _
@[simp] theorem State.padtab_launch (s : State) (w : Fly) : (s.launch w).padtab = s.padtab := s.padtab_modCur _
@[simp] theorem State.oldTabs_launch (s : State) (w : Fly) : (s.launch w).oldTabs = s.oldTabs := s.oldTabs_modCur _
@[simp] theorem State.descs_launch (s : State) (w : Fly) : (s.launch w).descs = s.descs := s.descs_modCur _
@[simp] theorem State.clearing_launch (s : State) (w : Fly) : (s.launch w).clearing = s.clearing := s.clearing_modCur _
@[simp] theorem State.lost_launch (s : State) (w : Fly) : (s.launch w).lost = s.lost := s.lost_modCur _
@[simp] theorem State.phases_launch (s : State) (w : Fly) : (s.launch w).phases = s.phases := s.phases_modCur _
@[simp] theorem State.waiting_launch (s : State) (w : Fly) : (s.launch w).waiting = s.waiting := s.waiting_modCur _
@[simp] theorem State.returning_launch (s : State) (w : Fly) : (s.launch w).returning = s.returning := s.returning_modCur _
@[simp] theorem State.lanes_launch (s : State) (w : Fly) : (s.launch w).lanes = s.lanes := s.lanes_modCur _
@[simp] theorem State.order_launch (s : State) (w : Fly) : (s.launch w).order = s.order := s.order_modCur _
@[simp] theorem State.pens_launch (s : State) (w : Fly) : (s.launch w).pens = s.pens := s.pens_modCur _
@[simp] theorem State.schcfg_launch (s : State) (w : Fly) : (s.launch w).schcfg = s.schcfg := s.schcfg_modCur _
@[simp] theorem State.folds_launch (s : State) (w : Fly) : (s.launch w).folds = s.folds := s.folds_modCur _
@[simp] theorem State.handles_launch (s : State) (w : Fly) : (s.launch w).handles = s.handles := s.handles_modCur _
@[simp] theorem State.drover0_launch (s : State) (w : Fly) : (s.launch w).drover0 = s.drover0 := s.drover0_modCur _
@[simp] theorem State.drover1_launch (s : State) (w : Fly) : (s.launch w).drover1 = s.drover1 := s.drover1_modCur _
@[simp] theorem State.parts_launch (s : State) (w : Fly) : (s.launch w).parts = s.parts := s.parts_modCur _
@[simp] theorem State.tracked_launch (s : State) (w : Fly) : (s.launch w).tracked = s.tracked := s.tracked_modCur _
@[simp] theorem State.queues_launch (s : State) (w : Fly) : (s.launch w).queues = s.queues := s.queues_modCur _
@[simp] theorem State.delivered_launch (s : State) (w : Fly) : (s.launch w).delivered = s.delivered := s.delivered_modCur _
@[simp] theorem State.hubEvents_launch (s : State) (w : Fly) : (s.launch w).hubEvents = s.hubEvents := s.hubEvents_modCur _
@[simp] theorem State.recorder_launch (s : State) (w : Fly) : (s.launch w).recorder = s.recorder := s.recorder_modCur _
@[simp] theorem State.conns_launch (s : State) (w : Fly) : (s.launch w).conns = s.conns := s.conns_modCur _
@[simp] theorem State.ports_launch (s : State) (w : Fly) : (s.launch w).ports = s.ports := s.ports_modCur _
@[simp] theorem State.links_launch (s : State) (w : Fly) : (s.launch w).links = s.links := s.links_modCur _
@[simp] theorem State.cellars_launch (s : State) (w : Fly) : (s.launch w).cellars = s.cellars := s.cellars_modCur _
@[simp] theorem State.arbiter_launch (s : State) (w : Fly) : (s.launch w).arbiter = s.arbiter := s.arbiter_modCur _
@[simp] theorem State.tailsSeen_launch (s : State) (w : Fly) : (s.launch w).tailsSeen = s.tailsSeen := s.tailsSeen_modCur _
@[simp] theorem State.wakesSeen_launch (s : State) (w : Fly) : (s.launch w).wakesSeen = s.wakesSeen := s.wakesSeen_modCur _
@[simp] theorem State.counted_launch (s : State) (w : Fly) : (s.launch w).counted = s.counted := s.counted_modCur _
@[simp] theorem State.boot_launch (s : State) (w : Fly) : (s.launch w).boot = s.boot := s.boot_modCur _
@[simp] theorem State.bootCount_launch (s : State) (w : Fly) : (s.launch w).bootCount = s.bootCount := s.bootCount_modCur _
@[simp] theorem State.attest_launch (s : State) (w : Fly) : (s.launch w).attest = s.attest := s.attest_modCur _
@[simp] theorem State.svn_launch (s : State) (w : Fly) : (s.launch w).svn = s.svn := s.svn_modCur _
@[simp] theorem State.peers_launch (s : State) (w : Fly) : (s.launch w).peers = s.peers := s.peers_modCur _
@[simp] theorem State.egress_launch (s : State) (w : Fly) : (s.launch w).egress = s.egress := s.egress_modCur _
@[simp] theorem State.policy_launch (s : State) (w : Fly) : (s.launch w).policy = s.policy := s.policy_modCur _
@[simp] theorem State.health_launch (s : State) (w : Fly) : (s.launch w).health = s.health := s.health_modCur _
@[simp] theorem State.watchdog_launch (s : State) (w : Fly) : (s.launch w).watchdog = s.watchdog := s.watchdog_modCur _

end Sys2Proof.Machine
end

