-- ==== Sys2Proof/Laws/Completion.lean ====
section
/-! SUPPORT. How a slot operation's step comes out of its meaning: what `slotOp` answers, case by case. -/

namespace Sys2Proof.Machine
open Sys2Proof

/-- `slotOp` in a state in which a bundle issues: the meaning runs after the interlocks, and each of its ends gives a next state. -/
theorem slotOp_issues {i : Instr} {f : Ctx → State → Except Stop State} {s : State} {c : Ctx} (h : Issues s c) :
    slotOp i f s = .next (match f (ctxFor i c) (stateFor i s c) with
      | .ok s' => (finishSlot (slotOf i) s').tick
      | .error (.fatal k) => (fatalIn s s.turn (slotOf i).idx k).tick
      | .error (.after s' k) => (fatalIn s' s.turn (slotOf i).idx k).tick
      | .error .wait => (markWaiting s).tick
      | .error (.later s') => (markWaiting s').tick) := by
  obtain ⟨h1, h2, h3⟩ := h
  obtain ⟨b, hb⟩ := Option.isSome_iff_exists.mp h3
  simp only [slotOp, h1, h2, hb, ctxFor, stateFor, slotOf]
  split <;> simp_all

/-- `slotOp` answers a next state, or the fault of a core without a bundle in issue. -/
theorem slotOp_answers (i : Instr) (f : Ctx → State → Except Stop State) (s : State) :
    (∃ t, slotOp i f s = .next t) ∨ slotOp i f s = .fault .noContext := by
  unfold slotOp
  split
  · exact .inr rfl
  · split
    · dsimp only
      split <;> exact .inl ⟨_, rfl⟩
    · exact .inr rfl

/-- The context of the core that moves, as an operation finds it. -/
theorem ctxOf_stateFor (i : Instr) (s : State) (c : Ctx) : (stateFor i s c).ctxOf (stateFor i s c).turn = some (ctxFor i c) := by
  simp [stateFor]

/-- An operation whose meaning answers `ok` under a condition completes under it. -/
theorem does_of {i : Instr} {f : Ctx → State → Except Stop State} {pre : Ctx → State → Prop} {eff : Ctx → State → State}
    (he : ∀ s, exec i s = slotOp i f s) (hf : ∀ c s, s.ctxOf s.turn = some c → pre c s → f c s = .ok (eff c s)) : Does i pre eff := by
  intro s c h hp
  unfold Completes
  rw [he, slotOp_issues h, hf _ _ (ctxOf_stateFor i s c) hp]

/-- An operation whose meaning always answers `ok` always completes. -/
theorem alwaysDoes_of {i : Instr} {f : Ctx → State → Except Stop State} {eff : Ctx → State → State}
    (he : ∀ s, exec i s = slotOp i f s) (hf : ∀ c s, f c s = .ok (eff c s)) : AlwaysDoes i eff :=
  does_of he fun c s _ _ => hf c s

/-- An operation whose meaning ends in a fatal event under a condition ends its context with it. -/
theorem fatal_of {i : Instr} {f : Ctx → State → Except Stop State} {s : State} {c : Ctx} {k : FaultInfo} (h : Issues s c)
    (he : exec i s = slotOp i f s) (hf : f (ctxFor i c) (stateFor i s c) = .error (.fatal k)) :
    exec i s = .next (fatalIn s s.turn (slotOf i).idx k).tick := by
  rw [he, slotOp_issues h, hf]

end Sys2Proof.Machine
end

