-- ==== Sys2Proof/Laws/Decode.lean ====
section
/-! SUPPORT. Reading fields back out of a word that an encoder wrote, and what the canonical form of an operation keeps. -/

namespace Sys2Proof

/-- A word is its op6 above the 18 bits of its body. -/
theorem word_toNat (op body : Nat) (h : op < 64) (h' : body < 262144) : (word op body).toNat = op * 262144 + body := by
  simp [word]; omega

theorem fld_toNat {m : Nat} (w : BitVec m) (lo n : Nat) : (fld w lo n).toNat = w.toNat / 2 ^ lo % 2 ^ n := by simp [fld]

theorem b2n_lt (b : Bool) : b2n b < 2 := by cases b <;> decide

theorem getLsbD_toNat {m : Nat} (w : BitVec m) (k : Nat) : w.getLsbD k = decide (w.toNat / 2 ^ k % 2 = 1) := by
  rw [BitVec.getLsbD, Nat.testBit_eq_decide_div_mod_eq]

/-- A field is a value where its bits are. -/
theorem fld_eq {m n : Nat} (w : BitVec m) (lo : Nat) (v : BitVec n) (h : w.toNat / 2 ^ lo % 2 ^ n = v.toNat) : fld w lo n = v := by
  apply BitVec.eq_of_toNat_eq; rw [fld_toNat, h]

/-- A bit is a flag where its number is. -/
theorem bit_eq {m : Nat} (w : BitVec m) (k : Nat) (b : Bool) (h : w.toNat / 2 ^ k % 2 = b2n b) : w.getLsbD k = b := by
  rw [getLsbD_toNat, h]; cases b <;> rfl

/-- An operation that is told apart from its canonical form only by a staging word has the same words, slot and checks. -/
theorem Instr.canon_encode (i : Instr) : i.canon.encode = i.encode := by cases i <;> rfl

theorem Instr.canon_ext (i : Instr) : i.canon.ext = i.ext := by cases i <;> rfl

theorem Instr.canon_slot (i : Instr) : i.canon.slot = i.slot := by cases i <;> rfl

theorem Instr.canon_extSlot (i : Instr) : i.canon.extSlot = i.extSlot := by cases i <;> rfl

theorem Instr.canon_wf (i : Instr) : i.canon.wf = i.wf := by cases i <;> rfl

theorem Instr.canon_canon (i : Instr) : i.canon.canon = i.canon := by cases i <;> rfl

/-- What decodes is well formed where its decoder ends in `ok`. -/
theorem ok_some {c : Bool} {i j : Instr} (h : ok c i = some j) : c = true ∧ i.wf = true ∧ j = i := by
  unfold ok at h
  split at h
  · next hc => simp only [Option.some.injEq] at h; simp only [Bool.and_eq_true] at hc; exact ⟨hc.1, hc.2, h.symm⟩
  · cases h

end Sys2Proof
end

