-- ==== Sys2Proof/Laws/Memory.lean ====
section
/-! SUPPORT. The shared operations on memory: what each may change, and that each keeps the canonical form. -/

namespace Sys2Proof.Machine
open Sys2Proof

/-- What each step of a fold keeps, the fold keeps. -/
theorem foldl_keeps {α β : Type} (P : β → Prop) (f : β → α → β) (h : ∀ b a, P b → P (f b a)) (l : List α) (b : β) (hb : P b) : P (l.foldl f b) := by
  induction l generalizing b with
  | nil => exact hb
  | cons a l ih => exact ih _ (h b a hb)

@[simp] theorem State.note_mem (s : State) (x : Xlat) : (s.note x).mem = s.mem := by
  unfold State.note; split <;> rfl

@[simp] theorem State.setLine_mem (s : State) (l : Line) : (s.setLine l).mem = s.mem := rfl

@[simp] theorem State.dropLine_mem (s : State) (l : Line) : (s.dropLine l).mem = s.mem := rfl

@[simp] theorem State.spend_mem (s : State) (dev n : Nat) : (s.spend dev n).mem = s.mem := rfl

/-- Marking a page accessed or changed writes at most its entry's last byte (R349). -/
theorem State.wf_setAcDi (s : State) (e : ObjEnt) (o : Nat) (w : Bool) (h : Memory.wf s.mem) : Memory.wf (s.setAcDi e o w).mem := by
  unfold State.setAcDi
  split
  · exact h
  · dsimp only
    generalize (if w then _ else _) = d
    split
    · exact h
    · exact Memory.wf_mput _ _ _ h

/-- Touching the pages of a range keeps the form. -/
theorem wf_touch (s : State) (obj o n salt : Nat) (h : Memory.wf s.mem) : Memory.wf (touch s obj o n salt).mem := by
  unfold touch
  split
  · exact h
  · exact foldl_keeps (fun t : State => Memory.wf t.mem) _ (fun t pg ht => State.wf_setAcDi _ _ _ _ (by simpa using ht)) _ _ h

/-- Applying a write-queue entry keeps the form. -/
theorem Burst.wf_apply (m : List Host.Cell) (q : Burst) (h : Memory.wf m) : Memory.wf (Burst.apply m q) :=
  foldl_keeps Memory.wf _ (fun m i hm => by
    split
    · exact Memory.wf_mput _ _ _ hm
    · exact hm) _ _ h

/-- Draining write-queue entries keeps the form (R280). -/
theorem State.wf_drainIf (s : State) (p : Burst → Bool) (h : Memory.wf s.mem) : Memory.wf (s.drainIf p).mem :=
  foldl_keeps Memory.wf _ (fun _ q hm => Burst.wf_apply _ q hm) _ _ h

/-- A controller's read keeps the form (R280). -/
theorem State.wf_serveRead (s : State) (sp : List (Nat × Nat)) (h : Memory.wf s.mem) : Memory.wf (s.serveRead sp).mem := by
  unfold State.serveRead
  split
  · exact h
  · exact State.wf_drainIf _ _ h

@[simp] theorem State.evict_mem (s : State) (l : Line) : (s.evict l).mem = s.mem := by unfold State.evict; split <;> rfl
@[simp] theorem State.replace_mem (s : State) (ls : List Line) (obj ln : Nat) : (s.replace ls obj ln).1.mem = s.mem := by
  unfold State.replace; split <;> simp
/-- Making a place for a line changes no byte of memory (R208). -/
@[simp] theorem State.allot_mem (s : State) (obj ln home : Nat) : (s.allot obj ln home).1.mem = s.mem := by
  unfold State.allot
  dsimp only
  split
  · split <;> simp
  · split <;> simp
@[simp] theorem State.openLine_mem (s : State) (obj : Nat) (pe : PageEnt) (off : Nat) : (s.openLine obj pe off).1.mem = s.mem := by
  unfold State.openLine; split <;> simp

/-- Filling a sector of the L2 keeps the form: its read may drain queued bursts (R187, R280). -/
theorem wf_fillSector (s : State) (obj : Nat) (e : ObjEnt) (pe : PageEnt) (off : Nat) (h : Memory.wf s.mem) :
    Memory.wf (fillSector s obj e pe off).mem := by
  unfold fillSector
  split
  · exact h
  · simpa using State.wf_serveRead _ _ h

theorem wf_fillSpan (s : State) (obj o n salt : Nat) (h : Memory.wf s.mem) : Memory.wf (fillSpan s obj o n salt).mem := by
  unfold fillSpan
  split
  · exact h
  · exact foldl_keeps (fun t : State => Memory.wf t.mem) _ (fun t i ht => wf_fillSector _ _ _ _ _ ht) _ _ h

/-- A span of a local space has no sector to fill (R203, R204). -/
theorem fillSpan_local (s : State) (obj o n salt : Nat) (h : isLocal obj = true) : fillSpan s obj o n salt = s := by
  simp [fillSpan, h]

/-- A span of a local space has no page to touch (R349). -/
theorem touch_local (s : State) (obj o n salt : Nat) (h : isLocal obj = true) : touch s obj o n salt = s := by
  simp [touch, h]

theorem wf_putObjByte (s : State) (obj : Nat) (e : ObjEnt) (pe : PageEnt) (off : Nat) (b : Byte) (h : Memory.wf s.mem) :
    Memory.wf (putObjByte s obj e pe off b).mem := by
  unfold putObjByte
  dsimp only
  split
  · simpa using h
  · simpa using Memory.wf_mput _ _ _ h

/-- Bytes placed at their point of order keep the form (R201). -/
theorem wf_placeBytes (s : State) (obj salt : Nat) (tr : Bool) (l : List (Nat × Byte)) (h : Memory.wf s.mem) :
    Memory.wf (placeBytes s obj salt tr l).mem := by
  unfold placeBytes
  dsimp only
  split
  · exact foldl_keeps (fun t : State => Memory.wf t.mem) _ (fun t x ht => State.wf_poke _ _ _ ht) _ _ h
  · refine foldl_keeps (fun t : State => Memory.wf t.mem) _ (fun t x ht => wf_putObjByte _ _ _ _ _ _ ht) _ _ ?_
    split
    · exact foldl_keeps (fun t : State => Memory.wf t.mem) _ (fun t x ht => State.wf_setAcDi _ _ _ _ ht) _ _ h
    · exact h

theorem wf_putBytes (s : State) (obj salt : Nat) (l : List (Nat × Byte)) (h : Memory.wf s.mem) : Memory.wf (putBytes s obj salt l).mem :=
  wf_placeBytes s obj salt true l h

theorem wf_putByte (s : State) (obj o : Nat) (b : Byte) (salt : Nat) (h : Memory.wf s.mem) : Memory.wf (putByte s obj o b salt).mem :=
  wf_putBytes s obj salt [(o, b)] h

/-- Clearing a span of a local space keeps the form (R350). -/
theorem State.wf_clearSpan (s : State) (a n : Nat) (h : Memory.wf s.mem) : Memory.wf (s.clearSpan a n).mem := Memory.wf_filter _ _ h

/-- A local byte written is read back, and no other byte of memory changes (R203). -/
theorem byte_putByte_local (s : State) (obj o salt : Nat) (b : Byte) (x : Nat) (h : isLocal obj = true) :
    (putByte s obj o b salt).byte x = if x = spaceAddr obj o then b else s.byte x := by
  simp only [putByte, putBytes, placeBytes, h, if_true, List.foldl]
  exact State.byte_poke _ _ _ _

/-! ### What touching leaves alone -/

@[simp] theorem State.note_turn (s : State) (x : Xlat) : (s.note x).turn = s.turn := by unfold State.note; split <;> rfl
@[simp] theorem State.note_cores (s : State) (x : Xlat) : (s.note x).cores = s.cores := by unfold State.note; split <;> rfl
@[simp] theorem State.setAcDi_turn (s : State) (e : ObjEnt) (o : Nat) (w : Bool) : (s.setAcDi e o w).turn = s.turn := by
  unfold State.setAcDi; split; · rfl
  · dsimp only; generalize (if w then _ else _) = d; split <;> rfl
@[simp] theorem State.setAcDi_cores (s : State) (e : ObjEnt) (o : Nat) (w : Bool) : (s.setAcDi e o w).cores = s.cores := by
  unfold State.setAcDi; split; · rfl
  · dsimp only; generalize (if w then _ else _) = d; split <;> rfl

/-- Touching the pages of a range changes no core and not whose turn it is. -/
theorem touch_cores (s : State) (obj o n salt : Nat) : (touch s obj o n salt).turn = s.turn ∧ (touch s obj o n salt).cores = s.cores := by
  unfold touch
  split
  · exact ⟨rfl, rfl⟩
  · exact foldl_keeps (fun t : State => t.turn = s.turn ∧ t.cores = s.cores) _ (fun t pg ht => by simpa using ht) _ _ ⟨rfl, rfl⟩

@[simp] theorem touch_turn (s : State) (obj o n salt : Nat) : (touch s obj o n salt).turn = s.turn := (touch_cores s obj o n salt).1

@[simp] theorem touch_ctxOf (s : State) (obj o n salt c : Nat) : (touch s obj o n salt).ctxOf c = s.ctxOf c := by
  simp only [State.ctxOf, State.core, (touch_cores s obj o n salt).2]

end Sys2Proof.Machine
end

