-- ==== Sys2Proof/Tests/Bench.lean ====
section
/-! SUPPORT. The small machine that the tests and witnesses run on. -/

namespace Sys2Proof.Tests
open Sys2Proof Sys2Proof.Machine Sys2Proof.Claims

set_option Elab.async false


/-- A statement says `Does i pre eff`, and this state with this context issuing meets `pre`. -/
def Met (claim : Prop) (i : Instr) (s : State) (c : Ctx) : Prop :=
  ∃ (pre : Ctx → State → Prop) (eff : Ctx → State → State), (claim → Does i pre eff) ∧ Issues s c ∧ pre (ctxFor i c) (stateFor i s c)

/-- Whether a check passes. -/
def isOk {α : Type} (e : Except Stop α) : Bool := match e with
  | .ok _ => true
  | .error _ => false

theorem ok_of_isOk {e : Except Stop Unit} (h : isOk e = true) : e = .ok () := by
  cases e <;> simp_all [isOk]

theorem exists_of_isOk {α : Type} {e : Except Stop α} (h : isOk e = true) : ∃ t, e = .ok t := by
  cases e <;> simp_all [isOk]

theorem ok_iff {e : Except Stop Unit} : e = .ok () ↔ isOk e = true := by
  cases e <;> simp [isOk]

theorem exists_ok_iff {α : Type} {e : Except Stop α} : (∃ t, e = .ok t) ↔ isOk e = true := by
  cases e <;> simp [isOk]

/-- A capability for the whole scratchpad of core 0. -/
def scratch : Cap := mkCap 0xFF8000 0xFF 0 0x200000 0 true
/-- A capability for every byte of room 0. -/
def room : Cap := mkCap 0xFF9000 0xFF 0 0x380000 0 true

/-- A worker's context with a bundle in issue: its frame lies in its scratchpad, and its code is object 1. -/
def benchCtx : Ctx := { freshCtx with
  record := BitVec.ofNat 512 (0xFF8000 * 2 ^ 104 + 4 * 2 ^ 78 + 16 * 2 ^ 64), hasRecord := true, codeObj := 1, budget := 9,
  k := [(0, scratch), (1, room)], s := [(1, 5), (2, 64), (3, 0x1D)],
  issue := some ⟨0, 9, Slot.all, [], [], Slot.all, 0xFF, none, false, false, false, [], none⟩ }

/-- The machine after reset with a code object placed, whose core `n` runs a context. -/
def benchOn (n : Nat) (c : Ctx) : State :=
  { State.reset.withFetchWord 24 0 with turn := n }.setCore n { Core.idle n with ctx := some c }

/-- The bench of most witnesses. -/
def bench : State := benchOn 0 benchCtx

theorem witness_issues : Issues bench benchCtx := by
  refine ⟨?_, ?_, ?_⟩ <;> rfl

/-- The bench's context changed, issuing on core 0. -/
theorem issues_with (c : Ctx) (h : c.mode = .run) (hi : c.issue.isSome = true) : Issues (benchOn 0 c) c := ⟨rfl, h, hi⟩

theorem exists_some_iff {α : Type} {x : Option α} {p : α → Prop} [DecidablePred p] :
    (∃ c, x = some c ∧ p c) ↔ x.any (fun c => decide (p c)) = true := by
  cases x <;> simp

theorem mayLeave_iff {s : State} : mayLeave s ↔ (s.ctxOf s.turn).any (fun c => c.hasRecord && decide (saveFault s s.turn c = none)) = true := by
  unfold mayLeave
  cases s.ctxOf s.turn <;> simp

/-- The bench's context with only C still to issue. -/
def lastCtx : Ctx := { benchCtx with issue := some ⟨0, 9, [.c], [], [], Slot.all, 0xFF, none, false, false, false, [], none⟩ }

/-- What a computation gives where it passes its checks. -/
def got {α : Type} (d : α) (e : Except Stop α) : α := match e with
  | .ok a => a
  | .error _ => d

theorem got_ok {α : Type} {d : α} {e : Except Stop α} (h : isOk e = true) : e = .ok (got d e) := by
  cases e <;> simp_all [isOk, got]

theorem got_pair {α β : Type} {d : α × β} {e : Except Stop (α × β)} (h : isOk e = true) : e = .ok ((got d e).1, (got d e).2) := by
  cases e <;> simp_all [isOk, got]

/-- Pasture 1: a ring of 16 records in the scratchpad of core 0, open to cluster 0. -/
def withPasture (s : State) : State := s.pokeNum (s.pastureAddr 1) 64 (0xFF8000 * 2 ^ 40 + 4 * 2 ^ 64 + 2 ^ 280 + 2 ^ 288 + 2 ^ 296)

theorem no_flash_fails {s : State} (h : s.cellars = []) (pa n : Nat) : flashFails s pa n = false := by
  unfold flashFails State.cellar
  rw [h]
  simp [sget, Cellar.new]

theorem no_byte_fails {s : State} (h : s.cellars = []) (obj : Nat) (e : ObjEnt) (pe : PageEnt) (o : Nat) : flashBad s obj e pe o = false := by
  have hu : ∀ o, unitBad s e pe o = false := fun o => List.any_eq_false.mpr fun sp _ => by rw [no_flash_fails h]; exact Bool.false_ne_true
  simp [flashBad, hu]

/-- Where no Cellar stack has failed every byte can be read. -/
theorem no_read_fails {s : State} (h : s.cellars = []) (obj o n salt : Nat) : flashIn s obj o n salt = none := by
  unfold flashIn
  split
  · rfl
  · exact List.find?_eq_none.mpr fun x _ => by rw [no_byte_fails h]; exact Bool.false_ne_true

end Sys2Proof.Tests
end

