-- ==== Sys2Proof/Tests/Slice0.lean ====
section
/-! SUPPORT. Tests: ill-formed terms that the checks refuse, words written out from their encodings, and single steps on a small state. -/

namespace Sys2Proof.Tests
open Sys2Proof Sys2Proof.Machine Sys2Proof.Claims

set_option Elab.async false

/-! Ill-formed operations. -/

theorem test_wf_refuses_source : [Instr.jmp 0x2E, .callr 0x2F, .add .ia false 2 0x2E 0, .add .ib false 2 0 0x2F, .stg 3 0x2F, .whPin 0x2E,
    .spawn 0 0x2E 0, .spawn 0 0 0x2F, .sysWr 0x2E 0, .probe 0 false 0x2F 0, .ld64 1 2 0x2E 0].all (fun i => !i.wf) = true := by decide

theorem test_wf_refuses_fp_source : [Instr.faddS false 2 0x28 0, .fmulS false 2 0 0x2F, .fcmpLtS 1 0x2C 0, .fcvtIS false 2 0x29].all
    (fun i => !i.wf) = true := by decide

theorem test_wf_refuses_destination : [Instr.add .ia true 1 0 0, .faddS true 31 0 0, .vadd .va true 4 0 0, .sysRd true 2 0, .timeRd true 3,
    .vld .vb true 6 0 0 0].all (fun i => !i.wf) = true := by decide

theorem test_wf_refuses_predicate : [Instr.cmpEq .ia 0 1 2, .pnot .ib 0 1, .fcmpEqS 0 1 2, .kcheck 0 1 2 3, .vcmpLt .va 0 1 2].all
    (fun i => !i.wf) = true := by decide

theorem test_wf_refuses_scope : [Instr.fence 6 0 1, .fenceX 7 1, .ldAcq 1 2 3 6, .stRel 1 2 3 7, .wakew 0 0 0 6 0, .waitw 0 0 0 0 false 7 0,
    .amoInc 1 2 0 0 6 0].all (fun i => !i.wf) = true := by decide

theorem test_wf_refuses_empty : [Instr.loop false 1 0, .fence 1 0 0, .fenceX 1 0, .mcancel 0].all (fun i => !i.wf) = true := by decide

theorem test_wf_refuses_condition : [Instr.waitw 0 0 0 3 false 0 0, .waitw 0 0 0 2 false 0 1].all (fun i => !i.wf) = true := by decide

theorem test_wf_refuses_atomic : [Instr.amoAdd 1 2 3 2 0 0 4, .amoAdd 1 2 3 3 0 0 4, .amoFadd 1 2 3 1 0 0 4, .redAdd 2 3 2 0 0 4, .amoAdd 1 2 3 0 0 0 0x33,
    .amoAdd 1 2 3 0 0 0 0x2E, .redFadd 2 5 0 0 0 0x35].all (fun i => !i.wf) = true := by decide

theorem test_wf_refuses_block : [Instr.cpGath 0 0 15 0, .cpRamo 0 0 14 0, .kderive 0 1 15, .kcheck 1 0 15 0, .kmint 0 15,
    .pgReform 0 15 2].all (fun i => !i.wf) = true := by decide

theorem test_wf_refuses_vector : [Instr.vcvtFrom .va false 1 0x28 0 0, .vpart .vb false 1 2 3 false 0 4].all (fun i => !i.wf) = true := by decide

theorem test_wf_refuses_range : [Instr.stg 28 0, .stgLo 31 0, .vtSet 6, .phase 0 9, .maccClr false 127 1, .maccClr true 1 127,
    .fpcSet true false 3 false false false 0, .fpcSet false true 0 true false false 0].all (fun i => !i.wf) = true := by decide

/-! Words, written from the match, mask and field places of each entry and the extension words of Tables 3.13 to 3.18. -/

/-- Each word, with its extension word, is read in a slot as the operation beside it. -/
def reads (sl : Slot) (l : List (BitVec 24 × BitVec 24 × Instr)) : Bool :=
  l.all fun w => decode sl (fun _ => w.2.1) w.1 == some w.2.2.canon && w.2.2.encode == w.1

theorem test_words_c_a : reads .c [
  (0x000000, 0, .nop .c),
  (0x06D253, 0, .br 0x2d253),
  (0x080003, 0, .jmp 3),
  (0x0C855E, 0, .call 0x855e),
  (0x10000B, 0, .callr 0xb),
  (0x140000, 0, .ret),
  (0x1B5A61, 0, .loop true 0x2b 0x261),
  (0x1E4600, 0x888E42, .bktJmp 0x24 3 0x888e4 2),
  (0x218000, 0x0F321A, .park 3 0xf321a),
  (0x240000, 0, .exit),
  (0x2A88AB, 0, .spawn 5 0x22 0x2b),
  (0x2FD180, 0x080000, .waitw 7 5 6 0 false 2 0)] = true := by decide +kernel

theorem test_words_c_b : reads .c [
  (0x33C540, 0x00C722, .wakew 7 4 0x15 0 0xc722),
  (0x340374, 0, .foldArrive 0x374),
  (0x3801F8, 0, .foldWait 0x1f8),
  (0x3C03F2, 0, .foldSync 0x3f2),
  (0x4140CE, 0, .foldBytes 0x14 0xce),
  (0x440009, 0, .whWait 9),
  (0x4AC905, 0, .probe 5 true 0x24 5),
  (0x4C0000, 0, .segMark),
  (0x51E000, 0x001DA4, .fence 3 6 0x1da4),
  (0x558019, 0, .fenceX 3 0x19),
  (0x586291, 0, .trap 6 0x291),
  (0x5C0B29, 0, .brk 0xb29)] = true := by decide +kernel

theorem test_words_c_c : reads .c [
  (0x600000, 0, .rfe),
  (0x6408F5, 0, .ctxResumeRun 0x23 0x35),
  (0x641C9E, 0, .ctxResumePark 0x32 0x1e),
  (0x64258B, 0, .ctxResumePre 0x16 0xb),
  (0x680AC0, 0, .ctxKill 0x2b),
  (0x681980, 0, .ctxKillRun 0x26),
  (0x6C0000, 0, .halt)] = true := by decide +kernel

theorem test_words_ib_a : reads .ib [
  (0x044109, 0, .add .ib false 4 4 9),
  (0x0C328A, 0, .mul .ib false 3 0xa 0xa),
  (0x1584CB, 0, .mulhu .ib false 0x18 0x13 0xb),
  (0x1D187D, 0, .divu .ib false 0x11 0x21 0x3d),
  (0x243727, 0, .remu .ib false 3 0x1c 0x27),
  (0x2D913E, 0, .or .ib false 0x19 4 0x3e),
  (0x34FCC6, 0, .andn .ib false 0xf 0x33 6),
  (0x3D63B4, 0, .xnor .ib false 0x16 0xe 0x34),
  (0x44A4D4, 0, .shr .ib false 0xa 0x13 0x14),
  (0x4C57F4, 0, .rotr .ib false 5 0x1f 0x34),
  (0x542DA1, 0, .max .ib false 2 0x36 0x21),
  (0x5DBA81, 0, .maxu .ib false 0x1b 0x2a 1)] = true := by decide +kernel

theorem test_words_ib_b : reads .ib [
  (0x65AF00, 0, .ctz .ib false 0x1a 0x3c),
  (0x6DF900, 0, .bswap .ib false 0x1f 0x24),
  (0x75DCF2, 0, .bins .ib 0x1d 0x33 0x32),
  (0x7DD3D4, 0, .addS3 .ib false 0x1d 0xf 0x14),
  (0x8494A3, 0, .zext .ib false 9 0x12 0x23),
  (0x8C4E0C, 0, .litHi .ib false 4 0x38 0xc),
  (0x942DB3, 0, .cmpNe .ib 2 0x36 0x33),
  (0x9C1FAC, 0, .cmpLtu .ib 1 0x3e 0x2c),
  (0xA41DF7, 0, .cmpLeu .ib 1 0x37 0x37),
  (0xAC15D8, 0, .por .ib 1 0x17 0x18),
  (0xB43D80, 0, .pnot .ib 3 0x36),
  (0xC20CA6, 0, .ldU8 0x10 3 0xa 6)] = true := by decide +kernel

theorem test_words_ib_c : reads .ib [
  (0xC49191, 0, .ldS8 4 4 0x19 1),
  (0xCA38DA, 0, .ldU16 0x11 6 0xd 0xa),
  (0xCFFD08, 0, .ldS16 0x1f 7 0x10 8),
  (0xD189BE, 0, .ldU32 0xc 2 0x1b 0xe),
  (0xD43DD6, 0, .ldS32 1 7 0x1d 6),
  (0xDAB701, 0, .ld64 0x15 5 0x30 1),
  (0xDCBB38, 0, .ldAcq 5 6 0x33 4),
  (0xE39AD4, 0, .st8 0x1c 6 0x2d 4),
  (0xE67C1A, 0, .st16 0x13 7 1 0xa),
  (0xEB1D09, 0, .st32 0x18 7 0x10 9),
  (0xEEAFD9, 0, .st64 0x15 3 0x3d 9),
  (0xF02608, 0, .stRel 1 1 0x20 4)] = true := by decide +kernel

theorem test_words_ib_d : reads .ib [
  (0xF50212, 0, .ldk 8 0x21 2),
  (0xF97B20, 0x01CF60, .amoAdd 0xb 6 2 0 3 9 0x3b),
  (0xFB9B40, 0x112000, .amoInc 0x1c 6 4 0 2 4),
  (0xF8D330, 0x22AF40, .amoAnd 6 4 3 0 5 5 0x3a),
  (0xF8E770, 0x365820, .amoOr 7 1 7 1 4 0xb 1),
  (0xFB7F30, 0x445540, .amoXor 0x1b 7 3 1 0 0xa 0x2a),
  (0xFBBB70, 0x52CE80, .amoSmin 0x1d 6 7 0 5 9 0x34),
  (0xF92B40, 0x60F1C0, .amoSmax 9 2 4 0 1 0xe 0xe),
  (0xFB2B60, 0x726780, .amoUmin 0x19 2 6 0 4 0xc 0x3c),
  (0xFAB740, 0x853460, .amoUmax 0x15 5 4 1 2 6 0x23),
  (0xF87370, 0x90E460, .amoSwap 3 4 7 0 1 0xc 0x23),
  (0xFA1310, 0xA4BA52, .amoCas 0x10 4 1 1 1 7 0x12 0x12)] = true := by decide +kernel

theorem test_words_ib_e : reads .ib [
  (0xF9D360, 0xB12660, .amoFadd 0xe 4 6 0 2 4 0x33),
  (0xFC1F30, 0x021A20, .redAdd 7 3 0 4 3 0x11),
  (0xFC0760, 0x154000, .redInc 1 6 1 2 8),
  (0xFC1370, 0x202060, .redAnd 4 7 0 0 4 3),
  (0xFC0B70, 0x35D360, .redOr 2 7 1 3 0xa 0x1b),
  (0xFC1710, 0x45FBE0, .redXor 5 1 1 3 0xf 0x1f),
  (0xFC1710, 0x563C80, .redSmin 5 1 1 4 7 0x24),
  (0xFC1B20, 0x60E100, .redSmax 6 2 0 1 0xc 8),
  (0xFC0F50, 0x7267C0, .redUmin 3 5 0 4 0xc 0x3e),
  (0xFC1370, 0x81D740, .redUmax 4 7 0 3 0xa 0x3a),
  (0xFC1F40, 0xB06860, .redFadd 7 4 0 0 0xd 3)] = true := by decide +kernel

theorem test_words_ia_a : reads .ia [
  (0x093A8D, 0, .sub .ia false 0x13 0x2a 0xd),
  (0x11E602, 0, .mulh .ia false 0x1e 0x18 2),
  (0x19D848, 0, .div .ia false 0x1d 0x21 8),
  (0x211863, 0, .rem .ia false 0x11 0x21 0x23),
  (0x292EA8, 0, .and .ia false 0x12 0x3a 0x28),
  (0x319774, 0, .xor .ia false 0x19 0x1d 0x34),
  (0x3A0787, 0, .orn .ia true 0 0x1e 7),
  (0x407A5C, 0, .shl .ia false 7 0x29 0x1c),
  (0x49BE96, 0, .sar .ia false 0x1b 0x3a 0x16),
  (0x518A12, 0, .min .ia false 0x18 0x28 0x12),
  (0x596C88, 0, .minu .ia false 0x16 0x32 8),
  (0x6071C0, 0, .clz .ia false 7 7)] = true := by decide +kernel

theorem test_words_ia_b : reads .ia [
  (0x6977C0, 0, .popc .ia false 0x17 0x1f),
  (0x712683, 0, .bext .ia false 0x12 0x1a 3),
  (0x781FAD, 0, .addS2 .ia false 1 0x3e 0x2d),
  (0x820CA2, 0, .sext .ia true 0 0x32 0x22),
  (0x88D200, 0, .mov .ia false 0xd 8),
  (0x903C67, 0, .cmpEq .ia 3 0x31 0x27),
  (0x981902, 0, .cmpLt .ia 1 0x24 2),
  (0xA012E6, 0, .cmpLe .ia 1 0xb 0x26),
  (0xA83A11, 0, .pand .ia 3 0x28 0x11),
  (0xB034E6, 0, .pxor .ia 3 0x13 0x26),
  (0xB832A8, 0, .tstBit .ia 3 0xa 0x28),
  (0xC18447, 0, .faddS false 0x18 0x11 7)] = true := by decide +kernel

theorem test_words_ia_c : reads .ia [
  (0xC47F53, 0, .fsubS false 7 0x3d 0x13),
  (0xCA0822, 0, .fmulS true 0 0x20 0x22),
  (0xCC24E3, 0, .ffmaS false 2 0x13 0x23),
  (0xD0C75B, 0, .fminS false 0xc 0x1d 0x1b),
  (0xD41193, 0, .fmaxS false 1 6 0x13),
  (0xD83E0A, 0, .fcmpLtS 3 0x38 0xa),
  (0xDC3259, 0, .fcmpEqS 3 9 0x19),
  (0xE03100, 0, .fcvtSI false 3 4),
  (0xE09801, 0, .fcvtSIU false 9 0x20),
  (0xE5C5C0, 0, .fcvtIS false 0x1c 0x17),
  (0xE487C1, 0, .fcvtISU false 8 0x1f),
  (0xE51C42, 0, .fcvtISW false 0x11 0x31)] = true := by decide +kernel

theorem test_words_ia_d : reads .ia [
  (0xE94AC0, 0, .sysRd false 0x14 0x2b),
  (0xEC0322, 0, .sysWr 0xc 0x22),
  (0xF1D000, 0, .budRd false 0x1d),
  (0xF60000, 0, .timeRd true 0)] = true := by decide +kernel

theorem test_words_vb_a : reads .vb [
  (0x043CBF, 0, .vadd .vb false 3 0x32 0x3f),
  (0x0D407F, 0, .vmul .vb false 0x14 1 0x3f),
  (0x149A77, 0, .vfms .vb false 9 0x29 0x37),
  (0x1D0D16, 0, .vmin .vb false 0x10 0x34 0x16),
  (0x259F80, 0, .vabs .vb false 0x19 0x3e),
  (0x2C8D00, 0, .vmov .vb false 8 0x34),
  (0x34BA66, 0, .vor .vb false 0xb 0x29 0x26),
  (0x3D0C00, 0, .vnot .vb false 0x10 0x30),
  (0x444DB8, 0, .vshr .vb false 4 0x36 0x38),
  (0x4C3F65, 0, .vcmpEq .vb 3 0x3d 0x25),
  (0x543BE4, 0, .vcmpLt .vb 3 0x2f 0x24),
  (0x5E0D92, 0, .vsel .vb true 0 0x36 0x12)] = true := by decide +kernel

theorem test_words_vb_b : reads .vb [
  (0x64E66A, 0, .vcvtSc .vb false 0xe 0x19 5 false 2),
  (0x6CA436, 0, .vredMax .vb false 0xa 0x10 0x36),
  (0x75BF21, 0, .vscanAdd .vb false 0x1b 0x3c 0x21),
  (0x7C4E35, 0, .vext .vb 4 0x38 0x35),
  (0x85B462, 0, .vrot .vb false 0x1b 0x11 0x22),
  (0x8D237D, 0, .vld .vb false 0x12 0xd 7 5),
  (0x9512EE, 0, .vgath .vb false 0x11 0xb 5 6),
  (0x9C6DC5, 0, .vlut .vb false 6 0x37 5),
  (0xC024C0, 0, .vexp2 false 2 0x13),
  (0xC43E80, 0, .vlog2 false 3 0x3a),
  (0xC87180, 0, .vrcp false 7 6),
  (0xCC2F80, 0, .vrsqrt false 2 0x3e)] = true := by decide +kernel

theorem test_words_vb_c : reads .vb [
  (0xD1EA00, 0, .vsqrt false 0x1e 0x28),
  (0xD5F300, 0, .vtanh false 0x1f 0xc),
  (0xD8DEC0, 0, .verf false 0xd 0x3b),
  (0xDC3500, 0, .vsigm false 3 0x14),
  (0xE0811A, 0, .vdiv false 8 4 0x1a),
  (0xE55B80, 0, .vfloor false 0x15 0x2e)] = true := by decide +kernel

theorem test_words_va_a : reads .va [
  (0x09441D, 0, .vsub .va false 0x14 0x10 0x1d),
  (0x10A793, 0, .vfma .va false 0xa 0x1e 0x13),
  (0x18C30B, 0, .vfnma .va false 0xc 0xc 0xb),
  (0x209997, 0, .vmax .va false 9 0x26 0x17),
  (0x28C840, 0, .vneg .va false 0xc 0x21),
  (0x3017C1, 0, .vand .va false 1 0x1f 1),
  (0x387AA6, 0, .vxor .va false 7 0x2a 0x26),
  (0x40675D, 0, .vshl .va false 6 0x1d 0x1d),
  (0x49A0E7, 0, .vsar .va false 0x1a 3 0x27),
  (0x5035C5, 0, .vcmpNe .va 3 0x17 5),
  (0x581E7A, 0, .vcmpLe .va 1 0x39 0x3a),
  (0x6104D2, 0, .vcvtTo .va false 0x10 0x13 2 2)] = true := by decide +kernel

theorem test_words_va_b : reads .va [
  (0x60B42D, 0, .vcvtFrom .va false 0xb 0x10 5 1),
  (0x6961E9, 0, .vredAdd .va false 0x16 7 0x29),
  (0x71519C, 0, .vredMin .va false 0x15 6 0x1c),
  (0x797B7E, 0, .vbcast .va false 0x17 0x2d 0x3e),
  (0x80C833, 0, .vperm .va false 0xc 0x20 0x33),
  (0x897135, 0x0000FB, .vpart .va false 0x17 4 5 true 3 0x1b),
  (0x90C666, 0, .vst .va 0xc 0x19 4 6),
  (0x98E7E2, 0, .vscat .va 0xe 0x1f 4 2),
  (0xC1C5F4, 0, .vmulhi false 0x1c 0x17 0x34),
  (0xC4D492, 0, .vdot4 false 0xd 0x12 0x12),
  (0xCA0832, 0, .vamax true 0 0x20 0x32)] = true := by decide +kernel

theorem test_words_mx : reads .mx [
  (0x06F980, 0, .mma 0x2f 0x26 false false false false),
  (0x08360E, 0, .maccClr false 0x6c 0xe),
  (0x0F8980, 0, .maccLd 0x38 true 0x18),
  (0x11F490, 0, .maccSt 0x1f false 0x49),
  (0x140002, 0, .mcancel 2)] = true := by decide +kernel

theorem test_words_xc_a : reads .xc [
  (0x041FB7, 0, .cpFill 1 7 0xd true 7),
  (0x09332A, 0, .cpDrain 0x13 1 9 false 0xa),
  (0x0C2824, 0, .cpGath 2 4 1 4),
  (0x11E445, 0, .cpScat 0x1e 2 2 5),
  (0x173721, 0, .cpBcst 0x33 3 9 1),
  (0x18CA2E, 0, .cpRedFadd 0xc 5 1 0xe),
  (0x198349, 0, .cpRedBf2Add 0x18 1 0xa 9),
  (0x1AC423, 0, .cpRedIntAdd 0x2c 2 1 3),
  (0x1BBFCF, 0, .cpRedSmax 0x3b 7 0xe 0xf),
  (0x183284, 0, .cpRedUmax 3 1 4 4),
  (0x1CC68B, 0, .cpSelr 0xc 3 4 0xb),
  (0x22A72D, 0, .cpSelc 0x2a 3 9 0xd)] = true := by decide +kernel

theorem test_words_xc_b : reads .xc [
  (0x266423, 0, .cpRmaPut 0x26 2 1 3),
  (0x25FC26, 0, .cpRmaGet 0x1f 6 1 6),
  (0x2BDAA1, 0, .cpRamo 0x3d 5 5 1),
  (0x2C9377, 0, .cpGdrain 9 1 0xb 7),
  (0x30023F, 0, .cpPmtGrant 1 1 0xf),
  (0x300EE2, 0, .cpPmtTake 7 7 2),
  (0x35A000, 0, .cpCancel 0x1a),
  (0x340800, 0, .cpCancelAll),
  (0x380036, 0, .whFetchPred 0x36),
  (0x380078, 0, .whFetchDem 0x38),
  (0x3C0037, 0, .whDrop 0x37),
  (0x400027, 0, .whPin 0x27)] = true := by decide +kernel

theorem test_words_xc_c : reads .xc [
  (0x440028, 0, .whUnpin 0x28),
  (0x480015, 0, .whQry 0x15)] = true := by decide +kernel

theorem test_words_cf_a : reads .cf [
  (0x05C007, 0, .stg 0xe 7),
  (0x068822, 0, .stgLo 0x14 0x22),
  (0x04900B, 0, .stgHi 4 0xb),
  (0x08B600, 0, .ttDef 0xb 1 4),
  (0x0D3000, 0, .ttFree 0x13),
  (0x136C00, 0, .ttBind 0x36 3),
  (0x11B200, 0, .ttUnbind 0x1b),
  (0x1498F9, 0, .ttMark 9 0xf9),
  (0x14EC66, 0, .ttMarkWait 0xe 0x66),
  (0x16A000, 0, .ttMarkNofold 0x2a),
  (0x1AF200, 0, .ttRd 0x2f false 8),
  (0x1E124D, 0, .fmtSet 2 1 2 4 0xd)] = true := by decide +kernel

theorem test_words_cf_b : reads .cf [
  (0x200003, 0, .vtSet 3),
  (0x240003, 0, .vwinSet false 3),
  (0x280002, 0, .vactSet 2),
  (0x2F7AA0, 0, .fpcSet true true 0xf true false true 1),
  (0x2D01E0, 0, .fpcSetC false true true 3),
  (0x2EF000, 0, .fpcSetF 0x1e),
  (0x300002, 0, .lendMx true),
  (0x300001, 0, .lendVec false),
  (0x348001, 0, .phase 1 1),
  (0x380000, 0, .amaxClr),
  (0x3F690F, 0, .vlutLd 6 0xd 0x10f),
  (0x434400, 0, .kmov 0xd 1)] = true := by decide +kernel

theorem test_words_cf_c : reads .cf [
  (0x458700, 0, .kderive 6 1 0xc),
  (0x4AF418, 0, .krestrict 0xb 0xd 0x18),
  (0x4C6400, 0, .kgetObj 3 2),
  (0x538200, 0, .kgetBase 0x1c 1),
  (0x553C00, 0, .kgetLen 9 0xe),
  (0x584600, 0, .kgetRgt 2 3),
  (0x5D5B2E, 0, .kcheck 1 5 0xb 0x2e),
  (0x630000, 0, .kclr 0xc),
  (0x668BDE, 0, .kst 5 1 0x3de),
  (0x689EB8, 0, .kld 2 3 0x6b8),
  (0x6FB400, 0, .kmint 0xe 0xd),
  (0x700000, 0, .xlatSync)] = true := by decide +kernel

theorem test_words_cf_d : reads .cf [
  (0x745140, 0, .pgReform 1 4 0xa)] = true := by decide +kernel


/-! Single steps. Expected values are the spec's own examples (the rule beside each) or worked out by hand from its rules. -/

/-- The bench with other scalar registers. -/
def withS (l : Sparse Word) : State := benchOn 0 { benchCtx with s := l }

/-- What the last result of a step writes. -/
def made (i : Instr) (s : State) : Option (Dst × RVal) := match exec i s with
  | .next t => (t.ctxOf s.turn).bind fun c => c.fly.getLast?.bind fun w => w.dst
  | _ => none

/-- Whether a step's last result writes a scalar register with a value. -/
def gives (i : Instr) (s : State) (d : Nat) (v : Word) : Bool := made i s == some (.s d, .word v (BitVec.allOnes 64))

/-- Whether a step's last result writes a predicate. -/
def givesP (i : Instr) (s : State) (p : Nat) (v : Bool) : Bool := made i s == some (.p p, .bit v)

/-- The core after a step. -/
def coreAfter (i : Instr) (s : State) : Option Core := match exec i s with
  | .next t => some (t.core s.turn)
  | _ => none

/-- What a step leaves of a field of the moving core's context. -/
def ctxField {α : Type} (f : Ctx → α) (i : Instr) (s : State) : Option α := (coreAfter i s).bind fun x => x.ctx.map f

theorem test_add_wraps : gives (.add .ia false 2 0 1) (withS [(0, 0xFFFFFFFFFFFFFFFF), (1, 2)]) 2 1 = true := by decide +kernel

theorem test_sub_borrows : gives (.sub .ib false 2 0 1) (withS [(0, 1), (1, 2)]) 2 0xFFFFFFFFFFFFFFFF = true := by decide +kernel

/-- -1 times 2 is -2: the high word is all ones (R116). -/
theorem test_mulh_signed : gives (.mulh .ia false 2 0 1) (withS [(0, 0xFFFFFFFFFFFFFFFF), (1, 2)]) 2 0xFFFFFFFFFFFFFFFF = true := by
  decide +kernel

/-- Division corners (R116): by zero, and the most negative number by -1. -/
theorem test_div_corner : gives (.div .ia false 2 0 1) (withS [(0, 0x8000000000000000), (1, 0xFFFFFFFFFFFFFFFF)]) 2 0x8000000000000000 = true := by
  decide +kernel

theorem test_rem_sign : gives (.rem .ia false 2 0 1) (withS [(0, 0xFFFFFFFFFFFFFFF9), (1, 2)]) 2 0xFFFFFFFFFFFFFFFF = true := by decide +kernel

theorem test_sar_fills : gives (.sar .ia false 2 0 1) (withS [(0, 0x8000000000000000), (1, 63)]) 2 0xFFFFFFFFFFFFFFFF = true := by
  decide +kernel

theorem test_rotr : gives (.rotr .ib false 2 0 1) (withS [(0, 1), (1, 4)]) 2 0x1000000000000000 = true := by decide +kernel

theorem test_clz_zero : gives (.clz .ia false 2 0) (withS []) 2 64 = true := by decide +kernel

theorem test_bext : gives (.bext .ia false 2 0 1) (withS [(0, 0x123456), (1, 0x708)]) 2 0x34 = true := by decide +kernel

theorem test_cmp_lt_signed : givesP (.cmpLt .ia 1 0 1) (withS [(0, 0xFFFFFFFFFFFFFFFF), (1, 1)]) 1 true = true := by decide +kernel

theorem test_cmp_ltu_unsigned : givesP (.cmpLtu .ia 1 0 1) (withS [(0, 0xFFFFFFFFFFFFFFFF), (1, 1)]) 1 false = true := by decide +kernel

/-- 1.0 + 1.0 = 2.0 in FP32 (Table 3.10 gives the constant 1.0 at code 0x39). -/
theorem test_fadd : gives (.faddS false 2 0x39 0x39) bench 2 0x40000000 = true := by decide +kernel

/-- A `br` with displacement 0 branches to itself (R74); an empty C slot goes on to the next bundle. -/
theorem test_br_to_itself : ctxField (fun c => c.pc) (.br 0) (benchOn 0 lastCtx) = some 0 ∧
    ctxField (fun c => c.pc) (.nop .c) (benchOn 0 lastCtx) = some 32 := by decide +kernel

theorem test_loop_of_zero_not_active : ctxField (fun c => c.lc0.active) (.loop false 0x38 1) (benchOn 0 lastCtx) = some false := by decide +kernel

/-- A store is held: memory keeps its bytes and the porch has the write (R220, R232). -/
theorem test_store_is_held : (match exec (.st64 1 0 2 0) bench with
    | .next t => t.mem == bench.mem && (t.ctxOf 0).any fun c => c.porch.length == 1
    | _ => false) = true := by decide +kernel

/-- A byte load sign-extends (R217). -/
theorem test_ld_s8 : gives (.ldS8 4 0 0 0) ((withS [(0, 7)]).poke (2 ^ 60 + 7) 0x80) 4 0xFFFFFFFFFFFFFF80 = true := by decide +kernel

/-- An atomic returns the old value and changes memory at once (R226). -/
theorem test_amo_returns_old : gives (.amoAdd 4 0 0 3 0 0 1) (bench.pokeNum (2 ^ 60) 8 41) 4 41 = true := by decide +kernel

theorem test_stage : ctxField (fun c => c.fly.map (·.dst)) (.stg 8 1) bench = some [some (.stage 8, .word 5 (BitVec.allOnes 64))] := by decide +kernel

/-- A derived capability beyond its source's length loses its tag (R363). -/
theorem test_kderive_beyond : (match made (.kderive 2 0 0) (benchOn 0 { benchCtx with stage := [(8, 0x1FFFFF), (9, 2)] }) with
    | some (.k 2, .cap c) => !c.tag
    | _ => false) = true := by decide +kernel

theorem test_kderive_within : (match made (.kderive 2 0 0) (benchOn 0 { benchCtx with stage := [(8, 0x1FFFFE), (9, 2)] }) with
    | some (.k 2, .cap c) => c.tag && c.base == 0x1FFFFE && c.len == 2
    | _ => false) = true := by decide +kernel

/-- `trap` freezes the context with an event of KIND 0x22 (R398). -/
theorem test_trap_freezes : ctxField (fun c => match c.mode with | .frozen ev _ => ev.kind == 0x22 && ev.arg == 5 | _ => false) (.trap 1 5)
    (benchOn 0 lastCtx) = some true := by decide +kernel

/-- The checksum of the ASCII digits 1 to 9 is that of the standard check of CRC-32C. -/
theorem test_crc : crc32c (("123456789".toList.map fun c => BitVec.ofNat 8 c.toNat)) = 0xE3069283 := by decide +kernel

/-- Table 8.5: E4M3 of 12.0, of 480 saturated, of -0.08. -/
theorem test_e4m3 : pack .e4m3 (roundTo .e4m3 0 true (.fin false 12 0)).1 = 0x54 ∧ pack .e4m3 (roundTo .e4m3 0 true (.fin false 480 0)).1 = 0x7E ∧
    pack .e4m3 (fvDiv (.fin true 8 0) (.fin false 100 0) |>.1 |> roundTo .e4m3 0 true).1 = 0x9A := by decide +kernel

/-- The example after R91: S = 0.5, scale code 63 in block 5, byte 165 = 0xE4: elements 330 and 331 are delivered as 0xBD18 and 0x3DC2. -/
def groupByte (n : Nat) : Byte := if n = 8448 + 3 then 0x3F else if n = 8192 + 5 then 63 else if n = 165 then 0xE4 else 0

theorem test_gq4_example : deliver 2 (gqAt groupByte 330) = 0xBD18 ∧ deliver 2 (gqAt groupByte 331) = 0x3DC2 := by decide +kernel

/-- Table 10.4: 0.75, -5.0, 12.0 and 0.1 in an MXFP4 block take the scale 0x80 and the nibbles 1, C, 7 and 0. -/
theorem test_mxfp4_example : mxEncode 10 [.fin false 3 (-2), .fin true 5 0, .fin false 12 0, unpack .bf16 0x3DCD] = (0x80, [1, 0xC, 7, 0]) := by
  decide +kernel

/-- The example of R209: a line of object 0x001234 on die 1 has its home at vault 167. -/
theorem test_home_example : homeOf 0x1234 0x400300 1 = 167 := by decide +kernel

/-- The example of R355: the fields of a capability. -/
theorem test_capability_example : let c : Cap := ⟨0x0012340B000040000000001000000007, true⟩
    c.obj = 0x1234 ∧ c.base = 0x400000 ∧ c.len = 0x100000 ∧ c.gen = 7 ∧ c.has rightR ∧ c.has rightW ∧ c.has rightT ∧ !c.has rightA := by
  decide +kernel

/-- The room of a vault at reset, and after its split has changed to 4 ways (the example of R207). -/
theorem test_room_size : State.reset.roomSize 205 = 0x180000 ∧
    State.roomSize { State.reset with phases := [(205, ⟨4, 4, false⟩)] } 205 = 0x280000 := by decide +kernel

/-- The two `lit.hi` of R121's example, with their literals in the second slot's place of the bundle. -/
def litCtx (lit0 lit1 : Nat) : Ctx := { benchCtx with s := [(9, 0x123456789)], issue := some ⟨BitVec.ofNat 256 (lit0 * 2 ^ 136 + lit1 * 2 ^ 160), 9,
  Slot.all, [], [], Slot.all, 0xFF, none, false, false, false, [], none⟩ }

theorem test_lit_hi_example : gives (.litHi .ia false 9 0x33 0x34) (benchOn 0 (litCtx 0x123 0x456789)) 9 0x123456789 = true ∧
    gives (.litHi .ia false 9 9 0x34) (benchOn 0 (litCtx 0 0xABCDEF)) 9 0x123456789ABCDEF = true := by decide +kernel

/-- The chain of R101's example: the first `fadd.s` gives 2^24 + 1 to the ring, which FP32 cannot hold; the second rounds once. -/
def chainCtx : Ctx := { benchCtx with s := [(8, 0x4B800000)], bA := [.chain (.fin false 16777217 0), .bits 0, .bits 0, .bits 0] }

theorem test_chain_example : ctxField (fun c => c.fly.map fun w => (match w.ring with
    | .b (.chain v) => fvEq v (.fin false 16777217 0)
    | _ => (false, 0))) (.faddS true 0 8 0x39) (benchOn 0 chainCtx) = some [(true, 0)] ∧
     gives (.faddS false 10 0x20 0x39) (benchOn 0 chainCtx) 10 0x4B800001 = true := by decide +kernel

/-- Table 8.5, in VA: the result bytes 128 to 131 of `v9`, and the flags OF and NX. -/
def table85Ctx : Ctx := { benchCtx with s := [(5, 0x41000000)] }
def table85 : State := (benchOn 0 table85Ctx).modCore 0 fun x =>
  { x with accOwn := 3, acc := [(1, BitVec.ofNat 4096 (0x3FC00000 + 0x42700000 * 2 ^ 32 + 0xBC23D70A * 2 ^ 64 + 0x7FC00000 * 2 ^ 96))] }

theorem test_vcvt_sc_example : (match exec (.vcvtSc .va false 9 1 5 false 1) table85 with
    | .next t => (t.ctxOf 0).any fun c => c.fly.any fun w => (match w.dst with
      | some (.row 0 9, .row v _) => bits v 1024 32 == 0x7F9A7E54 && w.flags == (fOF ||| fNX) && w.amaxNan && w.amax == 0x42700000
      | _ => false)
    | _ => false) = true := by decide +kernel

end Sys2Proof.Tests
end

