-- ==== Sys2Proof/Tests/Witness.lean ====
section
/-! SUPPORT. Witnesses: for every statement with hypotheses, a concrete state and operands that meet all of them together. -/

namespace Sys2Proof.Tests
open Sys2Proof Sys2Proof.Machine Sys2Proof.Claims

set_option Elab.async false

/-- The bench's context with a register number in `s1` and a value in `s2`. -/
def regCtx (n v : Word) : Ctx := { benchCtx with s := [(1, n), (2, v)] }

theorem witness_sysRd : Met Claims.SystemReads (.sysRd false 4 1) (benchOn 0 (regCtx 0x1D 0)) (regCtx 0x1D 0) :=
  ⟨_, _, fun h => (h false 4 1).2.2.2.2.2.2.2.2.2.2.2.2.2.2.2.2.2.1, ⟨rfl, rfl, rfl⟩, by decide +kernel⟩

/-- The split of a worker's own vault, and of one that a shepherd's core does not say. -/
theorem witness_sysRd_split : Met Claims.SystemReads (.sysRd false 4 1) (benchOn 287 (regCtx 2 0)) (regCtx 2 0)
    ∧ Met Claims.SystemReads (.sysRd true 0 1) (benchOn 288 (regCtx 2 0)) (regCtx 2 0) :=
  ⟨⟨_, _, fun h => (h false 4 1).2.1, ⟨rfl, rfl, rfl⟩, by decide +kernel⟩, ⟨_, _, fun h => (h true 0 1).2.2.1, ⟨rfl, rfl, rfl⟩, by decide +kernel⟩⟩

theorem witness_sysRd_permit : Met Claims.SystemReads (.sysRd false 4 1) (benchOn 0 (regCtx 0x1B 0)) (regCtx 0x1B 0) :=
  ⟨_, _, fun h => (h false 4 1).2.2.2.2.2.2.2.2.2.2.2.2.2.2.2.1, ⟨rfl, rfl, rfl⟩, by decide +kernel⟩

/-- `SCHCFG` on the last shepherd and on the housekeeper; the last scratchpad of the first shepherd and the last room of the housekeeper. -/
theorem witness_sysRd_supervisor : Met Claims.SystemReads (.sysRd false 4 1) (benchOn 293 (regCtx 0x20 0)) (regCtx 0x20 0)
    ∧ Met Claims.SystemReads (.sysRd false 4 1) (benchOn 294 (regCtx 0x20 0)) (regCtx 0x20 0)
    ∧ Met Claims.SystemReads (.sysRd false 4 1) (benchOn 288 (regCtx 0x42F 0)) (regCtx 0x42F 0)
    ∧ Met Claims.SystemReads (.sysRd false 4 1) (benchOn 294 (regCtx 0x71F 0)) (regCtx 0x71F 0) :=
  have late := fun h : Claims.SystemReads => (h false 4 1).2.2.2.2.2.2.2.2.2.2.2.2.2.2.2.2.2.2
  ⟨⟨_, _, fun h => (late h).1, ⟨rfl, rfl, rfl⟩, by decide +kernel⟩,
   ⟨_, _, fun h => (late h).2.1, ⟨rfl, rfl, rfl⟩, by decide +kernel⟩,
   ⟨_, _, fun h => (late h).2.2.2.2.2.2.2.2.2.2.2.1 47 (by decide), ⟨rfl, rfl, rfl⟩, by unfold ownedBy; decide +kernel⟩,
   ⟨_, _, fun h => (late h).2.2.2.2.2.2.2.2.2.2.2.2.1 287 (by decide), ⟨rfl, rfl, rfl⟩, by unfold ownedBy; decide +kernel⟩⟩

/-- The first scratchpad past a shepherd's cluster. -/
theorem witness_sysRd_fault : Claims.SystemReads → ∃ t, exec (.sysRd false 4 1) (benchOn 288 (regCtx 0x430 0)) = .next t := fun h =>
  ⟨_, (h false 4 1).2.2.2.2.2.2.2.2.2.2.2.2.2.2.2.2.2.2.2.2.2.2.2.2.2.2.2.2.2.2.2 _ _ ⟨rfl, rfl, rfl⟩
    (by unfold readable descriptorOf ownedBy; decide +kernel)⟩

theorem witness_sysWr : Met Claims.SystemWrites (.sysWr 1 2) (benchOn 288 (regCtx 0x30 0x1000)) (regCtx 0x30 0x1000)
    ∧ Met Claims.SystemWrites (.sysWr 1 2) (benchOn 288 (regCtx 0x31 0x1000)) (regCtx 0x31 0x1000)
    ∧ Met Claims.SystemWrites (.sysWr 1 2) (benchOn 293 (regCtx 0x20 3)) (regCtx 0x20 3)
    ∧ Met Claims.SystemWrites (.sysWr 1 2) (benchOn 294 (regCtx 0x24 0x1000)) (regCtx 0x24 0x1000) :=
  ⟨⟨_, _, fun h => (h 1 2).2.2.1, ⟨rfl, rfl, rfl⟩, by decide +kernel⟩, ⟨_, _, fun h => (h 1 2).2.2.2.1, ⟨rfl, rfl, rfl⟩, by decide +kernel⟩,
   ⟨_, _, fun h => (h 1 2).1, ⟨rfl, rfl, rfl⟩, by decide +kernel⟩,
   ⟨_, _, fun h => (h 1 2).2.2.2.2.2.2.2.2.2.2.2.1, ⟨rfl, rfl, rfl⟩, by decide +kernel⟩⟩

/-- A descriptor whose paddock stays, of the last scratchpad; one whose paddock changes starts a clear. -/
theorem witness_sysWr_descriptor : Met Claims.SystemWrites (.sysWr 1 2) (benchOn 294 (regCtx 0x51F 7)) (regCtx 0x51F 7) :=
  ⟨_, _, fun h => ((h 1 2).2.2.2.2.2.2.2.2.2.2.2.2.1 0x51F 287 (.inl (by decide))).1, ⟨rfl, rfl, rfl⟩, by unfold ownedBy; decide +kernel⟩

theorem witness_sysWr_clears : Claims.SystemWrites → ∃ t, exec (.sysWr 1 2) (benchOn 294 (regCtx 0x600 0x10000)) = .next t := fun h =>
  ⟨_, ((h 1 2).2.2.2.2.2.2.2.2.2.2.2.2.1 0x600 288 (.inr (by decide))).2 _ _ ⟨rfl, rfl, rfl⟩ (by decide +kernel) (by decide +kernel)
    (by unfold ownedBy; decide +kernel) (by decide +kernel)⟩

/-- A `sys.wr` whose space has been cleared. -/
def clearedCtx : Ctx := { benchCtx with issue := some ⟨0, 9, Slot.all, [], [], Slot.all, 0xFF, none, false, false, false, [(Slot.ia.idx, [288])], none⟩ }

theorem witness_sysWr_cleared : Met Claims.SystemWrites (.sysWr 1 2) (benchOn 0 clearedCtx) clearedCtx :=
  ⟨_, _, fun h => (h 1 2).2.2.2.2.2.2.2.2.2.2.2.2.2.1 288, issues_with _ rfl rfl, by decide +kernel⟩

theorem witness_sysWr_fault : Claims.SystemWrites → ∃ t, exec (.sysWr 1 2) (benchOn 0 (regCtx 0x30 0)) = .next t := fun h =>
  ⟨_, (h 1 2).2.2.2.2.2.2.2.2.2.2.2.2.2.2 _ _ ⟨rfl, rfl, rfl⟩ (by decide +kernel) (by unfold writable descriptorOf ownedBy; decide +kernel)⟩

/-- The bench with `s1` at another value. -/
def s1Ctx (v : Word) : Ctx := { benchCtx with s := [(1, v), (2, 64), (3, 0x1D)] }

theorem witness_ld_last_byte : Met Claims.LoadResults (.ldU8 4 0 1 0) (benchOn 0 (s1Ctx 0x1FFFFF)) (s1Ctx 0x1FFFFF) :=
  ⟨_, _, fun h => by have h := (h 4 0 1 0 0).1; unfold Loads at h; exact h, issues_with _ rfl rfl,
    by simp only [ok_iff, readsNow]; decide +kernel⟩

/-- An unaligned load, whose bytes are read one by one. -/
theorem witness_ld_64 : Met Claims.LoadResults (.ld64 4 0 1 0) bench benchCtx :=
  ⟨_, _, fun h => by have h := (h 4 0 1 0 0).2.2.2.2.2.2.1; unfold Loads at h; exact h, witness_issues,
    by simp only [ok_iff, readsNow]; decide +kernel⟩

theorem witness_ld_acq : Met Claims.LoadResults (.ldAcq 4 0 2 1) bench benchCtx :=
  ⟨_, _, fun h => by have h := (h 4 0 2 0 1).2.2.2.2.2.2.2; unfold Loads at h; exact h, witness_issues,
    by simp only [ok_iff, readsNow]; decide +kernel⟩

theorem witness_st_8 : Met Obligations.StoresAreHeld (.st8 3 0 1 0) (benchOn 0 (s1Ctx 0x1FFFFF)) (s1Ctx 0x1FFFFF) :=
  ⟨_, _, fun h => (h 3 0 1 0 0).1, issues_with _ rfl rfl, by simp only [ok_iff, holdsNow]; decide +kernel⟩

theorem witness_st_rel : Met Obligations.StoresAreHeld (.stRel 3 0 2 1) bench benchCtx :=
  ⟨_, _, fun h => (h 3 0 2 0 1).2.2.2.2, witness_issues, by simp only [ok_iff, holdsNow]; decide +kernel⟩

theorem witness_amo : Met Claims.AtomicsPerform (.amoAdd 4 0 0 1 0 0 3) bench benchCtx :=
  ⟨_, _, fun h => by have h := (h 4 0 0 1 0 0 3 0).1; unfold Atomically at h; exact h, witness_issues,
    by simp only [ok_iff, nothingOpen]; decide +kernel⟩

theorem witness_amo_cas : Met Claims.AtomicsPerform (.amoCas 4 0 0 0 0 0 3 2) bench benchCtx :=
  ⟨_, _, fun h => by have h := (h 4 0 0 0 0 0 3 2).2.2.2.2.2.2.2.2.2.2.1; unfold Atomically at h; exact h, witness_issues,
    by simp only [ok_iff, nothingOpen]; decide +kernel⟩

theorem witness_red : Met Claims.ReductionsAreHeld (.redAdd 0 0 1 0 0 3) bench benchCtx :=
  ⟨_, _, fun h => (h 0 0 1 0 0 3).1, witness_issues, by simp only [ok_iff, holdsNow]; decide +kernel⟩

theorem witness_amo_values : Claims.AtomicValues → atomicNew 6 false 4 0xFFFFFFFF 1 0 < 256 ^ 4 :=
  fun h => (h 4 0xFFFFFFFF 1 0 (by decide) (by decide) (by decide) (by decide)).2.2.2.2.2.2.2.2.2.2.2 6 (by decide)

/-- Paddock 0's key table: two entries in the scratchpad. -/
def withKeys (s : State) : State := (s.pokeNum 0 8 (0xFF8000 * 2 ^ 40)).pokeNum 8 8 (2 + 2 ^ 32)

theorem witness_ldk : Met Claims.KeyLoads (.ldk 9 0x39 0) (withKeys bench) benchCtx :=
  ⟨_, _, fun h => h 9 0x39 0, ⟨rfl, rfl, rfl⟩, by simp only [ok_iff]; decide +kernel⟩

theorem witness_fence : Met Claims.FencesComplete (.fence 2 0 0xFFFF) bench benchCtx :=
  ⟨_, _, fun h => (h 2 0 0xFFFF 0).1.1, witness_issues, by decide +kernel⟩

/-- A fence of scope `.core` beside a write that it orders. -/
def porchCtx : Ctx := { benchCtx with pos := 1, porch := [scalarHeld benchCtx 0 false 0 scratch 0 1 (.bytes [(0, 7)])] }

theorem witness_fence_core : Met Claims.FencesComplete (.fence 0 0 1) (benchOn 0 porchCtx) porchCtx :=
  ⟨_, _, fun h => (h 0 0 1 0).1.1, issues_with _ rfl rfl, by decide +kernel⟩

theorem witness_fence_x : Met Claims.FencesComplete (.fenceX 5 0x3F) bench benchCtx :=
  ⟨_, _, fun h => (h 5 0 0 0x3F).2.1, witness_issues, by decide +kernel⟩

theorem witness_phase : Met Claims.PhaseSetsTarget (.phase 1 4) bench benchCtx :=
  ⟨_, _, fun h => h 1 4, witness_issues, by decide +kernel⟩

theorem witness_phase_same : Met Claims.PhaseSetsTarget (.phase 1 8) bench benchCtx :=
  ⟨_, _, fun h => h 1 8, witness_issues, by decide +kernel⟩

theorem witness_br : Met Claims.TransfersChooseTheirTarget (.br 2047) bench benchCtx :=
  ⟨_, _, fun h => (h 2047 0).1, witness_issues, by decide +kernel, by decide +kernel, by decide +kernel⟩

theorem witness_call : Met Claims.TransfersChooseTheirTarget (.call 0) bench benchCtx :=
  ⟨_, _, fun h => (h 0 0).2.2.1, witness_issues, by decide +kernel, by decide +kernel, by decide +kernel⟩

theorem witness_jmp : Met Claims.TransfersChooseTheirTarget (.jmp 2) bench benchCtx :=
  ⟨_, _, fun h => (h 0 2).2.1, witness_issues, by decide +kernel, by decide +kernel, by decide +kernel⟩

theorem witness_callr : Met Claims.TransfersChooseTheirTarget (.callr 2) bench benchCtx :=
  ⟨_, _, fun h => (h 0 2).2.2.2.1, witness_issues, by decide +kernel, by decide +kernel, by decide +kernel⟩

theorem witness_ret : Met Claims.TransfersChooseTheirTarget .ret bench benchCtx :=
  ⟨_, _, fun h => (h 0 0).2.2.2.2, witness_issues, by decide +kernel, by decide +kernel, by decide +kernel⟩

/-- One bundle past the end, one before the start, and an offset within a bundle. -/
theorem witness_outside : Claims.TransfersOutsideAreFatal →
    (∃ t, exec (.br 2048) bench = .next t) ∧ (∃ t, exec (.call 0x3FFFF) bench = .next t) ∧ (∃ t, exec (.jmp 1) bench = .next t)
    ∧ (∃ t, exec (.callr 1) bench = .next t)
    ∧ ∃ t, exec .ret (benchOn 0 { benchCtx with s := [(31, 0x10000)] }) = .next t := fun h =>
  ⟨⟨_, (h bench benchCtx 2048 0 witness_issues).1 (by unfold inCode; decide +kernel)⟩,
   ⟨_, (h bench benchCtx 0x3FFFF 0 witness_issues).2.1 (by unfold inCode; decide +kernel)⟩,
   ⟨_, (h bench benchCtx 0 1 witness_issues).2.2.1 (by unfold inCode; decide +kernel)⟩,
   ⟨_, (h bench benchCtx 0 1 witness_issues).2.2.2.1 (by unfold inCode; decide +kernel)⟩,
   ⟨_, (h _ { benchCtx with s := [(31, 0x10000)] } 0 0 ⟨rfl, rfl, rfl⟩).2.2.2.2 (by unfold inCode; decide +kernel)⟩⟩

theorem witness_loop_none : Met Claims.LoopStarts (.loop false 0x38 0x7FE) bench benchCtx :=
  ⟨_, _, fun h => (h false 0x38 0x7FE).1, witness_issues, by decide +kernel, by decide +kernel, by decide +kernel, by decide +kernel⟩

theorem witness_loop : Met Claims.LoopStarts (.loop true 1 1) bench benchCtx :=
  ⟨_, _, fun h => (h true 1 1).2, witness_issues, by decide +kernel⟩

/-- The bench with a table bundle after the first bundle: one pair, BOUND 7 and TARGET 2. -/
def tableBench : State := bench.pokeNum 0x40020 32 (0xF * 2 ^ 20 + 7 * 2 ^ 64 + 2 * 2 ^ 96)
/-- The reading of that table. -/
def tableRead (i : Instr) : State × List (BitVec 256) :=
  got (bench, []) (tableBundles (stateFor i tableBench benchCtx).turn (ctxFor i benchCtx) ((ctxFor i benchCtx).pc + 32 * (1 : BitVec 20).toInt)
    ((0 : BitVec 4).toNat / 3 + 1) (stateFor i tableBench benchCtx))

theorem witness_bucket_found : Met Claims.BucketJump (.bktJmp 1 0 1 0) tableBench benchCtx :=
  ⟨_, _, fun h => (h 1 0 1 0 (tableRead (.bktJmp 1 0 1 0)).1 (tableRead (.bktJmp 1 0 1 0)).2).1 7 2, ⟨by decide +kernel, rfl, rfl⟩,
    got_pair (by decide +kernel), by unfold inCode; decide +kernel⟩

theorem witness_bucket_none : Met Claims.BucketJump (.bktJmp 2 0 1 0) tableBench benchCtx :=
  ⟨_, _, fun h => (h 2 0 1 0 (tableRead (.bktJmp 2 0 1 0)).1 (tableRead (.bktJmp 2 0 1 0)).2).2, ⟨by decide +kernel, rfl, rfl⟩,
    got_pair (by decide +kernel), by decide +kernel⟩

theorem witness_park : Met Obligations.ParkMarkAndExit (.park 0 3) (benchOn 0 lastCtx) lastCtx :=
  ⟨_, _, fun h => (h 0 3).1, issues_with _ rfl rfl,
    by simp only [exists_ok_iff, mayLeave_iff, pointReady]; decide +kernel⟩

theorem witness_mark : Met Obligations.ParkMarkAndExit .segMark (benchOn 0 lastCtx) lastCtx :=
  ⟨_, _, fun h => (h 0 3).2.1, issues_with _ rfl rfl,
    by simp only [exists_ok_iff, mayLeave_iff, pointReady]; decide +kernel⟩

theorem witness_exit : Met Obligations.ParkMarkAndExit .exit (benchOn 0 lastCtx) lastCtx :=
  ⟨_, _, fun h => (h 0 3).2.2.1, issues_with _ rfl rfl,
    by simp only [exists_ok_iff, mayLeave_iff, pointReady]; decide +kernel⟩

/-- A firmware context with only C still to issue. -/
def firmwareCtx : Ctx := { lastCtx with hasRecord := false, record := 0 }

theorem witness_exit_firmware : Met Obligations.ParkMarkAndExit .exit (benchOn 294 firmwareCtx) firmwareCtx :=
  ⟨_, _, fun h => (h 0 3).2.2.2, ⟨rfl, rfl, rfl⟩,
    by simp only [exists_some_iff, exists_ok_iff, pointReady]; decide +kernel⟩

theorem witness_spawn : Met Claims.SpawnIsHeld (.spawn 0 2 0x39) (withPasture bench) benchCtx :=
  ⟨_, _, fun h => by have h := h 0 2 0x39; unfold Claims.Holds at h; exact h, ⟨rfl, rfl, rfl⟩,
    by simp only [ok_iff, holdsNow]; decide +kernel⟩

theorem witness_wakew : Met Claims.WakesAndArrivalsAreHeld (.wakew 1 0 2 0 1) bench benchCtx :=
  ⟨_, _, fun h => (h 1 0 2 0 1 0).1, witness_issues, by simp only [ok_iff, holdsNow]; decide +kernel⟩

/-- A context with a `FOLDM` entry that names fold 3, a valid fold of level 0. -/
def foldCtx : Ctx := { lastCtx with foldm := 0x8003 }
/-- The bench with fold 3 valid: 2 members, in phase 1. -/
def foldBench (c : Ctx) : State := (benchOn 0 c).setFold 3 (BitVec.ofNat 128 (1 + 2 ^ 60 + 2 * 2 ^ 80))

theorem witness_arrive : Met Claims.WakesAndArrivalsAreHeld (.foldArrive 3) (foldBench foldCtx) foldCtx :=
  ⟨_, _, fun h => (h 0 0 0 0 0 3).2 0, ⟨rfl, rfl, rfl⟩, by
    simp only [foldNamed, holdsNow]; decide +kernel⟩

/-- The same context armed for the phase before. -/
def armedCtx : Ctx := { foldCtx with farm := 1 }

theorem witness_fold_stays : Met Claims.FoldWaits (.foldWait 3) (foldBench armedCtx) armedCtx :=
  ⟨_, _, fun h => (h 3 0).1, ⟨rfl, rfl, rfl⟩, by
    simp only [exists_ok_iff, exists_some_iff, mayLeave_iff, pointReady, foldNamed]; decide +kernel⟩

theorem witness_fold_parks : Met Claims.FoldWaits (.foldWait 3) (foldBench foldCtx) foldCtx :=
  ⟨_, _, fun h => (h 3 0).2.1, ⟨rfl, rfl, rfl⟩, by
    simp only [exists_ok_iff, exists_some_iff, mayLeave_iff, pointReady, foldNamed]; decide +kernel⟩

/-- The bench with fold 3 valid for one member, so that the arrival completes it. -/
def lastFoldBench (c : Ctx) : State := (benchOn 0 c).setFold 3 (BitVec.ofNat 128 (1 + 2 ^ 80))

theorem witness_sync_stays : Met Claims.FoldWaits (.foldSync 3) (lastFoldBench foldCtx) foldCtx :=
  ⟨_, _, fun h => (h 3 0).2.2.1, ⟨rfl, rfl, rfl⟩, by
    simp only [exists_ok_iff, exists_some_iff, mayLeave_iff, pointReady, foldNamed, holdsNow]; decide +kernel⟩

theorem witness_sync_parks : Met Claims.FoldWaits (.foldSync 3) (foldBench foldCtx) foldCtx :=
  ⟨_, _, fun h => (h 3 0).2.2.2, ⟨rfl, rfl, rfl⟩, by
    simp only [exists_ok_iff, exists_some_iff, mayLeave_iff, pointReady, foldNamed, holdsNow]; decide +kernel⟩

theorem witness_fold_bytes : Met Claims.FoldBytesAdds (.foldBytes 2 3) (foldBench foldCtx) foldCtx :=
  ⟨_, _, fun h => h 2 3 0, ⟨rfl, rfl, rfl⟩, by
    simp only [exists_ok_iff, foldNamed]; decide +kernel⟩

/-- The word that a `waitw` of four bytes through `k1` compares: the one of the room at offset 64, which is zero. -/
theorem witness_wait_met : Met Claims.WaitStaysOrParks (.waitw 1 0 2 1 false 0 0x38) (benchOn 0 lastCtx) lastCtx :=
  ⟨_, _, fun h => (h 1 0 2 1 false 0 0x38).1, issues_with _ rfl rfl, by
    simp only [ok_iff, exists_ok_iff, mayLeave_iff, pointReady]; decide +kernel⟩

theorem witness_wait_parks : Met Claims.WaitStaysOrParks (.waitw 1 0 2 1 false 0 0x39) (benchOn 0 lastCtx) lastCtx :=
  ⟨_, _, fun h => (h 1 0 2 1 false 0 0x39).2, issues_with _ rfl rfl, by
    simp only [ok_iff, exists_ok_iff, mayLeave_iff, pointReady]; decide +kernel⟩

/-- A context with a capability for object 1 in `k2`. -/
def probeCtx : Ctx := { lastCtx with k := [(0, scratch), (2, mkCap 1 0xFF 0 0x20000 0 true)], s := [(1, 5), (2, 64), (3, 0xFFFE)] }
/-- The machine whose object 1 has a second page, which is not there. -/
def probeBench : State := (benchOn 0 probeCtx).pokeNum 0x10048 8 0x20000

theorem witness_probe_nothing : Met Claims.ProbeStaysOrPins (.probe 0 false 2 0x38) (benchOn 0 lastCtx) lastCtx :=
  ⟨_, _, fun h => (h 0 false 2 0x38).1, issues_with _ rfl rfl, by
    simp only [exists_ok_iff, mayLeave_iff, pointReady]; decide +kernel⟩

theorem witness_probe_there : Met Claims.ProbeStaysOrPins (.probe 2 true 2 1) probeBench probeCtx :=
  ⟨_, _, fun h => (h 2 true 2 1).2.1, ⟨by decide +kernel, rfl, rfl⟩, by
    simp only [exists_ok_iff, exists_some_iff, mayLeave_iff, pointReady]; decide +kernel⟩

theorem witness_probe_pins : Met Claims.ProbeStaysOrPins (.probe 2 true 3 1) probeBench probeCtx :=
  ⟨_, _, fun h => (h 2 true 3 1).2.2.2.2 0x10000, ⟨by decide +kernel, rfl, rfl⟩, by
    simp only [exists_ok_iff, exists_some_iff, mayLeave_iff, pointReady]; decide +kernel⟩

/-- The same with the second page lost, and with the pinfold ring full. -/
def probeLost : State := probeBench.pokeNum 0x22008 8 (3 * 2 ^ 58 + (2 ^ 44 - 1))
def probeFull : State := probeBench.pokeNum (probeBench.pinfold 0) 8 1023

theorem witness_probe_lost : Met Claims.ProbeStaysOrPins (.probe 2 true 3 1) probeLost probeCtx :=
  ⟨_, _, fun h => (h 2 true 3 1).2.2.1, ⟨by decide +kernel, rfl, rfl⟩, by
    simp only [exists_ok_iff, exists_some_iff, mayLeave_iff, pointReady]; decide +kernel⟩

theorem witness_probe_full : Met Claims.ProbeStaysOrPins (.probe 2 true 3 1) probeFull probeCtx :=
  ⟨_, _, fun h => (h 2 true 3 1).2.2.2.1, ⟨by decide +kernel, rfl, rfl⟩, by
    simp only [exists_ok_iff, exists_some_iff, mayLeave_iff, pointReady]; decide +kernel⟩

theorem witness_trap : Met Claims.TrapsFreeze (.trap 1 5) bench benchCtx := ⟨_, _, fun h => (h 1 5).1, witness_issues, by decide +kernel⟩

theorem witness_brk : Met Claims.TrapsFreeze (.brk 5) bench benchCtx := ⟨_, _, fun h => (h 1 5).2, witness_issues, by decide +kernel⟩

/-- A shepherd's context whose `s1` names core 0 and `s2` names nothing. -/
def superCtx : Ctx := { benchCtx with hasRecord := false, record := 0, s := [(1, 0), (2, 63)] }
/-- A shepherd's machine whose core 0 holds a context. -/
def superBench (x : Ctx) : State := (benchOn 288 superCtx).setCore 0 { Core.idle 0 with ctx := some x }

theorem super_issues (x : Ctx) : Issues (superBench x) superCtx := ⟨rfl, rfl, rfl⟩

theorem witness_halt : Claims.SupervisorReturns → ∃ t, exec .halt (superBench benchCtx) = .next t := fun h =>
  ⟨_, (h.2 (got bench (commitPorch (stateFor .halt (superBench benchCtx) superCtx) 288))) (superBench benchCtx) superCtx (super_issues _)
    (got_ok (by decide +kernel))⟩

/-- A `trap` event of core 0, and its context frozen by it with the trap id 0. -/
def trapEv : TrapEv := trapOf bench 0 benchCtx 0x22 5 0 32 (List.replicate 8 0) none 0
def frozenCtx : Ctx := { benchCtx with mode := .frozen trapEv (some 0), issue := none }

theorem witness_resume : Met Claims.ResumesAndKills (.ctxResumeRun 1 2) (superBench frozenCtx) superCtx :=
  ⟨_, _, fun h => (h 1 2 0 frozenCtx trapEv).1, super_issues _, by
    unfold FrozenAs; decide +kernel⟩

theorem witness_resume_park : Met Claims.ResumesAndKills (.ctxResumePark 1 2) (superBench frozenCtx) superCtx :=
  ⟨_, _, fun h => (h 1 2 0 frozenCtx trapEv).2.1, super_issues _, by
    unfold FrozenAs; decide +kernel⟩

theorem witness_kill : Met Claims.ResumesAndKills (.ctxKill 1) (superBench frozenCtx) superCtx :=
  ⟨_, _, fun h => (h 1 2 0 frozenCtx trapEv).2.2.1, super_issues _, by
    unfold FrozenAs; decide +kernel⟩

theorem witness_kill_run : Met Claims.ResumesAndKills (.ctxKillRun 1) (superBench benchCtx) superCtx :=
  ⟨_, _, fun h => (h 1 2 0 benchCtx trapEv).2.2.2, super_issues _, by
    simp only [HoldsContext]; decide +kernel⟩

/-- A context that can be aborted, and one that cannot. -/
def replayCtx : Ctx := { benchCtx with replay := true }

theorem witness_abort : Met Claims.PreemptByState (.ctxResumePre 1 0x38) (superBench replayCtx) superCtx :=
  ⟨_, _, fun h => (h 1 0x38 0 replayCtx).1, super_issues _, ⟨⟨by decide +kernel, by decide +kernel, by unfold HoldsContext; decide +kernel, fun _ => nofun, rfl, .inl rfl⟩, rfl, rfl, rfl⟩⟩

theorem witness_preempt_frozen : Met Claims.PreemptByState (.ctxResumePre 1 0x38) (superBench frozenCtx) superCtx :=
  ⟨_, _, fun h => (h 1 0x38 0 frozenCtx).2.1, super_issues _, ⟨⟨by decide +kernel, by decide +kernel, by unfold HoldsContext; decide +kernel, fun _ => nofun, rfl, .inl rfl⟩, .inl rfl,
    ⟨trapEv, some 0, rfl, by decide +kernel⟩, rfl⟩⟩

theorem witness_preempt_running : Met Claims.PreemptByState (.ctxResumePre 1 0x38) (superBench benchCtx) superCtx :=
  ⟨_, _, fun h => (h 1 0x38 0 benchCtx).2.2, super_issues _, ⟨⟨by decide +kernel, by decide +kernel, by unfold HoldsContext; decide +kernel, fun _ => nofun, rfl, .inl rfl⟩, .inl rfl, .inl rfl, rfl⟩⟩

theorem witness_nameless : Claims.NamelessOnlyRecords → (∃ t, exec (.ctxKill 2) (superBench frozenCtx) = .next t)
    ∧ ∃ t, exec (.ctxKillRun 2) (superBench frozenCtx) = .next t := fun h =>
  ⟨((h 2 0 (superBench frozenCtx) superCtx (.ctxKill 2) (super_issues _)).1 (by simp) fun _ _ _ hf => absurd hf.1 (by decide +kernel)).elim
    fun _ hs => ⟨_, hs⟩,
   ((h 2 0 (superBench frozenCtx) superCtx (.ctxKillRun 2) (super_issues _)).2 (by simp) nofun fun x hx => by
      have e : (stateFor (.ctxKillRun 2) (superBench frozenCtx) superCtx).ctxOf 63 = none := by decide +kernel
      have g := hx.2.2
      rw [show (readInt (stateFor (.ctxKillRun 2) (superBench frozenCtx) superCtx) (ctxFor (.ctxKillRun 2) superCtx) .c 2).toNat = 63 by decide +kernel, e] at g
      cases g).elim fun _ hs => ⟨_, hs⟩⟩

/-- A context whose `xs0` holds an offset or page and `xs1` a length or attributes. -/
def stageCtx (a b : Word) : Ctx := { benchCtx with stage := [(8, a), (9, b)] }

theorem witness_kst : Met Claims.CapabilitiesInMemory (.kst 0 1 2047) bench benchCtx :=
  ⟨_, _, fun h => (h 0 1 0 2047).1, witness_issues, by
    simp only [ok_iff, holdsNow]; decide +kernel⟩

theorem witness_kld : Met Claims.CapabilitiesInMemory (.kld 9 0 0) bench benchCtx :=
  ⟨_, _, fun h => (h 0 0 9 0).2, witness_issues, by
    simp only [ok_iff]; decide +kernel⟩

theorem under_way_iff {s : State} : nothingUnderWay s ↔ ((s.cores.all fun x => x.1 == s.turn || !committingOn s x.1) && s.conns.all fun x => x.2.unacked.isEmpty) = true := by
  simp only [nothingUnderWay, Bool.and_eq_true, List.all_eq_true, Bool.or_eq_true, beq_iff_eq, Bool.not_eq_true', List.isEmpty_iff]
  constructor
  · exact fun h => ⟨fun x hx => (Decidable.em (x.1 = s.turn)).imp id (h.1 x hx), h.2⟩
  · exact fun h => ⟨fun x hx hn => (h.1 x hx).resolve_left hn, h.2⟩

theorem witness_sync : Met Claims.TranslationSync .xlatSync (superBench benchCtx) superCtx :=
  ⟨_, _, fun h => h.1, super_issues _, by simp only [nothingHeld, under_way_iff]; decide +kernel⟩

/-- A shepherd's context with a write held, which `xlat.sync` performs first. -/
def holdingCtx : Ctx := { superCtx with porch := [scalarHeld superCtx 0 false 0 scratch 0 1 (.bytes [(0, 7)])] }
def syncBench : State := (benchOn 288 holdingCtx).setCore 0 { Core.idle 0 with ctx := some benchCtx }
/-- The machine after the commit with which that `xlat.sync` begins. -/
def syncDone : State := got bench (syncCommit (stateFor .xlatSync syncBench holdingCtx) (ctxFor .xlatSync holdingCtx))

theorem witness_sync_spills : Met Claims.TranslationSync .xlatSync syncBench holdingCtx :=
  ⟨_, _, fun h => h.2.1 syncDone, ⟨rfl, rfl, rfl⟩, by decide +kernel, got_ok (by decide +kernel), under_way_iff.mpr (by decide +kernel)⟩

/-- Another core's commit under way: a write of it is checked and still to perform. -/
def committingCtx : Ctx := { benchCtx with committing := true, porch := [{ scalarHeld benchCtx 0 false 0 scratch 0 1 (.bytes [(0, 7)]) with due := true }] }

theorem witness_sync_waits : Claims.TranslationSync → ∃ t, exec .xlatSync (superBench committingCtx) = .next t := fun h =>
  ⟨_, h.2.2.1 _ superCtx (super_issues _) (by decide +kernel) (by unfold nothingHeld; decide +kernel) (by decide +kernel)⟩

/-- That commit complete: the `xlat.sync` that has kept its mark goes on. -/
def syncedCtx : Ctx := { superCtx with issue := some ⟨0, 9, Slot.all, [], [], Slot.all, 0xFF, none, false, false, false, [(Slot.cf.idx, [0, 0, 0])], none⟩ }

theorem witness_sync_goes_on : Met Claims.TranslationSync .xlatSync (benchOn 288 syncedCtx) syncedCtx :=
  ⟨_, _, fun h => h.2.2.2 [0, 0, 0], ⟨rfl, rfl, rfl⟩, by decide +kernel⟩

/-- A shepherd's context that reforms the first page of object 1, with a word of attributes. -/
def reformCtx (page w : Word) : Ctx := { superCtx with k := [(2, mkCap 1 0xFF 0 0x20000 0 true)], stage := [(8, page), (9, w)] }
/-- The machine that it runs on: object 1 has a second page, which is not there. -/
def reformBench (page w : Word) : State := (benchOn 288 (reformCtx page w)).pokeNum 0x10048 8 0x20000
theorem witness_reform_missing : Met Claims.PageReform (.pgReform 2 0 4) (reformBench 0x10000 0x100) (reformCtx 0x10000 0x100) :=
  ⟨_, _, fun h => (h 2 0 4).1, ⟨by decide +kernel, rfl, rfl⟩, by
    simp only [nothingHeld]; decide +kernel⟩

theorem witness_reform_illegal : Met Claims.PageReform (.pgReform 2 0 4) (reformBench 0 0x400) (reformCtx 0 0x400) :=
  ⟨_, _, fun h => (h 2 0 4).2.1, ⟨by decide +kernel, rfl, rfl⟩, by
    simp only [nothingHeld]; decide +kernel⟩

/-- The first page of object 1 being reformed already. -/
def busyBench : State := (reformBench 0 0x100).pokeNum 0x22000 8 (7 * 2 ^ 61 + 4 + 2 ^ 47)

theorem witness_reform_busy : Met Claims.PageReform (.pgReform 2 0 4) busyBench (reformCtx 0 0x100) :=
  ⟨_, _, fun h => (h 2 0 4).2.2.1, ⟨by decide +kernel, rfl, rfl⟩, by
    simp only [nothingHeld]; decide +kernel⟩

theorem witness_reform_begins : Claims.PageReform → ∃ t, exec (.pgReform 2 0 4) (reformBench 0 0x100) = .next t := fun h =>
  ⟨_, (h 2 0 4).2.2.2.1 (reformBench 0 0x100) (reformCtx 0 0x100) ⟨by decide +kernel, rfl, rfl⟩ (by simp only [nothingHeld]; decide +kernel)
    (by decide +kernel) (by decide +kernel) (by decide +kernel) (by decide +kernel)⟩

/-- The reform of that page begun, with nothing left to wait for. -/
def reformingCtx : Ctx := { reformCtx 0 0x100 with
  issue := some ⟨0, 9, Slot.all, [], [], Slot.all, 0xFF, none, false, false, false, [(Slot.cf.idx, [(mkCap 1 0xFF 0 0x20000 0 true).val.toNat, 1, 0, 0x100, 1])], none⟩ }
def reformingBench : State := (benchOn 288 reformingCtx).pokeNum 0x22000 8 (7 * 2 ^ 61 + 4 + 2 ^ 47)

theorem witness_reform_ends : Met Claims.PageReform (.pgReform 2 0 4) reformingBench reformingCtx :=
  ⟨_, _, fun h => (h 2 0 4).2.2.2.2 (mkCap 1 0xFF 0 0x20000 0 true).val.toNat 1 0 0x100 [], ⟨by decide +kernel, rfl, rfl⟩, by decide +kernel⟩

theorem witness_lend_mx_there : Met Obligations.BanksAndTable (.lendMx false) bench benchCtx :=
  ⟨_, _, fun h => (h false 0 0 0).1, witness_issues, by
    simp only []; decide +kernel⟩

theorem witness_lend_mx : Met Obligations.BanksAndTable (.lendMx true) bench benchCtx :=
  ⟨_, _, fun h => (h true 0 0 0).2.1, witness_issues, by
    simp only []; decide +kernel⟩

theorem witness_lend_vec_there : Met Obligations.BanksAndTable (.lendVec true) bench benchCtx :=
  ⟨_, _, fun h => (h true 0 0 0).2.2.1, witness_issues, by
    simp only []; decide +kernel⟩

theorem witness_lend_vec : Met Obligations.BanksAndTable (.lendVec false) bench benchCtx :=
  ⟨_, _, fun h => (h false 0 0 0).2.2.2.1, witness_issues, by
    simp only []; decide +kernel⟩

/-- The bench with bank 1's watermark at 127. -/
def lowBench : State := bench.setWm 0 1 127

theorem witness_lend_fault : Obligations.BanksAndTable → ∃ t, exec (.lendMx true) lowBench = .next t := fun h =>
  ⟨_, (h true 0 0 0).2.2.2.2.2.1 lowBench benchCtx ⟨rfl, rfl, rfl⟩ (by decide +kernel) (by decide +kernel) (by decide +kernel)⟩

theorem witness_vlut_ld : Met Obligations.BanksAndTable (.vlutLd 0 0 1023) bench benchCtx :=
  ⟨_, _, fun h => (h false 0 0 1023).2.2.2.2.2.2, witness_issues, by
    simp only [ok_iff, readsNow]; decide +kernel⟩

/-- Tile 2: two rows of 64 bytes of FP32 at the start of the scratchpad, READY. -/
def tileWord : Nat := 2 ^ 33 + 2 ^ 41 + 2 * 2 ^ 45 + 2 ^ 57
/-- A machine with tile 2 READY, and a context with its staging words. -/
def withTile (s : State) : State := s.setTile 0 2 (BitVec.ofNat 128 (tileWord + 2 * 2 ^ 92))
def tileCtx : Ctx := { benchCtx with stage := [(24, BitVec.ofNat 64 tileWord), (25, 5)], foldm := 0x8003, s := [(1, 5), (2, 64), (3, 0x10000)] }
def tileBench : State := withTile (benchOn 0 tileCtx)

theorem witness_tt_def : Met Claims.TilesAreDefined (.ttDef 2 0 0) tileBench tileCtx :=
  ⟨_, _, fun h => (h 2 0 0 false 0).1, ⟨rfl, rfl, rfl⟩, by
    simp only []; decide +kernel⟩

theorem witness_tt_free : Met Claims.TilesAreDefined (.ttFree 2) tileBench tileCtx :=
  ⟨_, _, fun h => (h 2 0 0 false 0).2.1, ⟨rfl, rfl, rfl⟩, by
    decide +kernel⟩

/-- Handle 5: a page of object 1 to the scratchpad of core 0. -/
def withHandle (s : State) (st pins : Nat) : State :=
  (s.pokeNum 0xA0 32 (2 ^ 40 + 0xFF8000 * 2 ^ 104 + 2 ^ 128 + 2 ^ 176)).setHandle 5 { s.handle 5 with state := st, pins := pins }
/-- The bench with handle 5 in a state. -/
def handleBench (st pins : Nat) : State := withHandle tileBench st pins

theorem witness_tt_bind : Met Claims.TilesAreBoundAndMarked (.ttBind 2 1) (handleBench 0 0) tileCtx :=
  ⟨_, _, fun h => (h 2 1 3).1, ⟨rfl, rfl, rfl⟩, by
    simp only [ready]; decide +kernel⟩

theorem witness_tt_unbind : Met Claims.TilesAreBoundAndMarked (.ttUnbind 2) tileBench tileCtx :=
  ⟨_, _, fun h => (h 2 1 3).2.1, ⟨rfl, rfl, rfl⟩, by
    simp only [ready]; decide +kernel⟩

theorem witness_tt_mark : Met Claims.TilesAreBoundAndMarked (.ttMark 2 3) tileBench tileCtx :=
  ⟨_, _, fun h => (h 2 1 3).2.2.1, ⟨rfl, rfl, rfl⟩, by
    simp only [ready]; decide +kernel⟩

theorem witness_tt_mark_wait : Met Claims.TilesAreBoundAndMarked (.ttMarkWait 2 3) tileBench tileCtx :=
  ⟨_, _, fun h => (h 2 1 3).2.2.2.1, ⟨rfl, rfl, rfl⟩, by
    simp only [ready]; decide +kernel⟩

theorem witness_tt_mark_nofold : Met Claims.TilesAreBoundAndMarked (.ttMarkNofold 2) tileBench tileCtx :=
  ⟨_, _, fun h => (h 2 1 3).2.2.2.2, ⟨rfl, rfl, rfl⟩, by
    simp only [ready]; decide +kernel⟩

/-- The bench with a full queue of requests at the Drover of die 0. -/
def fullBench : State := (handleBench 0 0).setDrover 0 (List.replicate 256 ⟨9, false, false, 0, 0⟩)

theorem witness_fetch : Met Claims.HandleOperations (.whFetchDem 1) (handleBench 0 0) tileCtx :=
  ⟨_, _, fun h => (h 1 5).1, ⟨rfl, rfl, rfl⟩, by
    simp only [NamesHandle]; decide +kernel⟩

theorem witness_fetch_resident : Met Claims.HandleOperations (.whFetchDem 1) (handleBench 2 0) tileCtx :=
  ⟨_, _, fun h => (h 1 5).2.1, ⟨rfl, rfl, rfl⟩, by
    simp only [NamesHandle]; decide +kernel⟩

theorem witness_predict : Met Claims.HandleOperations (.whFetchPred 1) (handleBench 0 0) tileCtx :=
  ⟨_, _, fun h => (h 1 5).2.2.1, ⟨rfl, rfl, rfl⟩, by
    simp only [NamesHandle]; decide +kernel⟩

theorem witness_predict_full : Met Claims.HandleOperations (.whFetchPred 1) fullBench tileCtx :=
  ⟨_, _, fun h => (h 1 5).2.2.2.1, ⟨rfl, rfl, rfl⟩, by
    simp only [NamesHandle]; decide +kernel⟩

theorem witness_predict_refused : Met Claims.HandleOperations (.whFetchPred 3) (handleBench 0 0) tileCtx :=
  ⟨_, _, fun h => (h 3 5).2.2.2.2.1, ⟨rfl, rfl, rfl⟩, by
    decide +kernel⟩

theorem witness_drop : Met Claims.HandleOperations (.whDrop 1) (handleBench 2 0) tileCtx :=
  ⟨_, _, fun h => (h 1 5).2.2.2.2.2.1, ⟨rfl, rfl, rfl⟩, by
    simp only [NamesHandle]; decide +kernel⟩

theorem witness_drop_pinned : Met Claims.HandleOperations (.whDrop 1) (handleBench 2 1) tileCtx :=
  ⟨_, _, fun h => (h 1 5).2.2.2.2.2.2.1, ⟨rfl, rfl, rfl⟩, by
    simp only [NamesHandle]; decide +kernel⟩

theorem witness_pin : Met Claims.HandleOperations (.whPin 1) (handleBench 2 65534) tileCtx :=
  ⟨_, _, fun h => (h 1 5).2.2.2.2.2.2.2.1, ⟨rfl, rfl, rfl⟩, by
    simp only [NamesHandle]; decide +kernel⟩

theorem witness_unpin : Met Claims.HandleOperations (.whUnpin 1) (handleBench 2 65535) tileCtx :=
  ⟨_, _, fun h => (h 1 5).2.2.2.2.2.2.2.2.1, ⟨rfl, rfl, rfl⟩, by
    simp only [NamesHandle]; decide +kernel⟩

theorem witness_query : Met Claims.HandleOperations (.whQry 1) (handleBench 2 0) tileCtx :=
  ⟨_, _, fun h => (h 1 5).2.2.2.2.2.2.2.2.2, ⟨rfl, rfl, rfl⟩, by
    simp only [NamesHandle]; decide +kernel⟩

/-- The context that waits for a handle, C alone still to issue. -/
def waitCtx : Ctx := { lastCtx with s := [(1, 5)] }

theorem witness_wait_resident : Met Claims.HandleWaits (.whWait 1) (withHandle (benchOn 0 waitCtx) 2 0) waitCtx :=
  ⟨_, _, fun h => (h 1 5).1, ⟨rfl, rfl, rfl⟩, by
    simp only []; decide +kernel⟩

theorem witness_wait_absent : Met Claims.HandleWaits (.whWait 1) (withHandle (benchOn 0 waitCtx) 0 0) waitCtx :=
  ⟨_, _, fun h => (h 1 5).2, ⟨rfl, rfl, rfl⟩, by
    simp only [exists_ok_iff, mayLeave_iff, pointReady]; decide +kernel⟩

/-- A READY tile of the scratchpad: its offset, rows, row bytes and format. -/
def plainTile (off rows bytes fmtc : Nat) : Tile :=
  BitVec.ofNat 128 (off + (rows - 1) * 2 ^ 33 + (bytes / 32 - 1) * 2 ^ 41 + bytes / 32 * 2 ^ 45 + fmtc * 2 ^ 57 + 2 * 2 ^ 92)
/-- A context whose third tile is tile 4; the machine with tiles in both bank groups. -/
def mxCtx : Ctx := { benchCtx with stage := [(1, 4)] }
def mxBench : State :=
  (((benchOn 0 mxCtx).setTile 0 2 (plainTile 0 2 64 2)).setTile 0 3 (plainTile 0x100000 32 32 2)).setTile 0 4 (plainTile 0x1000 1 32 0)
    |>.setTile 0 5 (plainTile 0x2000 2 512 1)

theorem witness_mma : Met Obligations.MatrixCommandsQueue (.mma 2 3 false true false false) mxBench mxCtx :=
  ⟨_, _, fun h => (h 2 3 0 false true false 0 0 0).1, ⟨rfl, rfl, rfl⟩, by
    simp only [ok_iff, tileReadable, mxOpen, mxRoom]; decide +kernel⟩

theorem witness_mma_sparse : Met Obligations.MatrixCommandsQueue (.mma 2 3 false false false true) mxBench mxCtx :=
  ⟨_, _, fun h => (h 2 3 0 false false false 0 0 0).2.1, ⟨rfl, rfl, rfl⟩, by
    simp only [ok_iff, tileReadable, mxOpen, mxRoom]; decide +kernel⟩

theorem witness_macc_clr : Met Obligations.MatrixCommandsQueue (.maccClr false 0 127) mxBench mxCtx :=
  ⟨_, _, fun h => (h 0 0 0 false false false 0 127 0).2.2.1, ⟨rfl, rfl, rfl⟩, by
    simp only [mxRoom]; decide +kernel⟩

theorem witness_macc_ld : Met Obligations.MatrixCommandsQueue (.maccLd 2 false 126) mxBench mxCtx :=
  ⟨_, _, fun h => (h 0 0 2 false false false 126 0 0).2.2.2.1, ⟨rfl, rfl, rfl⟩, by
    simp only [tileReadable, mxOpen, mxRoom]; decide +kernel⟩

theorem witness_macc_st : Met Obligations.MatrixCommandsQueue (.maccSt 5 false 126) mxBench mxCtx :=
  ⟨_, _, fun h => (h 0 0 5 false false false 126 0 0).2.2.2.2.1, ⟨rfl, rfl, rfl⟩, by
    simp only [ready, mxOpen, mxRoom]; decide +kernel⟩

theorem witness_mcancel : Met Obligations.MatrixCommandsQueue (.mcancel 3) mxBench mxCtx :=
  ⟨_, _, fun h => (h 0 0 0 false false false 0 0 3).2.2.2.2.2, ⟨rfl, rfl, rfl⟩, by
    decide +kernel⟩

/-- A context whose row registers are the rows of bank 1, which the vector unit owns. -/
def rowCtx : Ctx := { benchCtx with vwin := 4, fmt := 0 }
def rowBench : State := benchOn 0 rowCtx

theorem row_issues : Issues rowBench rowCtx := ⟨rfl, rfl, rfl⟩

theorem witness_row_two : Met Obligations.ElementwiseResults (.vadd .va false 3 1 2) rowBench rowCtx :=
  ⟨_, _, fun h => (h .va false 3 1 2).1, row_issues, ok_of_isOk (by decide +kernel)⟩

theorem witness_row_chain : Met Obligations.ElementwiseResults (.vfma .vb true 0 31 0x24) rowBench rowCtx :=
  ⟨_, _, fun h => (h .vb true 0 31 0x24).2.2.2.1, row_issues, ok_of_isOk (by decide +kernel)⟩

theorem witness_row_one : Met Obligations.ElementwiseResults (.vfloor false 31 0) rowBench rowCtx :=
  ⟨_, _, fun h => (h .vb false 31 0 0).2.2.2.2.2.2.2.2.2.2.2.2.2.2.2.2.2.2.2, row_issues, ok_of_isOk (by decide +kernel)⟩

theorem witness_compare : Met Claims.ComparesAndSelects (.vcmpLt .va 1 2 3) rowBench rowCtx :=
  ⟨_, _, fun h => (h .va 1 false 0 2 3).2.2.1, row_issues, ok_of_isOk (by decide +kernel)⟩

theorem witness_select : Met Claims.ComparesAndSelects (.vsel .vb false 4 2 3) rowBench rowCtx :=
  ⟨_, _, fun h => (h .vb 1 false 4 2 3).2.2.2.2.1, row_issues, ok_of_isOk (by decide +kernel)⟩

theorem witness_vamax : Met Claims.ComparesAndSelects (.vamax false 4 2 3) rowBench rowCtx :=
  ⟨_, _, fun h => (h .va 1 false 4 2 3).2.2.2.2.2, row_issues, ok_of_isOk (by decide +kernel)⟩

theorem witness_convert : Met Claims.VectorConversions (.vcvtFrom .va false 4 2 3 1) rowBench rowCtx :=
  ⟨_, _, fun h => (h .va false 4 2 3 0 1 false).2.1, row_issues, ok_of_isOk (by decide +kernel)⟩

theorem witness_convert_to : Met Claims.VectorConversions (.vcvtTo .va true 0 2 3 1) rowBench rowCtx :=
  ⟨_, _, fun h => (h .va true 0 2 3 0 1 false).1, row_issues, ok_of_isOk (by decide +kernel)⟩

theorem witness_scale : Met Claims.VectorConversions (.vcvtSc .va false 4 2 1 true 3) rowBench rowCtx :=
  ⟨_, _, fun h => (h .va false 4 2 0 1 3 true).2.2, row_issues, ok_of_isOk (by decide +kernel)⟩

theorem witness_reduce : Met Claims.CrossLaneResults (.vredAdd .va false 4 2 3) rowBench rowCtx :=
  ⟨_, _, fun h => (h .va false 4 0 2 3 0 false 0).1, row_issues, ok_of_isOk (by decide +kernel)⟩

theorem witness_extract : Met Claims.CrossLaneResults (.vext .va 4 2 3) rowBench rowCtx :=
  ⟨_, _, fun h => (h .va false 4 0 2 3 0 false 0).2.2.2.2.2.2.2.2.1, row_issues, ok_of_isOk (by decide +kernel)⟩

theorem witness_partition : Met Claims.CrossLaneResults (.vpart .vb false 4 2 1 true 3 5) rowBench rowCtx :=
  ⟨_, _, fun h => (h .vb false 4 5 2 0 1 true 3).2.2.2.2.2.2.2.2.2, row_issues, ok_of_isOk (by decide +kernel)⟩

theorem witness_special : Met Claims.SpecialFunctionResults (.vexp2 false 4 2) rowBench rowCtx :=
  ⟨_, _, fun h => (h .vb false 4 2 0 0).1, row_issues, ok_of_isOk (by decide +kernel)⟩

theorem witness_divide : Met Claims.SpecialFunctionResults (.vdiv false 4 2 3) rowBench rowCtx :=
  ⟨_, _, fun h => (h .vb false 4 2 3 0).2.2.2.2.2.2.2.2.1, row_issues, ok_of_isOk (by decide +kernel)⟩

theorem witness_lut : Met Claims.SpecialFunctionResults (.vlut .va false 4 2 7) rowBench rowCtx :=
  ⟨_, _, fun h => (h .va false 4 2 0 7).2.2.2.2.2.2.2.2.2, row_issues, by
    simp only [ok_iff, rowsOk]; decide +kernel⟩

/-- Two lanes active, by the mask `m1`. -/
def laneCtx : Ctx := { rowCtx with vact := 1, m := [(1, 0x8001)] }
def laneBench : State := benchOn 0 laneCtx

theorem witness_vld : Met Obligations.VectorMemory (.vld .va false 3 2 0 1) laneBench laneCtx :=
  ⟨_, _, fun h => by have h := (h .va false 3 2 0 0 1).1; unfold LoadsLanes at h; exact h, ⟨rfl, rfl, rfl⟩, by
    simp only [ok_iff, readsNow, rowsOk, lanesOk]; decide +kernel⟩

theorem witness_vst : Met Obligations.VectorMemory (.vst .va 3 2 0 1) laneBench laneCtx :=
  ⟨_, _, fun h => (h .va false 3 2 0 0 1).2.1, ⟨rfl, rfl, rfl⟩, by
    simp only [ok_iff, holdsNow, rowsOk, lanesOk]; decide +kernel⟩

theorem witness_vgath : Met Obligations.VectorMemory (.vgath .vb true 0 2 0 1) laneBench laneCtx :=
  ⟨_, _, fun h => by have h := (h .vb true 0 0 2 0 1).2.2.1; unfold LoadsLanes at h; exact h, ⟨rfl, rfl, rfl⟩, by
    simp only [ok_iff, readsNow, rowsOk, lanesOk]; decide +kernel⟩

theorem witness_vscat : Met Obligations.VectorMemory (.vscat .vb 3 2 0 1) laneBench laneCtx :=
  ⟨_, _, fun h => (h .vb false 3 0 2 0 1).2.2.2, ⟨rfl, rfl, rfl⟩, by
    simp only [ok_iff, holdsNow, rowsOk, lanesOk]; decide +kernel⟩

/-- A context with a capability for object 1 in `k2` and staging words G, I and S. -/
def cpCtx (g i w : Nat) : Ctx := { benchCtx with
  k := [(0, scratch), (2, mkCap 1 0xFF 0 0x20000 0 true)], stage := [(8, BitVec.ofNat 64 g), (9, BitVec.ofNat 64 i), (10, BitVec.ofNat 64 w)] }
/-- Tile 2 is READY with two rows of 64 bytes of FP32, tile 6 is an index tile, and object 1 has a second page, a remote one. -/
def cpBench (g i w : Nat) : State :=
  ((((benchOn 0 (cpCtx g i w)).setTile 0 2 (plainTile 0 2 64 1)).setTile 0 6 (plainTile 0x3000 1 32 0)).pokeNum 0x10048 8 0x20000).pokeNum
    0x22008 8 (3 * 2 ^ 62 + 2 * 2 ^ 58 + 3 * 2 ^ 30 + 7)
theorem cp_issues (g i w : Nat) : Issues (cpBench g i w) (cpCtx g i w) := ⟨rfl, rfl, rfl⟩

theorem witness_fill : Met Obligations.TileCopiesQueue (.cpFill 2 2 0 true 1) (cpBench 0 0 0) (cpCtx 0 0 0) :=
  ⟨_, _, fun h => (h 2 2 0 1 true [] 0).1, cp_issues _ _ _, by
    simp only [ok_iff, ready, tileReadable, cpRoom, copyOk, copyReady]; decide +kernel⟩

theorem witness_drain : Met Obligations.TileCopiesQueue (.cpDrain 2 2 0 false 1) (cpBench 0xFF80 0 0) (cpCtx 0xFF80 0 0) :=
  ⟨_, _, fun h => (h 2 2 0 1 false [] 0).2.1, cp_issues _ _ _, by
    simp only [ok_iff, ready, tileReadable, cpRoom, copyOk, copyReady]; decide +kernel⟩

/-- That a check gives a value, as a Bool. -/
theorem ok_val_iff {α : Type} [DecidableEq α] {e : Except Stop α} {v : α} :
    e = .ok v ↔ (match e with | .ok w => decide (w = v) | .error _ => false) = true := by
  cases e <;> simp

theorem witness_gather : Met Obligations.TileCopiesQueue (.cpGath 2 2 0 1) (cpBench 64 (2 ^ 38 + 6 * 256 + 1) 0) (cpCtx 64 (2 ^ 38 + 6 * 256 + 1) 0) :=
  ⟨_, _, fun h => (h 2 2 0 1 false [0, 0] 0).2.2.1, cp_issues _ _ _, by
    simp only [ready, tileReadable, cpRoom, copyOk, copyReady, ok_val_iff, reduceIte]; decide +kernel⟩

theorem witness_scatter : Met Obligations.TileCopiesQueue (.cpScat 2 2 0 1) (cpBench 64 (2 ^ 38 + 6 * 256 + 1) 0) (cpCtx 64 (2 ^ 38 + 6 * 256 + 1) 0) :=
  ⟨_, _, fun h => (h 2 2 0 1 false [0, 0] 0).2.2.2.1, cp_issues _ _ _, by
    simp only [ready, tileReadable, cpRoom, copyOk, copyReady, ok_val_iff]; decide +kernel⟩

/-- Tile 2 bound to handle 5, whose descriptor is placed. -/
def boundBench : State :=
  ((benchOn 0 (cpCtx 0 0 0)).setTile 0 2 (setBits (setBits (plainTile 0 2 64 1) 91 1 1) 75 16 5)).pokeNum 0xA0 32
    (2 ^ 40 + 0xFF8000 * 2 ^ 104 + 2 ^ 128 + 2 ^ 176)

theorem witness_fill_bound : Met Obligations.TileCopiesQueue (.cpFill 2 0 0 false 1) boundBench (cpCtx 0 0 0) :=
  ⟨_, _, fun h => (h 2 2 0 1 false [] 5).2.2.2.2, ⟨rfl, rfl, rfl⟩, by
    simp only [ready, tileReadable, cpRoom, copyReady, ok_val_iff, reduceIte]; decide +kernel⟩

theorem witness_broadcast : Met Obligations.OtherCopiesQueue (.cpBcst 2 0 0 1) (cpBench 0x1FFF80 2 0) (cpCtx 0x1FFF80 2 0) :=
  ⟨_, _, fun h => (h 2 0 0 1).1, cp_issues _ _ _, by
    simp only [ready, tileReadable, cpRoom, copyReady, ok_val_iff]; decide +kernel⟩

theorem witness_copy_reduce : Met Obligations.OtherCopiesQueue (.cpRedFadd 2 2 0 1) (cpBench 0 0 0) (cpCtx 0 0 0) :=
  ⟨_, _, fun h => (h 2 2 0 1).2.1, cp_issues _ _ _, by
    simp only [ready, tileReadable, cpRoom, copyOk, copyReady, ok_val_iff]; decide +kernel⟩

theorem witness_select_rows : Met Obligations.OtherCopiesQueue (.cpSelr 2 2 0 1) (cpBench (15 * 2 ^ 40) (15 * 2 ^ 40) 0)
    (cpCtx (15 * 2 ^ 40) (15 * 2 ^ 40) 0) :=
  ⟨_, _, fun h => (h 2 2 0 1).2.2.2.2.2.2.1, cp_issues _ _ _, by
    simp only [ready, tileReadable, cpRoom, copyOk, copyReady, ok_val_iff, reduceIte]; decide +kernel⟩

theorem witness_select_columns : Met Obligations.OtherCopiesQueue (.cpSelc 2 2 0 1) (cpBench (1 * 2 ^ 40) (2 ^ 63 + 1024) 0)
    (cpCtx (1 * 2 ^ 40) (2 ^ 63 + 1024) 0) :=
  ⟨_, _, fun h => (h 2 2 0 1).2.2.2.2.2.2.2.1, cp_issues _ _ _, by
    simp only [ready, tileReadable, cpRoom, copyOk, copyReady, ok_val_iff]; decide +kernel⟩

theorem witness_put : Met Claims.RemoteCopiesQueue (.cpRmaPut 2 2 0 1) (cpBench 0x10000 0 0) (cpCtx 0x10000 0 0) :=
  ⟨_, _, fun h => (h 2 2 0 1 none).1, cp_issues _ _ _, by
    simp only [ready, tileReadable, cpRoom, copyOk, copyReady, ok_val_iff]; decide +kernel⟩

theorem witness_get : Met Claims.RemoteCopiesQueue (.cpRmaGet 2 2 0 1) (cpBench 0x10000 2 0) (cpCtx 0x10000 2 0) :=
  ⟨_, _, fun h => (h 2 2 0 1 none).2.2.2.1.1, cp_issues _ _ _, by
    simp only [ready, tileReadable, cpRoom, copyOk, copyReady, ok_val_iff, reduceIte]; decide +kernel⟩

/-- A GET behind a command of its class. -/
def getBehind : State := (cpBench 0x10000 2 0).modCore 0 fun y => { y with cp := [{ newCp (cpBench 0 0 0) (cpCtx 0 0 0) 1 3 (mkCap 1 0xFF 0 0x20000 0 true) 1 with id := 7 }] }

theorem witness_get_waits : Claims.RemoteCopiesQueue → ∃ t, exec (.cpRmaGet 2 2 0 1) getBehind = .next t := fun h =>
  ⟨_, (h 2 2 0 1 none).2.2.2.1.2 getBehind (cpCtx 0x10000 2 0) ⟨rfl, rfl, rfl⟩
    (by simp only [ready, tileReadable, cpRoom, copyOk, copyReady, ok_val_iff, reduceIte]; decide +kernel)
    fun e => absurd (e.1 _ (List.mem_cons_self ..)).1 (by decide +kernel)⟩

theorem witness_ramo : Met Claims.RemoteCopiesQueue (.cpRamo 2 2 0 1) (cpBench 0x10000 0 0) (cpCtx 0x10000 0 0) :=
  ⟨_, _, fun h => (h 2 2 0 1 none).2.2.2.2.1, cp_issues _ _ _, by
    simp only [ready, tileReadable, cpRoom, copyOk, copyReady, ok_val_iff]; decide +kernel⟩

theorem witness_grant : Met Claims.RemoteCopiesQueue (.cpPmtGrant 2 0 1) (cpBench 0x10008 1 0) (cpCtx 0x10008 1 0) :=
  ⟨_, _, fun h => (h 2 2 0 1 none).2.2.2.2.2.1, cp_issues _ _ _, by
    simp only [cpRoom, copyOk, ok_val_iff]; decide +kernel⟩

theorem witness_take : Met Claims.RemoteCopiesQueue (.cpPmtTake 2 0 1) (cpBench 8 0 0) (cpCtx 8 0 0) :=
  ⟨_, _, fun h => (h 2 2 0 1 none).2.2.2.2.2.2, cp_issues _ _ _, by
    simp only [nothingOpen, cpRoom, copyOk, ok_val_iff]; decide +kernel⟩

theorem witness_cancelled : Claims.CopiesAreCancelled →
    ∀ x ∈ ((cancelCopies (cpBench 0 0 0) 0 fun l => l.contains 2).core 0).cp, x.names.contains 2 = false :=
  fun h => (h.2.2.2 (cpBench 0 0 0) 0 (cpCtx 0 0 0) (fun l => l.contains 2) rfl).1

theorem witness_cancel_failed : Claims.CopiesAreCancelled → ∃ t, exec (.cpCancel 2) ((cpBench 0 0 0).tileTo 0 2 4) = .next t := fun h =>
  ⟨_, h.2.1 2 ((cpBench 0 0 0).tileTo 0 2 4) (cpCtx 0 0 0) ⟨rfl, rfl, rfl⟩ (by decide +kernel) (by decide +kernel)⟩

/-- A tile of 128 rows of 512 bytes of FP32, and a second page of object 1 in HBM. -/
def gdrainBench : State :=
  (((benchOn 0 (cpCtx 0 (2 ^ 24 * 3) 0)).setTile 0 2 (plainTile 0 128 512 1)).pokeNum 0x10048 8 0x20000).pokeNum 0x22008 8 (7 * 2 ^ 61 + 5)

theorem witness_group_drain : Met Obligations.OtherCopiesQueue (.cpGdrain 2 2 0 1) gdrainBench (cpCtx 0 (2 ^ 24 * 3) 0) :=
  ⟨_, _, fun h => (h 2 2 0 1).2.2.2.2.2.2.2.2, ⟨rfl, rfl, rfl⟩, by
    simp only [ok_iff, ready, tileReadable, cpRoom, copyOk, copyReady]; decide +kernel⟩

/-- A machine with the arguments of an event. -/
def ev (a : EventArgs) (s : State) : State := { s with args := a }
/-- No arguments. -/
def noArgs : EventArgs := EventArgs.none

/-- The shepherd's core runs, and an event has its arguments. -/
def hub (c : Ctx) (a : EventArgs) : State := ev { a with core := 288 } (benchOn 288 c)

theorem witness_hub_worker : Obligations.HubWrites → (∃ t, Happens .hresetWrite bench t) ∧ ∃ t, Happens .schcfgWrite (hub superCtx { noArgs with id := 5 }) t :=
  fun h => ⟨⟨_, ((h bench).1 (by decide)).1⟩, ⟨_, (h (hub superCtx { noArgs with id := 5 })).2.1 (by decide) (by decide)⟩⟩

theorem witness_hreset : Obligations.HubWrites → (∃ t, Happens .hresetWrite (ev { noArgs with core := 288, val := 5 } (handleBench 4 0)) t)
    ∧ ∃ t, Happens .hresetWrite (hub superCtx { noArgs with val := 65536 }) t := fun h =>
  ⟨⟨_, ((h (ev { noArgs with core := 288, val := 5 } (handleBench 4 0))).2.2.1 (by decide)).1.1 (by decide) (by decide +kernel)⟩,
   ⟨_, ((h (hub superCtx { noArgs with val := 65536 })).2.2.1 (by decide)).1.2 (.inl (by decide))⟩⟩

theorem witness_foldlo : Obligations.HubWrites → ∃ t, Happens .foldloWrite (hub superCtx noArgs) t := fun h =>
  ⟨_, ((h (hub superCtx noArgs)).2.2.1 (by decide)).2.1 superCtx rfl⟩

/-- The shepherd with `FOLDLO` written. -/
def hubFoldCtx : Ctx := { superCtx with foldLo := some 1 }

theorem witness_foldhi : Obligations.HubWrites → ∃ t, Happens .foldhiWrite (hub hubFoldCtx { noArgs with val := 1 <<< 16 }) t :=
  fun h => ⟨_, (((h (hub hubFoldCtx { noArgs with val := 1 <<< 16 })).2.2.1 (by decide)).2.2 hubFoldCtx rfl).1
    (by decide +kernel) (by decide +kernel) (by decide +kernel) (by decide +kernel)⟩

theorem witness_foldhi_illegal : Obligations.HubWrites → Leads .foldhiWrite (hub hubFoldCtx noArgs) fun _ => True :=
  fun h => ((((h (hub hubFoldCtx noArgs)).2.2.1 (by decide)).2.2 hubFoldCtx rfl).2 (by decide +kernel)).imp fun _ p => ⟨p.1, trivial⟩

theorem witness_descriptor_foreign : Obligations.HubWrites → ∃ t, Happens .spaceDescriptorWrite (ev { noArgs with id := 1 } bench) t := fun h =>
  ⟨_, (h (ev { noArgs with id := 1 } bench)).2.2.2.1 (by unfold ownedBy; decide +kernel)⟩

theorem witness_descriptor_same : Obligations.HubWrites → ∃ t, Happens .spaceDescriptorWrite (hub superCtx { noArgs with val := 7 }) t := fun h =>
  ⟨_, (h (hub superCtx { noArgs with val := 7 })).2.2.2.2.1 (by unfold ownedBy; decide +kernel) (by decide +kernel)⟩

theorem witness_descriptor_new : Obligations.HubWrites → ∃ t, Happens .spaceDescriptorWrite (hub superCtx { noArgs with val := 0x10007 }) t := fun h =>
  ⟨_, (h (hub superCtx { noArgs with val := 0x10007 })).2.2.2.2.2.1 (by unfold ownedBy; decide +kernel) (by decide +kernel)⟩

theorem witness_clear_end : Obligations.HubWrites → ∃ t, Happens .localSpaceClearEnd { bench with clearing := [(0, 0x10001)] } t := fun h =>
  ⟨_, (h { bench with clearing := [(0, 0x10001)] }).2.2.2.2.2.2.1 0x10001 (by decide +kernel)⟩

/-- The shepherd of a cluster and the housekeeper write its `SCHCFG`. -/
theorem witness_schcfg : Obligations.HubWrites → Leads .schcfgWrite (hub superCtx { noArgs with val := 0x30 }) (fun _ => True)
    ∧ Leads .schcfgWrite (ev { noArgs with core := 294, id := 5, val := 0x30 } bench) fun _ => True :=
  fun h => ⟨((h (hub superCtx { noArgs with val := 0x30 })).2.2.2.2.2.2.2 (.inr rfl)).imp fun _ p => ⟨p.1, trivial⟩,
    ((h (ev { noArgs with core := 294, id := 5, val := 0x30 } bench)).2.2.2.2.2.2.2 (.inl rfl)).imp fun _ p => ⟨p.1, trivial⟩⟩

/-- A context between bundles. -/
def freshBench (b : BitVec 32) : State := benchOn 0 { benchCtx with issue := none, budget := b }

theorem witness_bundle_check : Obligations.CoreSteps → ∃ t, Happens .bundleCheck (freshBench 9) t := fun h =>
  have e : isOk (fetch (freshBench 9) 0 { benchCtx with issue := none, budget := 9 }) = true := by decide +kernel
  ⟨_, (((h (freshBench 9) { benchCtx with issue := none, budget := 9 }).2.2.2 rfl).1 rfl (by decide +kernel) (.inr (by decide))
    _ _ (got_pair (d := (bench, 0)) e)).1 (by decide +kernel)⟩

theorem witness_bundle_illegal : Obligations.CoreSteps → ∃ t, Happens .bundleCheck ((freshBench 9).poke 0x40000 1) t := fun h =>
  have e : isOk (fetch ((freshBench 9).poke 0x40000 1) 0 { benchCtx with issue := none, budget := 9 }) = true := by decide +kernel
  ⟨_, (((h ((freshBench 9).poke 0x40000 1) { benchCtx with issue := none, budget := 9 }).2.2.2 rfl).1 rfl (by decide +kernel) (.inr (by decide))
    _ _ (got_pair (d := (bench, 0)) e)).2 8 (by decide +kernel)⟩

theorem witness_budget : Obligations.CoreSteps → ∃ t, Happens .budgetTrap (freshBench 0) t := fun h =>
  ⟨_, ((h (freshBench 0) { benchCtx with issue := none, budget := 0 }).2.2.2 rfl).2.1 rfl rfl rfl⟩

/-- The bench with its core under self-test, which passes or fails. -/
def testBench (pass : Bool) : State := ev { noArgs with flag := pass } (bench.modCore 0 fun x => { x with selfTest := true })
/-- An idle core asked to test itself, the last of its register of the health page. -/
def idleTest (pass : Bool) : State := ev { noArgs with core := 63, flag := pass } (bench.modCore 63 fun x => { x with selfTest := true })

theorem witness_result : Obligations.CoreSteps → (∃ t, Happens .variableLatencyResult bench t) ∧ (∃ t, Happens .variableLatencyResult (ev { noArgs with flag := true } bench) t)
    ∧ ∃ t, Happens .variableLatencyResult (benchOn 0 { benchCtx with issue := benchCtx.issue.map fun i => { i with join := [.ia, .ib] } }) t := fun h =>
  ⟨⟨_, ((h bench benchCtx).2.2.2 rfl).2.2.1.1 (by decide +kernel) rfl⟩,
   ⟨_, ((h (ev { noArgs with flag := true } bench) benchCtx).2.2.2 rfl).2.2.1.2.1 (by decide +kernel) rfl⟩,
   ⟨_, ((h _ _).2.2.2 rfl).2.2.1.2.2 (by decide +kernel)⟩⟩

theorem witness_self_test : Obligations.CoreSteps → (∃ t, Happens .coreSelfTest (testBench true) t)
    ∧ Leads .coreSelfTest (testBench false) (fun t => (t.core 0).retired = true) ∧ (∃ t, Happens .coreSelfTest (idleTest true) t)
    ∧ Leads .coreSelfTest (idleTest false) (fun t => (t.core 63).retired = true) ∧ ∃ t, Happens .coreSelfTest bench t := fun h =>
  ⟨⟨_, (h (testBench true) benchCtx).2.1 rfl rfl⟩, ((h (testBench false) benchCtx).2.2.1 rfl rfl).imp fun _ p => ⟨p.1, p.2.1⟩,
   ⟨_, (h (idleTest true) benchCtx).2.1 (by decide +kernel) rfl⟩,
   ((h (idleTest false) benchCtx).2.2.1 (by decide +kernel) rfl).imp fun _ p => ⟨p.1, p.2.1⟩, ⟨_, (h bench benchCtx).1 rfl⟩⟩

/-- A held `spawn` into pasture 1, and one slot reserved already. -/
def spawnHeld : Held :=
  { path := .p, cls := 0, rel := false, scope := 0, group := 0, slot := .c, pos := 0, cap := scratch, off := 64, len := 64, fold := none, cmd := none,
    tile := none, op := .spawn 1 }
def spawnCtx : Ctx := { benchCtx with porch := [spawnHeld, spawnHeld], reserved := [1] }

theorem witness_reserve : Obligations.CoreSteps → ∃ t, Happens .spawnSlotReserve (withPasture (benchOn 0 spawnCtx)) t := fun h =>
  ⟨_, ((h (withPasture (benchOn 0 spawnCtx)) spawnCtx).2.2.2 rfl).2.2.2.1 (by decide) rfl⟩

/-- A context whose porch is full of releases of one byte, behind a vector write. -/
def releaseHeld : Held := { spawnHeld with rel := true, cls := 16, slot := .ib, len := 1, op := .bytes [(64, 7)] }
def oldestHeld : Held := { spawnHeld with path := .v, slot := .va, off := 128, len := 1, op := .bytes [(128, 7)] }
def fullCtx : Ctx := { benchCtx with porch := oldestHeld :: List.replicate 8191 releaseHeld }

theorem release_blocks : releaseHeld.blocks = [1] := by decide +kernel
theorem oldest_blocks : oldestHeld.blocks = [2] := by decide +kernel

theorem releases_counted (n : Nat) : entryCount (oldestHeld :: List.replicate n releaseHeld) = n + 1 := by
  unfold entryCount
  suffices h : ∀ a : List (Nat × Nat × Path × Nat × Nat), (List.foldl (fun a h => h.blocks.foldl (fun a b =>
      match a.find? fun x => x.1 == h.obj && x.2.1 == b with
      | some x => if x.2.2 = (h.path, h.cls, h.group) ∧ !h.parts then a else (h.obj, b, h.path, h.cls, h.group) :: a
      | none => (h.obj, b, h.path, h.cls, h.group) :: a) a) a (List.replicate n releaseHeld)).length = a.length + n from
    (h (oldestHeld.blocks.foldl (fun a b => (oldestHeld.obj, b, oldestHeld.path, oldestHeld.cls, oldestHeld.group) :: a) [])).trans
      (by rw [oldest_blocks]; simp [Nat.add_comm])
  induction n with
  | zero => simp
  | succ n ih =>
    intro a
    rw [List.replicate_succ, List.foldl_cons, ih, release_blocks]
    simp only [List.foldl_cons, List.foldl_nil]
    split <;> simp [releaseHeld, Held.parts] <;> omega

theorem full_spills : isOk (spill (benchOn 0 fullCtx) 0 fun h => some h == (spillable (benchOn 0 fullCtx) 0 fullCtx).head?) = true := by decide +kernel

theorem full_counted : 8192 ≤ entryCount fullCtx.porch := Nat.le_of_eq (releases_counted 8191).symm

theorem full_holds : (benchOn 0 fullCtx).ctxOf 0 = some fullCtx := rfl

theorem witness_spill : Obligations.CoreSteps → ∃ t, Happens .porchSpill (benchOn 0 fullCtx) t := fun h =>
  ⟨_, ((h (benchOn 0 fullCtx) fullCtx).2.2.2 full_holds).2.2.2.2 full_counted rfl _ (got_ok (d := bench) full_spills)⟩

theorem some_of {α : Type} {d : α} {o : Option α} (h : o.isSome = true) : o = some (o.getD d) := by
  cases o <;> simp_all

/-- A shepherd between bundles, with a trap event in its queue. -/
def deliverCtx : Ctx := { superCtx with issue := none }

theorem witness_delivery : Obligations.TrapDeliveryTakes →
    Leads .trapDelivery { benchOn 288 deliverCtx with queues := [(0, [trapEv])] } (fun t => sget [] t.queues 0 = [])
    ∧ ∃ t, Happens .trapDelivery (benchOn 288 deliverCtx) t := fun h =>
  ⟨((h { benchOn 288 deliverCtx with queues := [(0, [trapEv])] } deliverCtx trapEv [] (by decide) rfl rfl rfl (.inl ⟨rfl, rfl⟩)).1 rfl).imp fun _ p => ⟨p.1, p.2.1⟩,
   ⟨_, (h (benchOn 288 deliverCtx) deliverCtx trapEv [] (by decide) rfl rfl rfl (.inl ⟨rfl, rfl⟩)).2.2 (by decide +kernel) (.inl (by decide))⟩⟩

theorem witness_delivery_halted : Obligations.TrapDeliveryTakes →
    Leads .trapDelivery { benchOn 288 { deliverCtx with mode := .halted } with queues := [(0, [trapEv])] } fun t => sget [] t.queues 0 = [] := fun h =>
  ((h { benchOn 288 { deliverCtx with mode := .halted } with queues := [(0, [trapEv])] } { deliverCtx with mode := .halted } trapEv [] (by decide) rfl rfl rfl
    (.inr rfl)).1 rfl).imp fun _ p => ⟨p.1, p.2.1⟩

/-- The housekeeper's management event. -/
theorem witness_hub_event : Obligations.TrapDeliveryTakes →
    Leads .trapDelivery (ev { noArgs with id := 6 } { benchOn 294 deliverCtx with hubEvents := 1 }) fun t => t.hubEvents + 1 = 1 := fun h =>
  ((h (ev { noArgs with id := 6 } { benchOn 294 deliverCtx with hubEvents := 1 }) deliverCtx trapEv [] (by decide) rfl rfl rfl (.inl ⟨rfl, rfl⟩)).2.1
    (by decide +kernel) rfl (by decide)).imp fun _ p => ⟨p.1, p.2.1⟩

/-- The bench with matrix commands in its engine. -/
def mxWith (flag : Bool) (l : List MxCmd) : State := ev { noArgs with flag := flag } (bench.modCore 0 fun x => { x with mx := l })
/-- A `macc.clr` of two rows from row 3, a `macc.st` of one row into tile 5, and an `mma` of one element. -/
def clrCmd : MxCmd := mxCommand benchCtx 2 0 3 2 [] []
def stCmd : MxCmd := mxCommand benchCtx 4 0 3 1 [5] [plainTile 0x2000 1 32 1]
def mmaCmd : MxCmd := { mxCommand benchCtx 1 0 0 1 [2, 3] [plainTile 0 2 64 2, plainTile 0x100000 32 32 2] with gens := [0, 0] }

theorem witness_mx_start : Obligations.MatrixSteps → (∃ t, Happens .mxCommandStart (mxWith false [clrCmd]) t)
    ∧ ∃ t, Happens .mxCommandStart (mxWith true [stCmd]) t := fun h =>
  ⟨⟨_, (h (mxWith false [clrCmd]) benchCtx 0 clrCmd bench rfl rfl).1 (by decide +kernel) (by decide)⟩,
   ⟨_, (h (mxWith true [stCmd]) benchCtx 0 stCmd bench rfl rfl).2.1 (by decide +kernel) (by decide)⟩⟩

/-- A command that has started. -/
def begun (x : MxCmd) : MxCmd := { x with started := true }

theorem witness_mx_row : Obligations.MatrixSteps → ∃ t, Happens .mmaRowFinal (mxWith false [begun clrCmd]) t := fun h =>
  ⟨_, (h (mxWith false [begun clrCmd]) benchCtx 0 (begun clrCmd) bench rfl rfl).2.2.1 (by decide +kernel) rfl rfl (.inl rfl)
    (by simp only [ok_iff]; decide +kernel)⟩

theorem witness_mma_row : Obligations.MatrixSteps → ∃ t, Happens .mmaRowFinal (mxWith false [begun mmaCmd]) t := fun h =>
  ⟨_, (h (mxWith false [begun mmaCmd]) benchCtx 0 (begun mmaCmd) _ rfl rfl).2.2.2.1 (by decide +kernel) rfl rfl
    (fun _ t ht => ok_of_isOk (List.all_eq_true.1
      (show ((begun mmaCmd).tiles.zip (begun mmaCmd).gens).all (fun t => isOk (portCheck _ (whoOf 0 benchCtx) (some t.2) (Tile.obj t.1) (Tile.offset t.1) (Tile.stop t.1 - Tile.offset t.1) false 0)) = true
        by decide +kernel) t ht)) (some_of (d := bench) (by decide +kernel)) ⟨begun mmaCmd, by decide +kernel⟩⟩

theorem witness_mx_complete : Obligations.MatrixSteps → ∃ t, Happens .mxCommandComplete (mxWith false [{ begun clrCmd with done := 2 }]) t := fun h =>
  ⟨_, (h (mxWith false [{ begun clrCmd with done := 2 }]) benchCtx 0 { begun clrCmd with done := 2 } bench rfl rfl).2.2.2.2.1
    (by decide +kernel) (by decide) (by decide)⟩

theorem witness_mx_store_complete : Obligations.MatrixSteps → ∃ t, Happens .mxCommandComplete (mxWith true [begun stCmd]) t := fun h =>
  ⟨_, (h (mxWith true [begun stCmd]) benchCtx 0 (begun stCmd) _ rfl rfl).2.2.2.2.2
    (by decide +kernel) rfl (by decide +kernel) (got_ok (d := bench) (by decide +kernel))⟩

/-- A copy command of the bench: its kind and its rows. -/
def cpCmd (kind : Nat) (rows : List (Nat × Nat)) : CpCmd :=
  { newCp (cpBench 0 0 0) (cpCtx 0 0 0) kind 2 (mkCap 1 0xFF 0 0x20000 0 true) 1 with rows := rows.map fun r => ⟨r.1, 0, 64, r.2⟩ }
/-- The bench with one copy command in its engine. -/
def cpWith (x : CpCmd) : State := (cpBench 0 0 0).modCore 0 fun y => { y with cp := [x] }
/-- A drain of two rows. -/
def twoRows : CpCmd := cpCmd 2 [(0, 0), (1, 64)]
/-- A fill whose first four bytes are read and have still to land. -/
def landingCmd : CpCmd := { cpCmd 1 [] with moves := [(0, [(64, 7), (65, 8), (66, 9), (67, 10)])] }

theorem witness_copy_row : Obligations.CopySteps → ∃ t, Happens .copySourceRead (cpWith twoRows) t := fun h =>
  ⟨_, (h (cpWith twoRows) (cpCtx 0 0 0) twoRows ⟨0, 0, 64, 0⟩ _ rfl).1
    (by decide +kernel) rfl rfl rfl (by decide +kernel) (by decide +kernel) (by decide +kernel) (got_ok (d := bench) (by decide +kernel))⟩

theorem witness_copy_failed : Obligations.CopySteps →
    ∃ t, Happens .copySourceRead (withHandle (cpWith { cpCmd 1 [(0, 0)] with handle := some 5 }) 4 0) t := fun h =>
  ⟨_, (h (withHandle (cpWith { cpCmd 1 [(0, 0)] with handle := some 5 }) 4 0) (cpCtx 0 0 0) { cpCmd 1 [(0, 0)] with handle := some 5 }
    ⟨0, 0, 64, 0⟩ bench rfl).2.1 (by decide +kernel) 0 rfl rfl⟩

theorem witness_landing : Obligations.CopySteps → ∃ t, Happens .byteLanding (cpWith landingCmd) t := fun h =>
  ⟨_, (h (cpWith landingCmd) (cpCtx 0 0 0) landingCmd ⟨0, 0, 64, 0⟩ bench rfl).2.2.1 (by decide +kernel) _ rfl (by decide +kernel)
    (by simp only [ok_iff]; decide +kernel)⟩

theorem witness_copy_complete : Obligations.CopySteps → (∃ t, Happens .copyCommandComplete (cpWith (cpCmd 1 [])) t)
    ∧ ∃ t, Happens .copyCommandComplete (cpWith (cpCmd 2 [])) t := fun h =>
  ⟨⟨_, (h (cpWith (cpCmd 1 [])) (cpCtx 0 0 0) (cpCmd 1 []) ⟨0, 0, 64, 0⟩ bench rfl).2.2.2.1 (by decide +kernel) rfl rfl (by decide) (by decide)⟩,
   ⟨_, (h (cpWith (cpCmd 2 [])) (cpCtx 0 0 0) (cpCmd 2 []) ⟨0, 0, 64, 0⟩ bench rfl).2.2.2.2.1 (by decide +kernel) rfl rfl (by decide)⟩⟩

/-- An atomic drain of one row. -/
def wholeCmd : CpCmd := { cpCmd 2 [(0, 0)] with atomic := true }

theorem witness_atomic_tile : Obligations.CopySteps → ∃ t, Happens .atomicTile (cpWith wholeCmd) t := fun h =>
  ⟨_, (h (cpWith wholeCmd) (cpCtx 0 0 0) wholeCmd ⟨0, 0, 64, 0⟩ _ rfl).2.2.2.2.2.1
    (by decide +kernel) rfl (by decide) (by decide +kernel) (got_ok (d := bench) (by decide +kernel))⟩

/-- Parts of group drain 3 of the first quad. -/
def part : GroupPart := ⟨0, 3, 0, [(0, 7)], 0, scratch, 0, 0, 1024, none, false⟩
def partBench (l : List GroupPart) (time : Nat) : State := { ev { noArgs with code := 3 } bench with parts := [(0, l)], time := time }

/-- Four parts perform up to the last moment, and one part times out from that moment on. -/
theorem witness_group : Obligations.CopySteps → (∃ t, Happens .groupDrainPerform (partBench [part, part, part, part] 100000) t)
    ∧ ∃ t, Happens .groupDrainTimeout (partBench [part] 100000) t := fun h =>
  ⟨⟨_, ((h (partBench [part, part, part, part] 100000) benchCtx (cpCmd 2 []) ⟨0, 0, 64, 0⟩ bench rfl).2.2.2.2.2.2 part part part part).1
    (by decide +kernel)⟩,
   ⟨_, ((h (partBench [part] 100000) benchCtx (cpCmd 2 []) ⟨0, 0, 64, 0⟩ bench rfl).2.2.2.2.2.2 part part part part).2 [] (by decide +kernel) (by decide)
    (by decide)⟩⟩

/-- The bench with a connection that is up, a peer of paddock 0 with the recorder's right, and object 1 exported to the fabric. -/
def netBench (a : EventArgs) : State :=
  { ev a (bench.pokeNum 0x10058 8 0xD01) with
    ports := [(0, ⟨true, 0, 0, 0, 0, 0, 0⟩)], peers := [⟨0, 0, 0, 100, true, 0, 1⟩], conns := [(0, { Conn.initial with up := true, attested := true })] }
/-- The arguments of a message of two bytes to object 1. -/
def putArgs : EventArgs := { noArgs with obj := 1, off := 128, data := [1, 2], rights := 255 }

theorem witness_put_arrives : Obligations.MessagesAreAnswered → (∃ t, Happens .put (netBench putArgs) t)
    ∧ ∃ t, Happens .put (netBench { putArgs with gen := 1 }) t := fun h =>
  ⟨⟨_, (h.1 (netBench putArgs) (by decide +kernel) (by unfold expected; decide +kernel) rfl rfl).1 (by decide +kernel)⟩,
   ⟨_, (h.1 (netBench { putArgs with gen := 1 }) (by decide +kernel) (by unfold expected; decide +kernel) rfl rfl).2 3 (by decide +kernel)⟩⟩

theorem witness_get_arrives : Obligations.MessagesAreAnswered → (∃ t, Happens .get (netBench { putArgs with len := 2 }) t)
    ∧ ∃ t, Happens .get (netBench { putArgs with len := 0 }) t := fun h =>
  ⟨⟨_, (h.2.1 (netBench { putArgs with len := 2 }) (by decide +kernel) (by unfold expected; decide +kernel) rfl rfl).1 (by decide +kernel)⟩,
   ⟨_, (h.2.1 (netBench { putArgs with len := 0 }) (by decide +kernel) (by unfold expected; decide +kernel) rfl rfl).2 12 (by decide +kernel)⟩⟩

/-- A message without the right that it needs is refused. -/
theorem witness_right_missing : Obligations.MessagesAreAnswered → ∃ t, Happens .put (netBench { putArgs with rights := 0 }) t := fun h =>
  ⟨_, (h.1 (netBench { putArgs with rights := 0 }) (by decide +kernel) (by unfold expected; decide +kernel) rfl rfl).2 6 (by decide +kernel)⟩

theorem witness_fadd_arrives : Obligations.MessagesAreAnswered → (∃ t, Happens .fadd (netBench { putArgs with data := [0, 0, 0x80, 0x3F] }) t)
    ∧ ∃ t, Happens .fadd (netBench putArgs) t := fun h =>
  ⟨⟨_, (h.2.2.1 (netBench { putArgs with data := [0, 0, 0x80, 0x3F] }) (by decide +kernel) (by unfold expected; decide +kernel) rfl rfl).1 (by decide +kernel)⟩,
   ⟨_, (h.2.2.1 (netBench putArgs) (by decide +kernel) (by unfold expected; decide +kernel) rfl rfl).2 12 (by decide +kernel)⟩⟩

theorem witness_permit_arrives : Obligations.MessagesAreAnswered → (∃ t, Happens .permit (netBench { putArgs with len := 65535 }) t)
    ∧ ∃ t, Happens .permit (netBench { putArgs with len := 0 }) t := fun h =>
  ⟨⟨_, (h.2.2.2.1 (netBench { putArgs with len := 65535 }) (by decide +kernel) (by unfold expected; decide +kernel) rfl rfl).1 (by decide +kernel)⟩,
   ⟨_, (h.2.2.2.1 (netBench { putArgs with len := 0 }) (by decide +kernel) (by unfold expected; decide +kernel) rfl rfl).2 12 (by decide +kernel)⟩⟩

theorem witness_tail_arrives : Obligations.MessagesAreAnswered → ∃ t, Happens .tail (withPasture (netBench { noArgs with off := 1, val := 3 })) t := fun h =>
  ⟨_, h.2.2.2.2.1 (withPasture (netBench { noArgs with off := 1, val := 3 })) (by unfold expected; decide +kernel) (by decide) (by decide +kernel)
    rfl ⟨⟨0, 0, 0, 100, true, 0, 1⟩, rfl, by decide +kernel⟩⟩

/-- A `TAIL` for pasture 1 or another one, of a sender of one paddock or of none. -/
def tailTo (off : Nat) (peers : List Peer) : State := { withPasture (netBench { noArgs with off := off, val := 3 }) with peers := peers }

theorem witness_tail_refused : Obligations.MessagesAreAnswered → (∃ t, Happens .tail (tailTo 1 []) t)
    ∧ (∃ t, Happens .tail (tailTo 4096 [⟨0, 0, 0, 100, true, 0, 1⟩]) t) ∧ (∃ t, Happens .tail (tailTo 2 [⟨0, 0, 0, 100, true, 0, 1⟩]) t)
    ∧ ∃ t, Happens .tail (tailTo 1 [⟨0, 0, 7, 100, true, 0, 1⟩]) t := fun h =>
  have k := h.2.2.2.2.2.1
  ⟨⟨_, (k (tailTo 1 []) (by unfold expected; decide +kernel) rfl).1 (by decide +kernel)⟩,
   ⟨_, ((k (tailTo 4096 [⟨0, 0, 0, 100, true, 0, 1⟩]) (by unfold expected; decide +kernel) rfl).2 _ rfl rfl).1 (.inl (by decide))⟩,
   ⟨_, ((k (tailTo 2 [⟨0, 0, 0, 100, true, 0, 1⟩]) (by unfold expected; decide +kernel) rfl).2 _ rfl rfl).1 (.inr (by decide +kernel))⟩,
   ⟨_, ((k (tailTo 1 [⟨0, 0, 7, 100, true, 0, 1⟩]) (by unfold expected; decide +kernel) rfl).2 _ rfl rfl).2 (by decide) (by decide +kernel)
     (by decide +kernel)⟩⟩

theorem witness_release_arrives : Obligations.MessagesAreAnswered → ∃ t, Happens .recorderFreezeRelease (netBench noArgs) t := fun h =>
  ⟨_, h.2.2.2.2.2.2.1 (netBench noArgs) (by unfold expected; decide +kernel) (by decide +kernel)⟩

/-- A frame at port 0 or 1, resent so many times, with three codewords corrected. -/
def frameBench (port code : Nat) (f : Frame) : State := netBench { noArgs with id := port, code := code, len := 3, frame := f }

theorem witness_frame : Obligations.MessagesAreAnswered → (∃ t, Happens .frameReceive (frameBench 1 0 ⟨64, .rod, 0, 0⟩) t)
    ∧ (∃ t, Happens .frameReceive (frameBench 0 17 ⟨64, .rod, 0, 0⟩) t) ∧ (∃ t, Happens .frameReceive (frameBench 0 16 ⟨9217, .rod, 0, 0⟩) t)
    ∧ (∃ t, Happens .frameReceive (frameBench 0 0 ⟨64, .rod, 9, 0⟩) t) ∧ (∃ t, Happens .frameReceive (frameBench 0 0 ⟨64, .otherSemantic, 0, 0⟩) t)
    ∧ ∃ t, Happens .frameReceive (frameBench 0 0 ⟨64, .rod, 0, 0⟩) t := fun h =>
  have k := h.2.2.2.2.2.2.2
  ⟨⟨_, (k (frameBench 1 0 ⟨64, .rod, 0, 0⟩)).1 (by decide +kernel)⟩,
   ⟨_, (k (frameBench 0 17 ⟨64, .rod, 0, 0⟩)).2.1 (by decide +kernel) (by decide)⟩,
   ⟨_, (k (frameBench 0 16 ⟨9217, .rod, 0, 0⟩)).2.2.1 (by decide +kernel) (by decide) (.inr (.inr (.inr (by decide +kernel))))⟩,
   ⟨_, (k (frameBench 0 0 ⟨64, .rod, 9, 0⟩)).2.2.2.1 (by decide +kernel) (by decide) (by decide +kernel) (by decide +kernel)⟩,
   Exists.elim (((k (frameBench 0 0 ⟨64, .otherSemantic, 0, 0⟩)).2.2.2.2.1 (by decide +kernel) (by decide) (by decide +kernel) (by decide +kernel)).1 rfl)
     fun _ e => ⟨_, e.2⟩,
   ⟨_, ((k (frameBench 0 0 ⟨64, .rod, 0, 0⟩)).2.2.2.2.1 (by decide +kernel) (by decide) (by decide +kernel) (by decide +kernel)).2 (by decide +kernel)⟩⟩

theorem witness_codewords : Obligations.MessagesAreAnswered →
    countLink (netBench noArgs) 0 0 0 = netBench noArgs ∧ (sget 0 (countLink (frameBench 0 0 ⟨64, .rod, 0, 0⟩) 0 3 0).health 0x400).toNat = 3 := fun h =>
  ⟨(h.2.2.2.2.2.2.2 (netBench noArgs)).2.2.2.2.2.1 rfl rfl,
   (h.2.2.2.2.2.2.2 (frameBench 0 0 ⟨64, .rod, 0, 0⟩)).2.2.2.2.2.2 rfl (by decide) (by decide +kernel) (by decide)⟩

/-- A GET that connection 0 has sent, and a PUT. -/
def sentGet : Message := ⟨0, 4, 1, 0, 0, rightR, 2, [], 0, 0, 0, 0, 0, 0⟩
def sentPut : Message := { sentGet with kind := 0, data := [1, 2] }
/-- The machine with a message unacknowledged. -/
def sentBench (m : Message) (a : EventArgs) : State :=
  { netBench a with conns := [(0, { Conn.initial with up := true, unacked := [m] })], time := 200000000 }

theorem witness_ack : Obligations.SendersAndLinks → (∃ t, Happens .ack (sentBench sentPut noArgs) t) ∧ (∃ t, Happens .nak (sentBench sentPut noArgs) t)
    ∧ ∃ t, Happens .ack (sentBench sentPut { noArgs with seq := 1 }) t := fun h =>
  ⟨⟨_, (h (sentBench sentPut noArgs) sentPut).1 (by decide +kernel) (by decide)⟩,
   ⟨_, (h (sentBench sentPut noArgs) sentPut).2.1 (by decide +kernel)⟩,
   ⟨_, ((h (sentBench sentPut { noArgs with seq := 1 }) sentPut).2.2.1 (by decide +kernel)).1⟩⟩

theorem witness_response : Obligations.SendersAndLinks → ∃ t, Happens .getResponse (sentBench sentGet putArgs) t := fun h =>
  ⟨_, (h (sentBench sentGet putArgs) sentGet).2.2.2.1 (by decide +kernel) rfl rfl _ (got_ok (d := bench) (by decide +kernel))⟩

theorem witness_connection_fail : Obligations.SendersAndLinks → ∃ t, Happens .connectionFail { sentBench sentGet noArgs with ports := [] } t := fun h =>
  ⟨_, (h { sentBench sentGet noArgs with ports := [] } sentGet).2.2.2.2.2.1 (by decide +kernel) (by decide +kernel) (by decide +kernel)⟩

theorem witness_lease : Obligations.SendersAndLinks → ∃ t, Happens .permitLeaseExpiry (netBench noArgs) t := fun h =>
  ⟨_, (h (netBench noArgs) sentGet).2.2.2.2.2.2.1 (by decide +kernel) (by decide +kernel)⟩

/-- A peer that may hold no connection. -/
def fullPeer : State := { netBench noArgs with peers := [⟨0, 0, 0, 0, true, 0, 1⟩] }

theorem witness_reestablish : Obligations.SendersAndLinks → (∃ t, Happens .connectionReestablished fullPeer t)
    ∧ ∃ t, Happens .connectionReestablished (netBench noArgs) t := fun h =>
  ⟨⟨_, (h fullPeer sentGet).2.2.2.2.2.2.2.1 (by decide +kernel)⟩, ⟨_, (h (netBench noArgs) sentGet).2.2.2.2.2.2.2.2.1 (by decide +kernel)⟩⟩

/-- Ports 0 and 1 toward one peer. -/
def twoPorts : State :=
  { netBench noArgs with ports := [(0, ⟨true, 0, 0, 0, 0, 0, 0⟩), (1, ⟨true, 0, 0, 0, 0, 0, 0⟩)], peers := [⟨0, 0, 0, 100, true, 0, 3⟩] }

theorem portsToward_down : portsToward (twoPorts.setPort 0 { twoPorts.portOf 0 with up := false }) 0 = [1] := by decide +kernel

theorem witness_ports : Obligations.SendersAndLinks →
    Leads .portLinkDown twoPorts (fun t => (t.portOf 0).up = false ∧ (t.conn 0).port = 1 ∧ t.conn 5 = twoPorts.conn 5)
    ∧ Leads .portLinkDown (netBench noArgs) (fun t => t.conn 0 = (netBench noArgs).conn 0)
    ∧ Leads .portLinkUp { netBench { noArgs with id := 3 } with boot := .running } fun t => (t.portOf 3).up = true := fun h =>
  ⟨((h twoPorts sentGet).2.2.2.2.2.2.2.2.2.1 (by decide +kernel)).imp fun t p => ⟨p.1, p.2.1, by
      obtain ⟨q, hq, e⟩ := (p.2.2.2 0 (by decide +kernel)).2 (by decide +kernel)
      have hq : q ∈ portsToward (twoPorts.setPort 0 { twoPorts.portOf 0 with up := false }) 0 := hq
      rw [portsToward_down] at hq
      rw [e]; exact List.mem_singleton.1 hq, p.2.2.1 5 (by decide +kernel)⟩,
   ((h (netBench noArgs) sentGet).2.2.2.2.2.2.2.2.2.1 (by decide +kernel)).imp fun t p => ⟨p.1, (p.2.2.2 0 (by decide +kernel)).1 (by decide +kernel)⟩,
   (h { netBench { noArgs with id := 3 } with boot := .running } sentGet).2.2.2.2.2.2.2.2.2.2.1 (by decide +kernel) (by decide +kernel) rfl⟩

theorem witness_links : Obligations.SendersAndLinks → Leads .flitCrcReplay { bench with links := [(0, ⟨9, 63, false⟩)] } (fun t => (t.linkOf 0).training = true)
    ∧ Leads .linkRetrain (ev { noArgs with flag := true } { bench with links := [(0, ⟨9, 64, true⟩)] }) (fun t => (t.linkOf 0).consecutive = 0)
    ∧ Leads .linkRetrain { bench with links := [(0, ⟨9, 64, true⟩)] } fun t => t.recorder.frozen = true := fun h =>
  ⟨((h { bench with links := [(0, ⟨9, 63, false⟩)] } sentGet).2.2.2.2.2.2.2.2.2.2.2.1 (by decide +kernel) rfl).imp fun _ p => ⟨p.1, by
      rw [show ({ bench with links := [(0, ⟨9, 63, false⟩)] } : State).args.id = 0 from rfl] at p; rw [p.2]; decide +kernel⟩,
   ((h (ev { noArgs with flag := true } { bench with links := [(0, ⟨9, 64, true⟩)] }) sentGet).2.2.2.2.2.2.2.2.2.2.2.2.1 (by decide +kernel) rfl).imp
      fun _ p => ⟨p.1, p.2.2⟩,
   ((h { bench with links := [(0, ⟨9, 64, true⟩)] } sentGet).2.2.2.2.2.2.2.2.2.2.2.2.2 (by decide +kernel) rfl).imp fun _ p => ⟨p.1, p.2.1⟩⟩

/-- A machine whose Drover of die 0 holds one request, for handle 5. -/
def requestBench (sent : Bool) : State := ev { noArgs with id := if sent then 5 else 0 } ((handleBench 1 0).setDrover 0 [⟨5, true, sent, 0, 0⟩])

theorem witness_send : Obligations.DroverSteps → ∃ t, Happens .droverRequestSend (requestBench false) t := fun h =>
  ⟨_, (h (requestBench false) ⟨5, true, false, 0, 0⟩).1 ⟨[], [], by decide +kernel, by decide +kernel, nofun, fun l _ _ e => by cases l <;> cases e⟩
    (by decide +kernel)⟩

/-- The same with handle 6, resident over the same destination. -/
def coveredBench : State :=
  let s := requestBench false
  (s.pokeNum 0xC0 32 (2 ^ 40 + 0xFF8000 * 2 ^ 104 + 2 ^ 128 + 2 ^ 176)).setHandle 6 { s.handle 6 with state := 2 }

theorem witness_send_evicts : Obligations.DroverSteps → ∃ t, Happens .droverRequestSend coveredBench t := fun h =>
  ⟨_, (h coveredBench ⟨5, true, false, 0, 0⟩).2.1 ⟨[], [], by decide +kernel, by decide +kernel, nofun, fun l _ _ e => by cases l <;> cases e⟩
    (by decide +kernel)⟩

/-- The request sent: its source is a Cellar page of object 1, its destination room 0. -/
def fetchBench : State :=
  ((requestBench true).pokeNum 0xA0 32 (2 ^ 40 + 0xFF9000 * 2 ^ 104 + 2 ^ 128 + 2 ^ 176)).pokeNum 0x22000 8 (7 * 2 ^ 61 + 2 ^ 58 + 4)

theorem fetch_can_read : flashIn fetchBench 1 0 4096 0 = none := no_read_fails (by decide +kernel) ..

theorem fetch_lands : fetchChecks fetchBench 5 = .lands := by
  have hd : descLen (fetchBench.handleDesc 5) = 4096 ∧ descSrc (fetchBench.handleDesc 5) = (1, 0) := by decide +kernel
  unfold fetchChecks
  simp only [hd.1, hd.2, fetch_can_read]
  decide +kernel

theorem witness_fetch_complete : Obligations.DroverSteps → ∃ t, Happens .handleFetchComplete fetchBench t := fun h =>
  ⟨_, (h fetchBench ⟨5, true, true, 0, 0⟩).2.2.1 (by decide +kernel) fetch_lands (by decide +kernel)⟩

/-- The same with a controller that has spent its count. -/
def spentFetch : State := { fetchBench with arbiter := { fetchBench.arbiter with bytes := List.replicate 16 0 } }

theorem spent_lands : fetchChecks spentFetch 5 = .lands := by
  have hd : descLen (spentFetch.handleDesc 5) = 4096 ∧ descSrc (spentFetch.handleDesc 5) = (1, 0) := by decide +kernel
  unfold fetchChecks
  simp only [hd.1, hd.2, no_read_fails (show spentFetch.cellars = [] by decide +kernel)]
  decide +kernel

theorem witness_fetch_held : Obligations.DroverSteps → ∃ t, Happens .handleFetchComplete spentFetch t := fun h =>
  ⟨_, (h spentFetch ⟨5, true, true, 0, 0⟩).2.2.2.1 (by decide +kernel) spent_lands (by decide +kernel)⟩

/-- A fetch whose source is no Cellar page fails with ERR 4; one of an uncorrectable source fails with ERR 1. -/
theorem witness_fetch_fails : Obligations.DroverSteps → (∃ t, Happens .handleFetchFail (requestBench true) t)
    ∧ ∃ t, Happens .handleFetchFail fetchBench t := fun h =>
  ⟨⟨_, (((h (requestBench true) ⟨5, true, true, 0, 0⟩).2.2.2.2.1 (by decide +kernel) 4 (by decide +kernel)).1 (.inl rfl)).2⟩,
   ⟨_, (h fetchBench ⟨5, true, true, 0, 0⟩).2.2.2.2.2.2.1 (by decide +kernel) fetch_lands⟩⟩

/-- A predicted request whose fetch has been sent. -/
def predictedBench : State := ev { noArgs with id := 5 } ((handleBench 1 0).setDrover 0 [⟨5, false, true, 0, 0⟩])

/-- A predicted fetch that fails a check is dropped. -/
theorem witness_fetch_dropped : Obligations.DroverSteps → ∃ t, Happens .handleFetchFail predictedBench t := fun h =>
  ⟨_, (((h predictedBench ⟨5, false, true, 0, 0⟩).2.2.2.2.1 (by decide +kernel) 4 (by decide +kernel)).2 rfl (by decide)).2⟩

/-- The destination is being cleared. -/
def waitingFetch (demand : Bool) : State :=
  let s := { fetchBench with clearing := [(288, 0)] }
  s.setDrover 0 [⟨5, demand, true, 0, 0⟩]

theorem fetch_waits (demand : Bool) : fetchChecks (waitingFetch demand) 5 = .waits := by
  have hd : descLen ((waitingFetch demand).handleDesc 5) = 4096 ∧ descSrc ((waitingFetch demand).handleDesc 5) = (1, 0) := by
    cases demand <;> decide +kernel
  unfold fetchChecks
  simp only [hd.1, hd.2, no_read_fails (show (waitingFetch demand).cellars = [] by cases demand <;> decide +kernel)]
  cases demand <;> decide +kernel

theorem witness_fetch_waits : Obligations.DroverSteps → (∃ t, Happens .handleFetchComplete (waitingFetch true) t)
    ∧ ∃ t, Happens .handleFetchComplete (waitingFetch false) t := fun h =>
  ⟨⟨_, ((h (waitingFetch true) ⟨5, true, true, 0, 0⟩).2.2.2.2.2.1 (by decide +kernel) (fetch_waits true)).1 rfl |>.1⟩,
   ⟨_, ((h (waitingFetch false) ⟨5, false, true, 0, 0⟩).2.2.2.2.2.1 (by decide +kernel) (fetch_waits false)).2 rfl |>.1⟩⟩

theorem witness_evicted : Obligations.DroverSteps → ∃ t, Happens .handleEvictComplete (ev { noArgs with id := 5 } (handleBench 3 0)) t := fun h =>
  ⟨_, (h (ev { noArgs with id := 5 } (handleBench 3 0)) ⟨5, true, true, 0, 0⟩).2.2.2.2.2.2.2.2 (by decide +kernel)⟩

/-- Pasture 1 with one record in its ring, waiting for a pen of cluster 0; pens as given. -/
def penBench (pens : Sparse Pen) (lanes : Sparse (List LaneEnt)) : State :=
  let s := withPasture (benchOn 0 benchCtx)
  { s.pokeNum (s.pastureAddr 1 + 16) 8 1 with order := [(0, 1)], counted := [1], pens := pens, lanes := lanes, time := 1000000000, boot := .running }

/-- A record that passes the checks of a pickup: its code is object 1, its frame and its keys lie in the scratchpad of core 0. -/
def goodRecord : Rec := Rec.sealed (BitVec.ofNat 512
  (2 ^ 40 + 0xFF8000 * 2 ^ 104 + 4 * 2 ^ 78 + 16 * 2 ^ 64 + 2 ^ 288 + 0xFF8000 * 2 ^ 360 + 0x1000 * 2 ^ 320))
/-- A pen that holds a record of pasture 1. -/
def penWith (r : Rec) : Pen := ⟨some 1, 0, 0, 0, [⟨r, 0, (0xFF8000, 0), false⟩]⟩

/-- The tail of pasture 1 has been written. -/
def tailBench : State := { ev { noArgs with id := 1 } (penBench [] []) with counted := [], tailsSeen := [1] }

theorem witness_nonempty : Obligations.SchedulingSteps → (∃ t, Happens .pastureNonempty tailBench t)
    ∧ ∃ t, Happens .pastureNonempty (penBench [] []) t := fun h =>
  ⟨⟨_, (h tailBench 0 0 1).1 (by decide +kernel)⟩, ⟨_, (h (penBench [] []) 0 0 1).2.1 (by decide +kernel)⟩⟩

theorem witness_pen_map : Obligations.SchedulingSteps → ∃ t, Happens .penMap (penBench [] []) t := fun h =>
  ⟨_, (h (penBench [] []) 0 0 1).2.2.1 rfl (by decide) (by decide +kernel) (by decide +kernel)⟩

theorem witness_pen_remap : Obligations.SchedulingSteps →
    ∃ t, Happens .penRemap (penBench ((List.range 32).map fun n => (n, penWith goodRecord)) []) t := fun h =>
  ⟨_, (h (penBench ((List.range 32).map fun n => (n, penWith goodRecord)) []) 0 0 1).2.2.2.1 rfl (by decide +kernel) (by decide +kernel) (by decide +kernel)⟩

/-- An empty pen mapped to pasture 1. -/
def emptyPen : Pen := ⟨some 1, 0, 0, 0, []⟩

theorem witness_claim_ring : Obligations.SchedulingSteps → ∃ t, Happens .penClaim (penBench [(0, emptyPen)] []) t := fun h =>
  ⟨_, ((h (penBench [(0, emptyPen)] []) 0 0 1).2.2.2.2.1 rfl rfl (by decide) (by decide +kernel) (by decide +kernel) (by decide +kernel) (by decide +kernel)).1
    ⟨ok_of_isOk (by decide +kernel), no_read_fails (by decide +kernel) .., by decide +kernel⟩⟩

/-- The fault of a port check, where it has one. -/
def faultIn (e : Except Stop Unit) : Option FaultInfo := match e with
  | .error (.fatal f) => some f
  | _ => none

theorem fault_of_faultIn {e : Except Stop Unit} {f : FaultInfo} (h : faultIn e = some f) : e = .error (.fatal f) := by
  unfold faultIn at h
  split at h
  · injection h with h; rw [h]
  · cases h

theorem wait_of_isWait {e : Except Stop Unit} (h : (match e with | .error .wait => true | _ => false) = true) : e = .error .wait := by
  split at h
  · rfl
  · cases h

/-- The scratchpad that holds the ring has lost its first region. -/
def lostBench : State := { penBench [(0, emptyPen)] [] with lost := [(0, 1)] }

theorem witness_claim_stalls : Obligations.SchedulingSteps → ∃ t, Happens .penClaim lostBench t := fun h =>
  ⟨_, ((h lostBench 0 0 1).2.2.2.2.1 rfl rfl (by decide) (by decide +kernel) (by decide +kernel) (by decide +kernel) (by decide +kernel)).2
    (.inl ⟨⟨kLostPage, 0, some (0xFF8000, 0), 0, false⟩, fault_of_faultIn (by decide +kernel)⟩)⟩

/-- The lane of pasture 1 holds the frame of a record, or a record that a pen gave back. -/
def laneEnd (r : Option (Rec × (Nat × Nat))) : State := penBench [(0, emptyPen)] [(1, [⟨0xFF8000, 256, r⟩])]

theorem witness_claim_lane : Obligations.SchedulingSteps → (∃ t, Happens .penClaim (laneEnd none) t)
    ∧ ∃ t, Happens .penClaim (laneEnd (some (goodRecord, (0xFF8000, 256)))) t := fun h =>
  ⟨⟨_, ((h (laneEnd none) 0 0 1).2.2.2.2.2.1 rfl rfl (by decide) (by decide +kernel) (by decide +kernel)
      (by decide +kernel) ⟨0xFF8000, 256, none⟩ [] (by decide +kernel)
      ⟨ok_of_isOk (by decide +kernel), no_read_fails (by decide +kernel) .., by decide +kernel⟩).1 rfl⟩,
   ⟨_, ((h (laneEnd (some (goodRecord, (0xFF8000, 256)))) 0 0 1).2.2.2.2.2.1 rfl rfl (by decide) (by decide +kernel) (by decide +kernel)
      (by decide +kernel) ⟨0xFF8000, 256, some (goodRecord, (0xFF8000, 256))⟩ [] (by decide +kernel)
      ⟨ok_of_isOk (by decide +kernel), no_read_fails (by decide +kernel) .., by decide +kernel⟩).2 _ _ rfl⟩⟩

/-- Core 1, idle, before a pen with a record. -/
def pickBench (r : Rec) : State := ev { noArgs with core := 1 } (penBench [(0, penWith r)] [])
/-- What the choice gives. -/
def taken (r : Rec) : State × Nat × Buffered := (takeRecord (pickBench r) 1).getD (bench, 0, ⟨0, 0, (0, 0), false⟩)

theorem witness_pickup : Obligations.SchedulingSteps → ∃ t, Happens .pickup (pickBench goodRecord) t := fun h =>
  ⟨_, ((h (pickBench goodRecord) 0 0 (taken goodRecord).2.1).2.2.2.2.2.2.1 (taken goodRecord).1 (taken goodRecord).2.2 (by decide +kernel)).1
    (by decide +kernel) (by decide +kernel)⟩

theorem witness_pickup_rejects : Obligations.SchedulingSteps → ∃ t, Happens .pickup (pickBench 1) t := fun h =>
  Exists.elim (((h (pickBench 1) 0 0 (taken 1).2.1).2.2.2.2.2.2.1 (taken 1).1 (taken 1).2.2 (by decide +kernel)).2 (by decide +kernel))
    fun _ e => ⟨_, e⟩

/-- A record in state RETURNING, and one whose frame's space is being cleared. -/
def returned : Returning := { frameObj := 0xFF8000, frameOff := 256, pasture := 1 }
theorem witness_return : Obligations.SchedulingSteps → (∃ t, Happens .recordReturn { bench with returning := [returned] } t)
    ∧ ∃ t, Happens .recordReturn { bench with returning := [returned], clearing := [(0, 0)] } t := fun h =>
  ⟨⟨_, ((h { bench with returning := [returned] } 0 0 1).2.2.2.2.2.2.2.1 returned rfl).2 (by simp only [exists_some_iff]; decide +kernel)⟩,
   ⟨_, ((h { bench with returning := [returned], clearing := [(0, 0)] } 0 0 1).2.2.2.2.2.2.2.1 returned rfl).1 (.inr (.inl (by decide +kernel)))⟩⟩

/-- Two records that left one pinfold ring at one PRIO. -/
def pinnedPair : State := ev { noArgs with id := 1 } { bench with returning := [{ returned with pin := some (0, 2) }, { returned with frameOff := 4352, pin := some (0, 2) }] }
theorem witness_return_behind : Obligations.SchedulingSteps → ∃ t, Happens .recordReturn pinnedPair t := fun h =>
  ⟨_, ((h pinnedPair 0 0 1).2.2.2.2.2.2.2.1 _ rfl).1 (.inl ⟨rfl, _, List.mem_cons_self .., rfl⟩)⟩

/-- A record that waits: its act is a read of core 0. -/
def waits (on : WakeOn) : Waiting := ⟨0xFF8000, 256, 1, on, 0, readAct 0 benchCtx .c .p 0 0 0 0⟩
theorem witness_wake : Obligations.SchedulingSteps →
    ∃ t, Happens .wakeWithoutCause { bench with waiting := [waits (.word 4 1 0 0 0xFF9000 0 0 0)] } t := fun h =>
  ⟨_, (h { bench with waiting := [waits (.word 4 1 0 0 0xFF9000 0 0 0)] } 0 0 1).2.2.2.2.2.2.2.2.1 _ rfl ⟨4, 1, 0, 0, 0xFF9000, 0, 0, 0, rfl⟩⟩

/-- Records in the pinfold, and a shepherd that has written WAKE. -/
def pinnedBench (l : List Waiting) (seen : List Nat) : State := { bench with waiting := l, wakesSeen := seen }

theorem witness_pinfold_unwoken : Obligations.SchedulingSteps → ∃ t, Happens .pinfoldWake (pinnedBench [] []) t := fun h =>
  ⟨_, (h (pinnedBench [] []) 0 0 1).2.2.2.2.2.2.2.2.2.1 (by decide +kernel)⟩

theorem witness_pinfold_wake : Obligations.SchedulingSteps → ∃ t, Happens .pinfoldWake (pinnedBench [waits (.pinfold 0 0 2 1)] [0]) t := fun h =>
  ⟨_, ((h (pinnedBench [waits (.pinfold 0 0 2 1)] [0]) 0 0 1).2.2.2.2.2.2.2.2.2.2 (by decide +kernel)).1 0 2 1 _ rfl (by decide)⟩

/-- Entry 1, answered, stays behind entry 0 of its PRIO, which is pending, and leaves where their PRIOs differ. -/
theorem witness_pinfold_order : Obligations.SchedulingSteps →
    (∃ t, Happens .pinfoldWake (pinnedBench [waits (.pinfold 0 0 2 0), waits (.pinfold 0 1 2 1)] [0]) t)
    ∧ ∃ t, Happens .pinfoldWake (pinnedBench [waits (.pinfold 0 0 3 0), waits (.pinfold 0 1 2 1)] [0]) t := fun h =>
  ⟨⟨_, ((((h (pinnedBench [waits (.pinfold 0 0 2 0), waits (.pinfold 0 1 2 1)] [0]) 0 0 1).2.2.2.2.2.2.2.2.2.2 (by decide +kernel)).2
      (0, 2, 0, waits (.pinfold 0 0 2 0)) (1, 2, 1, waits (.pinfold 0 1 2 1)) rfl rfl (by decide) (by decide)).1 rfl)⟩,
   ⟨_, ((((h (pinnedBench [waits (.pinfold 0 0 3 0), waits (.pinfold 0 1 2 1)] [0]) 0 0 1).2.2.2.2.2.2.2.2.2.2 (by decide +kernel)).2
      (0, 3, 0, waits (.pinfold 0 0 3 0)) (1, 2, 1, waits (.pinfold 0 1 2 1)) rfl rfl (by decide) (by decide)).2 (by decide))⟩⟩

theorem pair_of {α β : Type} {x : α × β} {a : α} {b : β} (h : x.1 = a) (h' : x.2 = b) : x = (a, b) := by
  rw [← h, ← h']

/-- The arguments that name the first byte of object 1. -/
def codeArgs : EventArgs := { noArgs with obj := 1, off := 0 }
/-- The L2 line of the first bytes of object 1 in its home slice, clean and dirty. -/
def cleanLine : Line := ⟨1, 0, (bench.pageEnt (bench.objEnt 1) 0).home 1 0, .way 0, 1, 0, 0⟩
def dirtyLine : Line := { cleanLine with dirty := 1 }
/-- A machine with one L2 line. -/
def lineBench (flag : Bool) (l : Line) : State := { ev { codeArgs with flag := flag } bench with lines := [l] }

theorem bench_sector_reads {s : State} (h : s.cellars = []) (obj : Nat) (e : ObjEnt) (pe : PageEnt) (o : Nat) : sectorFails s obj e pe o = false := by
  simp [sectorFails, no_byte_fails h]

/-- A machine whose controllers have spent their counts, but the Cellar's of writes where asked for. -/
def spent (writes : Nat) (s : State) : State :=
  { s with arbiter := { s.arbiter with bytes := List.replicate 16 0, writes := List.replicate 8 writes } }

theorem witness_sector_fill : Claims.MemoryHardwareSteps → (∃ t, Happens .sectorFill (ev codeArgs bench) t)
    ∧ ∃ t, Happens .sectorFill (spent 0 (ev codeArgs bench)) t := fun h =>
  ⟨⟨_, (h (ev codeArgs bench) cleanLine benchCtx).1 ⟨by decide +kernel, by decide +kernel, by decide +kernel, by decide +kernel, by decide +kernel,
    by decide +kernel, bench_sector_reads (by decide +kernel) _ _ _ _⟩ (by decide +kernel)⟩,
   ⟨_, (h (spent 0 (ev codeArgs bench)) cleanLine benchCtx).2.1 ⟨by decide +kernel, by decide +kernel, by decide +kernel, by decide +kernel,
    by decide +kernel, by decide +kernel, bench_sector_reads (by decide +kernel) _ _ _ _⟩ (by decide +kernel)⟩⟩

theorem witness_no_fill : Claims.MemoryHardwareSteps → ∃ t, Happens .sectorFill (ev { codeArgs with off := 0x20000 } bench) t := fun h =>
  ⟨_, (h (ev { codeArgs with off := 0x20000 } bench) cleanLine benchCtx).2.2.1 fun f => absurd f.2.1 (by decide +kernel)⟩

theorem witness_line_dropped : Claims.MemoryHardwareSteps → ∃ t, Happens .l2Writeback (lineBench true cleanLine) t := fun h =>
  ⟨_, ((h (lineBench true cleanLine) cleanLine benchCtx).2.2.2.1 (by decide +kernel)).1 rfl⟩

/-- The line's page gone, and the line in the slice of another die. -/
def goneBench : State := (lineBench false dirtyLine).pokeNum 0x22000 8 0
def strayLine : Line := { dirtyLine with home := 287 }
def strayBench : State := ev { codeArgs with code := 288 } (lineBench false strayLine)

theorem witness_line_waits : Claims.MemoryHardwareSteps → ∃ t, Happens .l2Writeback goneBench t := fun h =>
  ⟨_, ((h goneBench dirtyLine benchCtx).2.2.2.1 (by decide +kernel)).2.1 (by decide) (.inr (by decide +kernel))⟩

theorem witness_line_stray : Claims.MemoryHardwareSteps → ∃ t, Happens .l2Writeback strayBench t := fun h =>
  ⟨_, ((h strayBench strayLine benchCtx).2.2.2.1 (by decide +kernel)).2.2.1 (by decide) (by decide +kernel) (by decide +kernel) (by decide +kernel)⟩

/-- The dirty line of the bench with its page in HBM. -/
def goingBench : State := lineBench true dirtyLine
/-- The bursts of its write-back. -/
def goingBursts : List Nat := burstsIn (plainSpans (goingBench.objEnt 1) (goingBench.pageEnt (goingBench.objEnt 1) 0) dirtyLine)

theorem witness_line_written : Claims.MemoryHardwareSteps → ∃ t, Happens .l2Writeback goingBench t := fun h =>
  ⟨_, ((h goingBench dirtyLine benchCtx).2.2.2.1 (by decide +kernel)).2.2.2.2.2 (by decide) (by decide +kernel) (by decide +kernel)
    (by decide +kernel) (by decide +kernel) (by decide +kernel) fun b _ => by
      rw [show goingBench.queueLength _ _ = 0 from by unfold State.queueLength; rw [show goingBench.writeQ = [] from by decide +kernel]; rfl]
      decide +kernel⟩

/-- The page converts under the fault policy, and a write of one of its bytes has begun. -/
def duePage : State :=
  let s := (benchOn 0 { benchCtx with committing := true, porch := [{ scalarHeld benchCtx 0 false 0 (mkCap 1 0xFF 0 0x10000 0 true) 0 1 (.bytes [(0, 7)]) with due := true }] }).pokeNum
    0x22000 8 (7 * 2 ^ 61 + 2 * 2 ^ 54 + 2 ^ 50 + 2 ^ 48 + 4)
  { ev codeArgs s with lines := [dirtyLine] }

/-- The write queue that the line's burst needs is full. -/
def fullQueue : State := { goingBench with writeQ := List.replicate 64 ⟨0, Config.pseudoChannel 0 (64 * 4096), 64 * 4096, 0, 1⟩ }

theorem full_has_no_room : queueRoom fullQueue 0 [4096] = false := by
  have : fullQueue.queueLength 0 (Config.pseudoChannel 0 (64 * 4096)) = 64 := by
    unfold State.queueLength fullQueue
    rw [List.filter_replicate]
    simp
  simp [queueRoom, queueEntries, this]

theorem full_line_has_no_room :
    let e := fullQueue.objEnt fullQueue.args.obj
    let pe := fullQueue.pageEnt e fullQueue.args.off
    queueRoom fullQueue (deviceOf pe.base) (burstsIn (writeBackLine fullQueue e pe dirtyLine).2.1) = false := by
  intro e pe
  rw [show burstsIn (writeBackLine fullQueue e pe dirtyLine).2.1 = [4096] by decide +kernel, show deviceOf pe.base = 0 by decide +kernel]
  exact full_has_no_room

theorem witness_line_held_up : Claims.MemoryHardwareSteps → (∃ t, Happens .l2Writeback duePage t)
    ∧ (∃ t, Happens .l2Writeback (spent 0 goingBench) t) ∧ ∃ t, Happens .l2Writeback fullQueue t := fun h =>
  ⟨⟨_, (((h duePage dirtyLine benchCtx).2.2.2.1 (by decide +kernel)).2.2.2.2.1 (by decide) (by decide +kernel)).1 (by decide +kernel)⟩,
   ⟨_, (((h (spent 0 goingBench) dirtyLine benchCtx).2.2.2.1 (by decide +kernel)).2.2.2.2.1 (by decide) (by decide +kernel)).2.1
     (by decide +kernel) (by decide +kernel) (by decide +kernel)⟩,
   ⟨_, (((h fullQueue dirtyLine benchCtx).2.2.2.1 (by decide +kernel)).2.2.2.2.1 (by decide) (by decide +kernel)).2.2.1
     (by decide +kernel) (by decide +kernel) (by decide +kernel)
     full_line_has_no_room⟩⟩

/-- The line's page in the Cellar. -/
def inCellar (s : State) : State := s.pokeNum 0x22000 8 (7 * 2 ^ 61 + 2 ^ 58 + 2 ^ 43)
def cellarLine : Line := { dirtyLine with home := ((inCellar bench).pageEnt (bench.objEnt 1) 0).home 1 0 }
/-- No bytes left to program in this interval. -/
def spentBench (l : Line) : State := spent 0 (inCellar (lineBench false l))
/-- Its stack takes no writes. -/
def endedBench : State :=
  let s := inCellar (lineBench false cellarLine)
  s.setCellar 0 { s.cellar 0 with state := 2 }

theorem witness_line_programmed : Claims.MemoryHardwareSteps → (∃ t, Happens .l2Writeback (inCellar (lineBench false cellarLine)) t)
    ∧ (∃ t, Happens .l2Writeback (spentBench cellarLine) t) ∧ ∃ t, Happens .l2Writeback endedBench t := fun h =>
  ⟨⟨_, (((h (inCellar (lineBench false cellarLine)) cellarLine benchCtx).2.2.2.1 (by decide +kernel)).2.2.2.1 (by decide) (by decide +kernel)).2 _
      (pair_of rfl (by decide +kernel))⟩,
   ⟨_, (((h (spentBench cellarLine) cellarLine benchCtx).2.2.2.1 (by decide +kernel)).2.2.2.1 (by decide) (by decide +kernel)).1 _
      (pair_of rfl (by decide +kernel))⟩,
   ⟨_, (((h endedBench cellarLine benchCtx).2.2.2.1 (by decide +kernel)).2.2.2.2.1 (by decide) (by decide +kernel)).2.2.2
      (by decide +kernel) (by decide +kernel) (by decide +kernel)⟩⟩

/-- An entry of the first write queue. -/
def burst (i : Nat) : Burst := ⟨0, 0, 64 * i, 0, 1⟩
/-- A machine with some entries in the first write queue. -/
def queueBench (flag : Bool) (n : Nat) : State := { ev { noArgs with flag := flag, val := 64, len := 1 } bench with writeQ := (List.range n).map burst }

theorem witness_drain_queue : Claims.MemoryHardwareSteps → Leads .writeQueueDrain (queueBench false 48) (fun _ => True)
    ∧ (∃ t, Happens .writeQueueDrain (queueBench false 47) t) ∧ ∃ t, Happens .writeQueueDrain (queueBench true 2) t := fun h =>
  ⟨((h (queueBench false 48) cleanLine benchCtx).2.2.2.2.1 rfl (by decide +kernel)).imp fun _ p => ⟨p.1, trivial⟩,
   ⟨_, (h (queueBench false 47) cleanLine benchCtx).2.2.2.2.2.1 rfl (by decide +kernel)⟩,
   ⟨_, (h (queueBench true 2) cleanLine benchCtx).2.2.2.2.2.2.1 rfl⟩⟩

/-- A slice that changes its split. -/
def phaseBench (p : Phase) (l : List Line) : State := { bench with phases := [(0, p)], lines := l }

theorem witness_shrink : Claims.MemoryHardwareSteps → ∃ t, Happens .phaseShrinkComplete (phaseBench ⟨4, 8, true⟩ []) t := fun h =>
  ⟨_, (h (phaseBench ⟨4, 8, true⟩ []) cleanLine benchCtx).2.2.2.2.2.2.2.1 rfl (by decide +kernel) (expelAll (phaseBench ⟨4, 8, true⟩ []) []).1 rfl⟩

/-- A dirty line in a way that its slice gives up, which must wait. -/
def heldBench : State := ev { noArgs with id := cellarLine.home }
  { spentBench { cellarLine with place := .way 15 } with phases := [(cellarLine.home, ⟨4, 8, true⟩)] }

theorem witness_shrink_waits : Claims.MemoryHardwareSteps → ∃ t, Happens .phaseShrinkComplete heldBench t := fun h =>
  ⟨_, (h heldBench cleanLine benchCtx).2.2.2.2.2.2.2.2.1 (by decide +kernel) (by decide +kernel) _ (pair_of rfl (by decide +kernel))⟩

theorem witness_grow : Claims.MemoryHardwareSteps → ∃ t, Happens .phaseGrowComplete (phaseBench ⟨8, 8, true⟩ []) t := fun h =>
  ⟨_, (h (phaseBench ⟨8, 8, true⟩ []) cleanLine benchCtx).2.2.2.2.2.2.2.2.2.1 rfl (by decide +kernel)⟩

theorem witness_phase_idle : Claims.MemoryHardwareSteps → ∃ t, Happens .phaseGrowComplete bench t := fun h =>
  ⟨_, ((h bench cleanLine benchCtx).2.2.2.2.2.2.2.2.2.2.1 (by decide +kernel)).2⟩

/-- Object 1's page moved to a remote stack. -/
def remoteBench : State := (ev codeArgs bench).pokeNum 0x22000 8 (7 * 2 ^ 61 + 2 * 2 ^ 58 + 4)

theorem witness_prefetch : Claims.MemoryHardwareSteps → (∃ t, Happens .hardwarePrefetch (ev codeArgs bench) t)
    ∧ (∃ t, Happens .hardwarePrefetch (ev { codeArgs with off := 0x10000 } bench) t) ∧ (∃ t, Happens .hardwarePrefetch remoteBench t)
    ∧ ∃ t, Happens .hardwarePrefetch (ev { codeArgs with core := 1 } bench) t := fun h =>
  ⟨⟨_, (((h (ev codeArgs bench) cleanLine benchCtx).2.2.2.2.2.2.2.2.2.2.2.2.1 rfl (by decide)).2 (ok_of_isOk (by decide +kernel))).2 (by decide +kernel)
      (bench_sector_reads (by decide +kernel) _ _ _ _)⟩,
   ⟨_, ((h (ev { codeArgs with off := 0x10000 } bench) cleanLine benchCtx).2.2.2.2.2.2.2.2.2.2.2.2.1 rfl (by decide)).1
      ⟨.fatal ⟨kBounds, 0, some (1, 0x10000), 0, false⟩, fault_of_faultIn (by decide +kernel)⟩⟩,
   ⟨_, (((h remoteBench cleanLine benchCtx).2.2.2.2.2.2.2.2.2.2.2.2.1 rfl (by decide)).2 (ok_of_isOk (by decide +kernel))).1 (.inl (by decide +kernel))⟩,
   ⟨_, (h (ev { codeArgs with core := 1 } bench) cleanLine benchCtx).2.2.2.2.2.2.2.2.2.2.2.1 (.inl (by decide +kernel))⟩⟩

/-- Arguments of the Cellar's own work. -/
def flashArgs (id : Nat) (flag : Bool) : EventArgs := { noArgs with id := id, flag := flag, act := .retireBlock }

/-- An hour after the slice began. -/
def hourLater (id : Nat) : State := { ev (flashArgs id false) bench with time := 3600000000000 }

theorem witness_cellar : Claims.MemoryHardwareSteps → (∃ t, Happens .programmingSliceEnd (hourLater 7) t)
    ∧ (∃ t, Happens .programmingSliceEnd (ev (flashArgs 7 false) bench) t) ∧ (∃ t, Happens .programmingSliceEnd (ev (flashArgs 8 false) bench) t)
    ∧ Leads .cellarMaintenance (ev (flashArgs 0 false) bench) (fun _ => True)
    ∧ Leads .cellarMaintenance (ev (flashArgs 7 true) bench) fun t => (t.cellar 7).state = 3 := fun h =>
  ⟨⟨_, (h (hourLater 7) cleanLine benchCtx).2.2.2.2.2.2.2.2.2.2.2.2.2.1 (by decide) (by decide +kernel)⟩,
   ⟨_, (h (ev (flashArgs 7 false) bench) cleanLine benchCtx).2.2.2.2.2.2.2.2.2.2.2.2.2.2.1 (by decide +kernel)⟩,
   ⟨_, ((h (ev (flashArgs 8 false) bench) cleanLine benchCtx).2.2.2.2.2.2.2.2.2.2.2.2.2.2.2.1 (by decide)).1⟩,
   ((h (ev (flashArgs 0 false) bench) cleanLine benchCtx).2.2.2.2.2.2.2.2.2.2.2.2.2.2.2.2.1 (by decide) rfl (by decide +kernel)).imp fun _ p => ⟨p.1, trivial⟩,
   (h (ev (flashArgs 7 true) bench) cleanLine benchCtx).2.2.2.2.2.2.2.2.2.2.2.2.2.2.2.2.2.1 (by decide) rfl⟩

/-- Counters at zero, and a scrub that corrected one error. -/
def scrubBench (id : Nat) : State := ev { noArgs with id := id, code := 7, len := 1 } { bench with health := [] }

theorem witness_scrubs : Claims.MemoryHardwareSteps → Leads .sramScrub (scrubBench 2) (fun _ => True) ∧ Leads .hbmScrub (scrubBench 7) fun _ => True := fun h =>
  ⟨((h (scrubBench 2) cleanLine benchCtx).2.2.2.2.2.2.2.2.2.2.2.2.2.2.2.2.2.2.1 (by decide) (by decide) (by decide +kernel)).imp fun _ p => ⟨p.1, trivial⟩,
   ((h (scrubBench 7) cleanLine benchCtx).2.2.2.2.2.2.2.2.2.2.2.2.2.2.2.2.2.2.2 (by decide +kernel)).imp fun _ p => ⟨p.1, trivial⟩⟩

/-- An uncorrectable error at a place, on core 0's bench context. -/
def errorAt (l : ErrLoc) : State := ev { codeArgs with loc := l } bench
/-- An error in core 0's own state, with a context. -/
def coreErrorOn (c : Ctx) : State := ev { noArgs with loc := .core 0 } (benchOn 0 c)
/-- A context of which part of a commit has performed. -/
def halfCtx : Ctx := { benchCtx with committing := true, porch := [{ spawnHeld with due := true }] }
/-- A context whose journal is still to be acknowledged. -/
def resendingCtx : Ctx := { replayCtx with mode := .resending 1 }

theorem witness_core_replays : Claims.CoreErrors → Leads .uncorrectableError (coreErrorOn resendingCtx) (fun t => t.ctxOf 0 = none)
    ∧ Leads .uncorrectableError (coreErrorOn replayCtx) (fun t => t.ctxOf 0 = none)
    ∧ Leads .uncorrectableError { coreErrorOn replayCtx with clearing := [(0, 0)] } (fun t => ∃ d, t.ctxOf 0 = some d ∧ d.mode = .aborting)
    ∧ Leads .uncorrectableError { coreErrorOn replayCtx with lost := [(0, 1)] } (fun t => t.ctxOf 0 = none) := fun h =>
  ⟨(((h (coreErrorOn resendingCtx) 0 resendingCtx rfl).2.1 rfl rfl rfl rfl).1 rfl).imp fun _ p => ⟨p.1, p.2.1⟩,
   ((((h (coreErrorOn replayCtx) 0 replayCtx rfl).2.1 rfl rfl rfl rfl).2 rfl).1 (ok_of_isOk (by decide +kernel))).imp fun _ p => ⟨p.1, p.2.1⟩,
   ((((h { coreErrorOn replayCtx with clearing := [(0, 0)] } 0 replayCtx rfl).2.1 rfl rfl rfl rfl).2 rfl).2.1 (wait_of_isWait (by decide +kernel))),
   ((((h { coreErrorOn replayCtx with lost := [(0, 1)] } 0 replayCtx rfl).2.1 rfl rfl rfl rfl).2 rfl).2.2
     ⟨kLostPage, 0, some (0xFF8000, 256), 0, false⟩ (fault_of_faultIn (by decide +kernel)) (by decide) (by decide)).imp fun _ p => ⟨p.1, p.2.1⟩⟩

/-- An error in the state of core 1, which is idle and has had two within the second. -/
def tiredBench : State :=
  let s := errorAt (.core 1)
  s.modCore 1 fun x => { x with errTimes := [0, 0] }

theorem witness_core_kills : Claims.CoreErrors → Leads .uncorrectableError (errorAt (.core 1)) (fun t => t.ctxOf 1 = none)
    ∧ Leads .uncorrectableError (coreErrorOn benchCtx) (fun t => ∃ e ∈ sget [] t.queues 0, e.kind = 0x12)
    ∧ Leads .uncorrectableError (coreErrorOn halfCtx) (fun t => ∃ d, t.ctxOf 0 = some d)
    ∧ Leads .uncorrectableError tiredBench fun t => (t.core 1).selfTest = true := fun h =>
  ⟨(h (errorAt (.core 1)) 1 benchCtx rfl).1 (by decide +kernel),
   ((h (coreErrorOn benchCtx) 0 benchCtx rfl).2.2.1 rfl (.inl rfl) rfl rfl).imp fun _ p => ⟨p.1, p.2.2.imp fun _ q => ⟨q.1, q.2.1⟩⟩,
   ((h (coreErrorOn halfCtx) 0 halfCtx rfl).2.2.2.1 rfl rfl rfl rfl).imp fun _ p => ⟨p.1, p.2.1.imp fun _ q => q.imp (fun _ r => r.1) |>.elim fun _ r => r⟩,
   (h tiredBench 1 benchCtx rfl).2.2.2.2 (by decide) (by decide +kernel)⟩

/-- Machines with a line, with a waiting record, and with a request of a Drover. -/
def lineError (l : Line) : State := { errorAt (.l2 1 0 0) with lines := [l] }
def watchError : State := { errorAt (.watch 0) with waiting := [waits (.word 4 1 0 0 0xFF9000 0 0 0)] }
def droverErr (demand : Bool) : State := (errorAt (.drover 1 0)).setDrover 1 [⟨5, demand, true, 0, 0⟩]
/-- A walk of core 0, of a message, or of the fetch of handle 5 meets an error in a table. -/
def tableErr (code c : Nat) (demand : Bool) : State :=
  { ev { codeArgs with loc := .table 0x10040 c, code := code, seq := 0 } ((handleBench 1 0).setDrover 0 [⟨5, demand, true, 0, 0⟩]) with
    ports := [(0, ⟨true, 0, 0, 0, 0, 0, 0⟩)], peers := [⟨0, 0, 0, 100, true, 0, 1⟩], conns := [(0, { Conn.initial with up := true, attested := true })] }

theorem witness_errors : Claims.ErrorsAreContained → Leads .uncorrectableError (errorAt (.space 575 0x37FFFF)) (fun _ => True)
    ∧ (∃ t, Happens .uncorrectableError (errorAt (.hbm 0x40000)) t) ∧ (∃ t, Happens .uncorrectableError (errorAt (.hbm 0x50000)) t)
    ∧ (∃ t, Happens .uncorrectableError (tableErr 0 0 true) t) ∧ Leads .uncorrectableError (tableErr 1 0 true) (fun _ => True)
    ∧ (∃ t, Happens .uncorrectableError (tableErr 2 5 true) t)
    ∧ (∃ t, Happens .uncorrectableError (lineError dirtyLine) t) ∧ (∃ t, Happens .uncorrectableError watchError t)
    ∧ Leads .uncorrectableError (errorAt .hub) fun _ => True := fun h =>
  ⟨((h (errorAt (.space 575 0x37FFFF)) 0 575 0x37FFFF 0).1 rfl (by decide)).imp fun _ p => ⟨p.1, trivial⟩,
   ⟨_, ((h (errorAt (.hbm 0x40000)) 0 0 0 0x40000).2.1 rfl).1 (by decide +kernel)⟩,
   ⟨_, ((h (errorAt (.hbm 0x50000)) 0 0 0 0x50000).2.1 rfl).2 (by decide +kernel)⟩,
   ⟨_, ((h (tableErr 0 0 true) 0 0 0 0x10040).2.2.1 rfl).1 rfl⟩,
   (((h (tableErr 1 0 true) 0 0 0 0x10040).2.2.1 rfl).2.1 rfl (by decide +kernel) (by decide +kernel) (by decide +kernel)
      (by decide +kernel)).imp fun _ p => ⟨p.1, trivial⟩,
   ⟨_, ((h (tableErr 2 5 true) 5 0 0 0x10040).2.2.1 rfl).2.2 (by decide) ⟨5, true, true, 0, 0⟩ (by decide +kernel)⟩,
   ⟨_, (h (lineError dirtyLine) 0 0 1 0).2.2.2.1 0 0 dirtyLine rfl (by decide +kernel)⟩,
   ⟨_, (h watchError 0 0 0 0).2.2.2.2.2.2.2.1 0 rfl⟩,
   ((h (errorAt .hub) 0 0 0 0).2.2.2.2.2.2.2.2.2 rfl).imp fun _ p => ⟨p.1, trivial⟩⟩

/-- Object 1's page compressed. -/
def comprError : State := (errorAt (.compression 1 0)).pokeNum 0x22000 8 (7 * 2 ^ 61 + 2 ^ 49 + 4)
/-- Core 1 before a pen with a record that has a save area, or none. -/
def saveError (r : Rec) : State := ev { noArgs with core := 1, loc := .saveArea 1 } (penBench [(0, penWith r)] [])
def savedRecord : Rec := Rec.sealed (goodRecord ||| BitVec.ofNat 512 (2 ^ 257))
def takenAt (s : State) : State × Nat × Buffered := (takeRecord s 1).getD (bench, 0, ⟨0, 0, (0, 0), false⟩)

theorem witness_errors_else : Claims.ErrorsAreContained → (∃ t, Happens .uncorrectableError comprError t)
    ∧ (∃ t, Happens .uncorrectableError (errorAt (.compression 1 0)) t)
    ∧ (∃ t, Happens .uncorrectableError (saveError goodRecord) t) ∧ (∃ t, Happens .uncorrectableError (saveError savedRecord) t)
    ∧ (∃ t, Happens .uncorrectableError (errorAt (.cellar 0)) t) ∧ Leads .uncorrectableError (errorAt (.cellar (2 ^ 59))) (fun _ => True)
    ∧ (∃ t, Happens .uncorrectableError (errorAt (.drover 0 0)) t) ∧ (∃ t, Happens .uncorrectableError (droverErr true) t)
    ∧ ∃ t, Happens .uncorrectableError (droverErr false) t := fun h =>
  ⟨⟨_, ((h comprError 0 0 1 0).2.2.2.2.1 0 rfl).1 (by decide +kernel)⟩,
   ⟨_, ((h (errorAt (.compression 1 0)) 0 0 1 0).2.2.2.2.1 0 rfl).2 (by decide +kernel)⟩,
   ⟨_, ((h (saveError goodRecord) 1 0 0 0).2.2.2.2.2.1 rfl (takenAt (saveError goodRecord)).1 (takenAt (saveError goodRecord)).2.1
      (takenAt (saveError goodRecord)).2.2 (by decide +kernel)).1 (by decide +kernel)⟩,
   Exists.elim (((h (saveError savedRecord) 1 0 0 0).2.2.2.2.2.1 rfl (takenAt (saveError savedRecord)).1 (takenAt (saveError savedRecord)).2.1
      (takenAt (saveError savedRecord)).2.2 (by decide +kernel)).2 (by decide +kernel)) fun _ e => ⟨_, e⟩,
   ⟨_, ((h (errorAt (.cellar 0)) 0 0 0 0).2.2.2.2.2.2.1 rfl).1 (by decide)⟩,
   (((h (errorAt (.cellar (2 ^ 59))) 0 0 0 (2 ^ 59)).2.2.2.2.2.2.1 rfl).2 (by decide)).imp fun _ p => ⟨p.1, trivial⟩,
   ⟨_, ((h (errorAt (.drover 0 0)) 0 0 0 0).2.2.2.2.2.2.2.2.1 0 0 rfl).1 (by decide +kernel)⟩,
   ⟨_, (((h (droverErr true) 0 0 0 0).2.2.2.2.2.2.2.2.1 1 0 rfl).2 ⟨5, true, true, 0, 0⟩ (by decide +kernel)).1 rfl⟩,
   ⟨_, (((h (droverErr false) 0 0 0 0).2.2.2.2.2.2.2.2.1 1 0 rfl).2 ⟨5, false, true, 0, 0⟩ (by decide +kernel)).2 rfl⟩⟩

/-- A request for a report, or for the next key. -/
def attestBench (flag : Bool) : State := ev { noArgs with data := List.replicate 32 7, flag := flag } { bench with boot := .running }
/-- A machine in recovery that is sent bytes. -/
def recoveryBench : State := ev { noArgs with id := 4, data := [1, 2, 3] } { bench with boot := .recovery, ports := [(0, ⟨true, 0, 0, 0, 0, 0, 0⟩)] }

theorem witness_hub : Obligations.HubSteps → (∃ t, Happens .recorderAppend (bench.poke (bench.policy + 63) 1) t)
    ∧ (∃ t, Happens .recorderAppend bench t) ∧ (∃ t, Happens .hubWatchdog { bench with watchdog := some 0 } t)
    ∧ Leads .attestationRequest (attestBench true) (fun t => t.attest.leaf = 1) ∧ Leads .attestationRequest (attestBench false) (fun t => t.attest.top = 1)
    ∧ ∃ t, Happens .recoveryExchange recoveryBench t := fun h =>
  ⟨⟨_, (h (bench.poke (bench.policy + 63) 1)).2.2.1 (by decide +kernel)⟩,
   ⟨_, (h bench).2.2.2.1 (by decide +kernel)⟩,
   ⟨_, (h { bench with watchdog := some 0 }).2.2.2.2.1 0 rfl (by decide)⟩,
   (((h (attestBench true)).2.2.2.2.2.2.1 rfl rfl rfl (by decide +kernel) (by decide +kernel)).1 rfl).imp fun _ p => ⟨p.1, p.2.1.trans (by decide +kernel)⟩,
   (((h (attestBench false)).2.2.2.2.2.2.1 rfl rfl rfl (by decide +kernel) (by decide +kernel)).2 rfl).imp fun _ p => ⟨p.1, p.2.1.trans (by decide +kernel)⟩,
   ⟨_, (h recoveryBench).2.2.2.2.2.2.2 rfl (by decide +kernel) (.inr rfl)⟩⟩

/-- The ceiling of an interval with no demand and no policy. -/
theorem witness_arbiter : Obligations.HubSteps → Leads .arbiterInterval bench (fun t => t.arbiter.tsteps = bench.arbiter.tsteps)
    ∧ Leads .coldReset bench (fun t => t.bootCount = bench.bootCount + 1) := fun h =>
  ⟨(h bench).1.imp fun _ p => ⟨p.1, p.2.1.trans (by decide +kernel)⟩, ((h bench).2.2.2.2.2.1 .coldReset false (by decide)).imp fun _ p => ⟨p.1, p.2.1⟩⟩

theorem witness_decode : Obligations.DecodeReadsEncode → decode .c (fun _ => 0x6AA000) (Instr.waitw 7 5 6 1 true 2 0x2A).encode = some (.waitw 7 5 6 1 true 2 0x2A) :=
  fun h => h (.waitw 7 5 6 1 true 2 0x2A) .c (fun _ => 0x6AA000) rfl (by decide) (by decide)

theorem witness_encode : Obligations.EncodeWritesDecode → (Instr.add .ia false 8 8 0x37).encode = 0x048237 := fun h =>
  (h .ia (fun _ => 0) 0x048237 (.add .ia false 8 8 0x37) (by decide +kernel)).2.2.2.1

/-- A bundle whose IA holds `add s8, s8, 0`, guarded by `p1` where asked for. -/
def addBundle (guard : Nat) : BitVec 256 := BitVec.ofNat 256 (0x048238 * 2 ^ (64 + 24 * Slot.ia.idx) + guard * 2 ^ (24 + 3 * Slot.ia.idx))
def addCtx (guard : Nat) : Ctx := { benchCtx with issue := some (Issue.start benchCtx (addBundle guard)) }
def addOp : Instr := .add .ia false 8 8 0x38
/-- The machine once IA has come to that bundle, and the context in it. -/
def arrived (s : State) : State := (arriveSlot s .ia).getD bench
def comes (s : State) : Ctx := (arrived s).cur.getD benchCtx

theorem witness_step_issues : Obligations.StepRunsDecoded → step (benchOn 0 (addCtx 0)) = exec addOp (arrived (benchOn 0 (addCtx 0))) := fun h =>
  (((h (benchOn 0 (addCtx 0)) (addCtx 0) addOp .ia []).1 _ rfl (by decide +kernel) rfl rfl rfl rfl rfl rfl (by decide +kernel)
    ⟨by decide +kernel, by decide +kernel⟩).2 _ (comes (benchOn 0 (addCtx 0))) (some_of (d := bench) (by decide +kernel))
      (some_of (by decide +kernel))).1 (by decide +kernel) (by decide +kernel)

theorem witness_step_skips : Obligations.StepRunsDecoded →
    step (benchOn 0 (addCtx 1)) = .next (finishSlot .ia (arrived (benchOn 0 (addCtx 1)))).tick := fun h =>
  (((h (benchOn 0 (addCtx 1)) (addCtx 1) addOp .ia []).1 _ rfl (by decide +kernel) rfl rfl rfl rfl rfl rfl (by decide +kernel)
    ⟨by decide +kernel, by decide +kernel⟩).2 _ (comes (benchOn 0 (addCtx 1))) (some_of (d := bench) (by decide +kernel))
      (some_of (by decide +kernel))).2.2 (by decide +kernel)

/-- A bundle whose IA may not come to it: a slot of its join stands at an earlier one. -/
def behindCtx : Ctx := { addCtx 0 with
  issue := some { Issue.start benchCtx (addBundle 0) with join := [.ia, .ib] }
  slip := [⟨0, 0, { Issue.start benchCtx (addBundle 0) with pending := [.ib], idle := [] }⟩], pos := 1 }

theorem witness_step_waits : Obligations.StepRunsDecoded → ∃ t, step (benchOn 0 behindCtx) = .next t := fun h =>
  ⟨_, (((h (benchOn 0 behindCtx) behindCtx addOp .ia []).1 _ rfl (by decide +kernel) rfl rfl rfl rfl rfl rfl (by decide +kernel)
    ⟨by decide +kernel, by decide +kernel⟩).1 (by decide +kernel))⟩

/-- A bundle whose IB holds `ld.64 s8, k0, 0`, while CF still has a `kld` to make at an earlier one. -/
def loadBundle : BitVec 256 := BitVec.ofNat 256 ((Instr.ld64 8 0 0x38 0).encode.toNat * 2 ^ (64 + 24 * Slot.ib.idx))
def heldUpCtx : Ctx := { benchCtx with
  issue := some (Issue.start benchCtx loadBundle)
  slip := [⟨0, 0, { Issue.start benchCtx (BitVec.ofNat 256 ((Instr.kld 1 0 0).encode.toNat * 2 ^ (64 + 24 * Slot.cf.idx))) with
    pending := [.cf], idle := [] }⟩], pos := 1 }

theorem witness_step_held_up : Obligations.StepRunsDecoded → ∃ t, step (benchOn 0 heldUpCtx) = .next t := fun h =>
  ⟨_, (((h (benchOn 0 heldUpCtx) heldUpCtx (.ld64 8 0 0x38 0) .ib []).1 _ rfl (by decide +kernel) rfl rfl rfl rfl rfl rfl (by decide +kernel)
    ⟨by decide +kernel, by decide +kernel⟩).2 _ (((arriveSlot (benchOn 0 heldUpCtx) .ib).getD bench).cur.getD benchCtx) (some_of (d := bench) (by decide +kernel))
      (some_of (by decide +kernel))).2.1 (by decide +kernel) (by decide +kernel)⟩

/-- An input chooses IA. -/
def chosenBench : State := { benchOn 0 (addCtx 0) with inputs := [.slot .ia] }
def chosenCtx : Ctx := { addCtx 0 with issue := some { Issue.start benchCtx (addBundle 0) with alone := true } }

theorem witness_step_slot : Obligations.StepRunsDecoded → step chosenBench = exec addOp (arrived (({ chosenBench with inputs := [] } : State).setCtx 0 chosenCtx)) :=
  fun h => (((h chosenBench (addCtx 0) addOp .ia []).2.2.1 _ [] rfl rfl rfl rfl rfl rfl rfl (by decide +kernel) (by decide +kernel) (by decide +kernel)
    ⟨by decide +kernel, by decide +kernel⟩).2 _ (comes (({ chosenBench with inputs := [] } : State).setCtx 0 chosenCtx))
      (some_of (d := bench) (by decide +kernel)) (some_of (by decide +kernel))).1 (by decide +kernel) (by decide +kernel)

/-- A context before that bundle. -/
def aheadCtx : Ctx := { benchCtx with issue := none }
def aheadBench : State := (benchOn 0 aheadCtx).pokeNum 0x40000 32 (addBundle 0).toNat
/-- The machine with the bundle fetched. -/
def aheadState : State := startBundle (fillSpan (touch aheadBench 1 0 32 0) 1 0 32 0) 0 (addBundle 0)

theorem witness_step_fetches : Obligations.StepRunsDecoded → ∃ t, step aheadBench = exec addOp t := fun h => by
  have hb : BitVec.ofNat 256 (ofBytes (locBytes (fillSpan (touch aheadBench 1 0 32 0) 1 0 32 0) 1 0 32 0)) = addBundle 0 := by decide +kernel
  have k := (h aheadBench aheadCtx addOp .ia (pendingOf (addBundle 0)).tail).2.1 rfl (by decide +kernel) rfl rfl rfl rfl rfl rfl (.inr (by decide))
    (ok_of_isOk (by decide +kernel)) (ok_of_isOk (by decide +kernel)) (no_read_fails (by decide +kernel) ..) (by decide +kernel)
  simp only [aheadCtx, benchCtx, freshCtx] at k
  rw [hb] at k
  exact ⟨_, ((k (by decide +kernel) (by decide +kernel) ⟨by decide +kernel, by decide +kernel⟩).2 _ (comes aheadState)
    (some_of (d := bench) (by decide +kernel)) (by decide +kernel)).1 (by decide +kernel) (by decide +kernel)⟩

theorem witness_step_inputs : Obligations.StepRunsDecoded →
    (∃ t, step { bench with inputs := [.event .coldReset noArgs] } = exec .coldReset t)
    ∧ (∃ t, step { bench with inputs := [.elapse 5] } = .next t) ∧ (∃ t, step { bench with inputs := [.turn 7] } = .next t)
    ∧ (∃ t, step { bench with inputs := [.pause 1] } = .next t) ∧ ∃ t, step { bench with inputs := [.foresee 1 0 8] } = .next t := fun h =>
  ⟨⟨_, (h { bench with inputs := [.event .coldReset noArgs] } benchCtx .coldReset .c []).2.2.2.2.1 noArgs [] rfl rfl⟩,
   ⟨_, (h { bench with inputs := [.elapse 5] } benchCtx .coldReset .c []).2.2.2.2.2.1 5 [] rfl⟩,
   ⟨_, (h { bench with inputs := [.turn 7] } benchCtx .coldReset .c []).2.2.2.2.2.2.1 7 [] rfl⟩,
   ⟨_, (h { bench with inputs := [.pause 1] } benchCtx .coldReset .c []).2.2.2.2.2.2.2.1 1 [] rfl⟩,
   ⟨_, (h { bench with inputs := [.foresee 1 0 8] } benchCtx .coldReset .c []).2.2.2.2.2.2.2.2 1 0 8 [] rfl⟩⟩

/-- A context whose IB waits for a ring, and whose IA an input chooses. -/
def ringBench : State := { benchOn 0 { addCtx 0 with ringWait := some .ib } with inputs := [.slot .ia] }
theorem witness_step_ring : Obligations.StepRunsDecoded → ∃ t, step ringBench = .next t := fun h =>
  ⟨_, (h ringBench { addCtx 0 with ringWait := some .ib } addOp .ia []).2.2.2.1 .ib [] rfl rfl rfl (by decide)⟩

theorem witness_visible : Obligations.ResultsBecomeVisible →
    readS bench { benchCtx with pos := 4, fly := [inFlight .ia 8 0 4 7] } .ia 8 = 7
    ∧ readS bench { benchCtx with pos := 3, fly := [inFlight .ia 8 0 4 7] } .ia 8 = 0
    ∧ readS bench { benchCtx with pos := 5, fly := [inFlight .ia 8 0 4 7, inFlight .ia 8 1 1 9] } .ia 8 = 7 := fun h =>
  ⟨((h bench { benchCtx with pos := 4 } .ia .ib 8 0 0 4 0 7 0 (by decide)).2.1 (by decide)),
   ((h bench { benchCtx with pos := 3 } .ia .ib 8 0 0 4 0 7 0 (by decide)).1 (by decide)),
   ((h bench { benchCtx with pos := 5 } .ia .ib 8 0 1 4 1 7 9 (by decide)).2.2.1 (by decide) (by decide) (by decide))⟩

/-- IA and IB joined at position 9 (the pair's last join, plus one). -/
def joinedCtx : Ctx := { benchCtx with pos := 12, joins := [(8 * Slot.ia.idx + Slot.ib.idx, 10), (8 * Slot.ib.idx + Slot.ia.idx, 10)] }

theorem witness_visible_joined : Obligations.ResultsBecomeVisible → readS bench { joinedCtx with fly := [inFlight .ia 8 0 4 7] } .ib 8 = 7 := fun h =>
  (h bench joinedCtx .ia .ib 8 0 0 4 0 7 0 (by decide)).2.2.2 (by decide) (by decide +kernel) (by decide +kernel)

/-- Whether an operation answers a next state. -/
def goesOn (i : Instr) (s : State) : Bool := match exec i s with
  | .next _ => true
  | _ => false

theorem next_of_goesOn {i : Instr} {s : State} (h : goesOn i s = true) : ∃ t, exec i s = .next t := by
  unfold goesOn at h
  split at h
  · exact ⟨_, ‹_›⟩
  · cases h

theorem witness_result_frame : Issues bench benchCtx ∧ ∃ t, exec (.add .ia false 8 1 2) bench = .next t :=
  ⟨witness_issues, next_of_goesOn (by decide +kernel)⟩

theorem witness_load_frame : Issues bench benchCtx ∧ (∃ t, exec (.ld64 4 0 2 0) bench = .next t) ∧ benchCtx.reserved = []
    ∧ ∀ q ∈ bench.writeQ, q.addr % 64 = 0 :=
  ⟨witness_issues, next_of_goesOn (by decide +kernel), rfl, by decide +kernel⟩

theorem witness_store_frame : Issues bench benchCtx ∧ (∃ t, exec (.st64 4 0 2 0) bench = .next t) ∧ entryCount benchCtx.porch + 2 ≤ 8192
    ∧ benchCtx.reserved = [] ∧ benchCtx.spilling = false :=
  ⟨witness_issues, next_of_goesOn (by decide +kernel), by decide, rfl, rfl⟩

theorem witness_atomic_frame : Issues bench benchCtx ∧ (∃ t, exec (.amoAdd 4 0 0 1 0 0 3) bench = .next t) ∧ benchCtx.caught .ib = none ∧ benchCtx.porch = []
    ∧ benchCtx.reserved = [] ∧ bench.waiting = [] ∧ benchCtx.fencing = [] ∧ bench.lines = []
    ∧ isLocal (readK (stateFor (.amoAdd 4 0 0 1 0 0 3) bench benchCtx) (ctxFor (.amoAdd 4 0 0 1 0 0 3) benchCtx) .ib 0).obj = true :=
  ⟨witness_issues, next_of_goesOn (by decide +kernel), by decide +kernel, rfl, rfl, rfl, rfl, rfl, by decide +kernel⟩

theorem witness_transfer_frame : Issues bench benchCtx ∧ (∃ t, exec (.call 1) bench = .next t) ∧ benchCtx.reserved = [] ∧ benchCtx.committing = false :=
  ⟨witness_issues, next_of_goesOn (by decide +kernel), rfl, rfl⟩

theorem witness_read_back : Claims.MemoryReadsBack → (bench.pokes 0x100 [1, 2]).byte 0x102 = bench.byte 0x102 ∧ (bench.pokeNum 0x100 1 255).num 0x100 1 = 255 := fun h =>
  ⟨(h bench 0x100 0x102 0 0 0 [1, 2]).2.2.2.1 (.inr (by decide)), (h bench 0x100 0 1 255 0 []).2.2.2.2 (by decide)⟩

theorem witness_local_write : Claims.LocalWritesPerform →
    (performBytes bench 0xFF8000 0 (atOffsets 8 [1, 2])).byte (spaceAddr 0xFF8000 9) = 2
    ∧ (performBytes bench 0xFF8000 0 (atOffsets 8 [1, 2])).byte (spaceAddr 0xFF8000 10) = bench.byte (spaceAddr 0xFF8000 10) := fun h =>
  ⟨((h bench 0xFF8000 8 0 [1, 2] (by decide) rfl (by decide +kernel)).1 1 (by decide)).1,
   (h bench 0xFF8000 8 (spaceAddr 0xFF8000 10) [1, 2] (by decide) rfl (by decide +kernel)).2.1 (by decide)⟩

theorem witness_fatal : Obligations.FatalEventsEndTheContext → (fatalIn bench 0 2 ⟨0x03, 0, none, 0, false⟩).ctxOf 0 = none
    ∧ (∃ c', (fatalIn (benchOn 0 halfCtx) 0 2 ⟨0x03, 0, none, 0, false⟩).ctxOf 0 = some c') := fun h =>
  ⟨((h bench 0 2 benchCtx ⟨0x03, 0, none, 0, false⟩ rfl rfl (by decide) (by decide) (by decide +kernel)).1 rfl rfl).1,
   ((h (benchOn 0 halfCtx) 0 2 halfCtx ⟨0x03, 0, none, 0, false⟩ rfl rfl (by decide) (by decide) (by decide +kernel)).2.1 rfl rfl).2.2.2.2.2.imp fun _ p => p.1⟩

/-- Core 0 is in its cluster's scope with core 47 and not with core 48; a message between cores 0 and 47 races where one operation has a core's scope,
and the stores of two cores of one die do not where both fences have the die's. -/
theorem witness_scopes : Obligations.ScopesAndRaces → inScope (some 0) 2 (some 48) = false ∧ inScope (some 0) 2 (some 288) = true
    ∧ inScope (some 294) 3 (some 0) = false ∧ racedAt [actOf (.core 47) 47 3 1 0 0 9 0 false (.read false []), actOf (.core 47) 47 2 0 16 0 9 64 false (.read true [1]),
        actOf (.core 0) 0 1 1 16 2 9 64 true (.write true), actOf (.core 0) 0 0 0 0 0 9 0 true (.write false)] 9 7 = true := fun h =>
  ⟨by rw [← Bool.not_eq_true]; exact fun e => absurd (((h 0 48 (.core 0) (.core 47) 0 0 0 0 0 0 0 bench 0).1 (by decide) (by decide)).2.2.1.1 e) (by decide),
   ((h 0 0 (.core 0) (.core 47) 0 0 0 0 0 0 0 bench 0).2.1 (by decide) (by decide)).1.2 (by decide),
   by rw [← Bool.not_eq_true]; exact fun e => absurd (((h 0 0 (.core 0) (.core 47) 0 0 0 0 0 0 0 bench 0).2.2.1 (by decide) (by decide)).2.2.2.1 e) (by decide),
   ((h 9 0 (.core 0) (.core 47) 0 47 0 64 7 2 0 bench 0).2.2.2 (by decide) (by decide) (by decide) (by decide) (by decide) (.inl (by decide))).1.trans (by decide)⟩

theorem witness_bundles : Obligations.BundlesAreChecked → (addBundle 0).toNat % 2 ^ 20 = 0 ∧ (∃ sl : Slot, sl.idx = 1)
    ∧ checkBundle 0 (BitVec.ofNat 256 (0xF * 2 ^ 20)) = some 8 ∧ checkBundle 0 (BitVec.ofNat 256 (0x600000 * 2 ^ (64 + 24 * Slot.c.idx))) ≠ none := fun h =>
  ⟨((h 0 (addBundle 0)).1 (by decide +kernel)).1,
   ((h 0 (BitVec.ofNat 256 (0xBFFFFF * 2 ^ (64 + 24 * 1)))).2.1 1 (by decide +kernel) (by decide) (by decide)).imp fun _ p => p.1,
   (h 0 (BitVec.ofNat 256 (0xF * 2 ^ 20))).2.2.1 (by decide),
   (h 0 (BitVec.ofNat 256 (0x600000 * 2 ^ (64 + 24 * Slot.c.idx)))).2.2.2 .c .rfe 0 0 0 0 0 0 (by decide) (by decide +kernel) (by decide) (by simp)⟩

/-- 2^24 + 1 in FP32 goes to the even neighbour; 7 in E2M1 overflows; 1/4 in E2M1 goes to zero on the subnormal grid. -/
theorem witness_rounding : Obligations.RoundingIsExact → Equals (roundTo .fp32 0 false (.fin false 16777217 0)).1 false 16777216
    ∧ (roundTo .e2m1 0 false (.fin false 7 0)).2 = 5 ∧ Equals (roundTo .e2m1 0 false (.fin false 1 (-2))).1 false 0 := fun h =>
  ⟨((h.1 .fp32 0 false false 16777217 0 1 16777216 (by decide +kernel) (by decide +kernel)
      ⟨8388608, by decide +kernel, fun _ => by decide +kernel, fun e => absurd e (by decide), fun e => absurd e (by decide), fun e => absurd e (by decide)⟩).2.1 (by decide +kernel) (by decide +kernel)).1,
   ((h.1 .e2m1 0 false false 7 0 1 8 (by decide +kernel) (by decide +kernel)
      ⟨4, by decide +kernel, fun _ => by decide +kernel, fun e => absurd e (by decide), fun e => absurd e (by decide), fun e => absurd e (by decide)⟩).1 (by decide +kernel)).2,
   ((h.1 .e2m1 0 false false 1 (-2) (-3) (1 / 4) (by decide +kernel) (by decide +kernel)
      ⟨2, by decide +kernel, fun _ => by decide +kernel, fun e => absurd e (by decide), fun e => absurd e (by decide), fun e => absurd e (by decide)⟩).2.2 (by decide +kernel) 0
      ⟨0, by decide +kernel, fun _ => by decide +kernel, fun e => absurd e (by decide), fun e => absurd e (by decide), fun e => absurd e (by decide)⟩).1⟩

/-- An exact zero of a sum of opposite signs. -/
theorem witness_zero_sum : Obligations.RoundingIsExact → Equals (fvAdd 3 (.fin false 1 0) (.fin true 1 0)).1 true 0 := fun h =>
  h.2.1 3 false true 1 1 0 0 (by decide +kernel) (.inl (by decide))

/-- The bench with `k0` a capability of object 1, in far memory. -/
def farCtx : Ctx := { benchCtx with k := [(0, mkCap 1 0xFF 0 0x10000 0 true), (1, room)] }

theorem witness_far_atomic : Issues (benchOn 0 farCtx) farCtx ∧ (∃ t, exec (.amoAdd 4 0 0 1 0 0 3) (benchOn 0 farCtx) = .next t)
    ∧ (benchOn 0 farCtx).pens = [] ∧ (∀ home, 0 < (benchOn 0 farCtx).openWays home) ∧ (∀ q ∈ (benchOn 0 farCtx).writeQ, q.addr % 64 = 0)
    ∧ isLocal (readK (stateFor (.amoAdd 4 0 0 1 0 0 3) (benchOn 0 farCtx) farCtx) (ctxFor (.amoAdd 4 0 0 1 0 0 3) farCtx) .ib 0).obj = false :=
  ⟨issues_with _ rfl rfl, next_of_goesOn (by decide +kernel), rfl, fun home => by
    unfold State.openWays State.phaseOf
    rw [show (benchOn 0 farCtx).phases = [] from by decide +kernel]
    exact (by decide : 0 < 2 * min Phase.initial.cur Phase.initial.tgt), by decide +kernel, by decide +kernel⟩

theorem witness_canonical : Memory.wf bench.mem ∧ ∃ t, step bench = .next t := by
  refine ⟨by decide +kernel, ?_⟩
  have h : (match step bench with | .next _ => true | _ => false) = true := by decide +kernel
  split at h
  · exact ⟨_, ‹_›⟩
  · cases h

end Sys2Proof.Tests
end

section
/-! SUPPORT. The core that moves stays the same through everything that a commit of the porch performs (R232). -/

namespace Sys2Proof.Machine.Assembly
open Sys2Proof

/-! The lemmas `…_turn` say of each shared operation on the state, from the bytes of memory up to a held write that performs, that it leaves `State.turn`. -/

/-- What each step of a fold leaves unchanged, the fold leaves unchanged. -/
theorem foldl_fixes {α β γ : Type} (g : β → γ) {f : β → α → β} (h : ∀ b a, g (f b a) = g b) (l : List α) (b : β) : g (l.foldl f b) = g b :=
  foldl_keeps (fun x => g x = g b) f (fun x a hx => (h x a).trans hx) l b rfl

/-- A fold whose steps leave the moving core leaves it. -/
@[simp] theorem turn_foldl {α : Type} {f : State → α → State} (h : ∀ s a, (f s a).turn = s.turn) (l : List α) (s : State) :
    (l.foldl f s).turn = s.turn := foldl_fixes State.turn h l s

/-! ### Memory, lines and the perform order

The leaves are proved `by rfl`, not by the term `rfl`: `simp` then also uses them to meet the hypothesis of `turn_foldl`. -/

@[simp] theorem State.poke_turn (s : State) (a : Nat) (b : Byte) : (s.poke a b).turn = s.turn := by rfl
@[simp] theorem State.tagBlock_turn (s : State) (a : Nat) : (s.tagBlock a).turn = s.turn := by rfl
@[simp] theorem State.record_turn (s : State) (a : Act) : (s.record a).turn = s.turn := by rfl
@[simp] theorem State.recordRead_turn (s : State) (a : Act) : (s.recordRead a).turn = s.turn := by rfl
@[simp] theorem State.setLine_turn (s : State) (l : Line) : (s.setLine l).turn = s.turn := by rfl
@[simp] theorem State.spend_turn (s : State) (dev n : Nat) : (s.spend dev n).turn = s.turn := by rfl
@[simp] theorem State.drainIf_turn (s : State) (p : Burst → Bool) : (s.drainIf p).turn = s.turn := by rfl

@[simp] theorem State.pokes_turn (s : State) (a : Nat) (l : List Byte) : (s.pokes a l).turn = s.turn := by
  induction l generalizing s a with
  | nil => rfl
  | cons b t ih => exact ih _ _

@[simp] theorem State.pokeNum_turn (s : State) (a n v : Nat) : (s.pokeNum a n v).turn = s.turn := State.pokes_turn s a _

@[simp] theorem State.serveRead_turn (s : State) (sp : List (Nat × Nat)) : (s.serveRead sp).turn = s.turn := by
  unfold State.serveRead; split <;> rfl

@[simp] theorem State.evict_turn (s : State) (l : Line) : (s.evict l).turn = s.turn := by unfold State.evict; split <;> rfl

@[simp] theorem State.replace_turn (s : State) (ls : List Line) (obj ln : Nat) : (s.replace ls obj ln).1.turn = s.turn := by
  unfold State.replace; split <;> simp

@[simp] theorem State.allot_turn (s : State) (obj ln home : Nat) : (s.allot obj ln home).1.turn = s.turn := by
  unfold State.allot
  dsimp only
  split
  · split <;> simp
  · split <;> simp

@[simp] theorem State.openLine_turn (s : State) (obj : Nat) (pe : PageEnt) (off : Nat) : (s.openLine obj pe off).1.turn = s.turn := by
  unfold State.openLine; split <;> simp

@[simp] theorem putObjByte_turn (s : State) (obj : Nat) (e : ObjEnt) (pe : PageEnt) (off : Nat) (b : Byte) :
    (putObjByte s obj e pe off b).turn = s.turn := by
  unfold putObjByte; dsimp only; split <;> simp

@[simp] theorem placeBytes_turn (s : State) (obj salt : Nat) (tr : Bool) (l : List (Nat × Byte)) : (placeBytes s obj salt tr l).turn = s.turn := by
  unfold placeBytes
  dsimp only
  split
  · simp
  · split <;> simp

@[simp] theorem putBytes_turn (s : State) (obj salt : Nat) (l : List (Nat × Byte)) : (putBytes s obj salt l).turn = s.turn :=
  placeBytes_turn s obj salt true l

@[simp] theorem putByte_turn (s : State) (obj o : Nat) (b : Byte) (salt : Nat) : (putByte s obj o b salt).turn = s.turn :=
  putBytes_turn s obj salt _

@[simp] theorem fillSector_turn (s : State) (obj : Nat) (e : ObjEnt) (pe : PageEnt) (off : Nat) : (fillSector s obj e pe off).turn = s.turn := by
  unfold fillSector; split <;> simp

@[simp] theorem fillSpan_turn (s : State) (obj o n salt : Nat) : (fillSpan s obj o n salt).turn = s.turn := by
  unfold fillSpan; split <;> simp

@[simp] theorem State.holdReq_turn (s : State) (r : HeldReq) : (s.holdReq r).turn = s.turn := by unfold State.holdReq; split <;> rfl

@[simp] theorem holdFills_turn (s : State) (obj o n salt : Nat) : (holdFills s obj o n salt).turn = s.turn := by simp [holdFills]

/-! ### Records that wake, and the hub's own writes -/

@[simp] theorem writeStatus_turn (s : State) (obj off status : Nat) (arm : Option Nat) : (writeStatus s obj off status arm).1.turn = s.turn := by
  unfold writeStatus; dsimp only; split <;> simp

@[simp] theorem wakeOne_turn (s : State) (w : Waiting) (status : Nat) (arm : Option Nat) : (wakeOne s w status arm).1.turn = s.turn := by
  simp only [wakeOne]; split <;> split <;> simp

@[simp] theorem wakeAll_turn (k : Nat) (l : List (Waiting × Nat × Option Nat)) (s : State) : (wakeAll k l s).turn = s.turn := by
  induction k generalizing l s with
  | zero => rfl
  | succ k ih =>
    cases l with
    | nil => rfl
    | cons x t => simp only [wakeAll]; split <;> simp [ih]

@[simp] theorem wakeRecords_turn (s : State) (l : List (Waiting × Nat × Option Nat)) : (wakeRecords s l).turn = s.turn := wakeAll_turn _ l s

@[simp] theorem State.hubWrite_turn (s : State) (a n v : Nat) : (s.hubWrite a n v).turn = s.turn := by simp [State.hubWrite]

@[simp] theorem State.frameWrite_turn (s : State) (obj : Nat) (data : List (Nat × Byte)) : (s.frameWrite obj data).turn = s.turn := by
  simp [State.frameWrite]

@[simp] theorem sweepWatches_turn (s : State) : (sweepWatches s).turn = s.turn := wakeRecords_turn _ _

@[simp] theorem State.bump_turn (s : State) (off n : Nat) : (s.bump off n).turn = s.turn := by simp [State.bump]

@[simp] theorem State.log_turn (s : State) (unit index type flags body : Nat) : (s.log unit index type flags body).turn = s.turn := by
  unfold State.log; dsimp only; split <;> rfl

@[simp] theorem State.logBody_turn (s : State) (unit index type : Nat) (l : List Nat) : (s.logBody unit index type l).turn = s.turn :=
  State.log_turn s unit index type 0 _

@[simp] theorem State.recordEvent_turn (s : State) (flags : Nat) (t : TrapEv) : (s.recordEvent flags t).turn = s.turn := State.log_turn s _ _ _ _ _

@[simp] theorem State.enqueue_turn (s : State) (q : Nat) (t : TrapEv) : (s.enqueue q t).turn = s.turn := by
  unfold State.enqueue; dsimp only; split <;> rfl

@[simp] theorem State.tell_turn (s : State) (q flags : Nat) (t : TrapEv) : (s.tell q flags t).turn = s.turn := by simp [State.tell]

/-! ### Pastures and pens -/

@[simp] theorem setResv_turn (s : State) (p v : Nat) : (setResv s p v).turn = s.turn := State.hubWrite_turn s _ _ _
@[simp] theorem reserveSlot_turn (s : State) (p : Nat) : (reserveSlot s p).turn = s.turn := setResv_turn s p _
@[simp] theorem releaseSlots_turn (s : State) (l : List Nat) : (releaseSlots s l).turn = s.turn := by simp [releaseSlots]

@[simp] theorem setLink_turn (s : State) (e : LaneEnt) (v : Nat) : (setLink s e v).turn = s.turn := by unfold setLink; split <;> simp

@[simp] theorem State.pushLane_turn (s : State) (p : Nat) (e : LaneEnt) : (s.pushLane p e).turn = s.turn := by
  unfold State.pushLane; dsimp only; split <;> simp [State.setLane]

@[simp] theorem joinOrder_turn (s : State) (p : Nat) : (joinOrder s p).turn = s.turn := by rfl
@[simp] theorem State.setPen_turn (s : State) (cl n : Nat) (p : Pen) : (s.setPen cl n p).turn = s.turn := by rfl

@[simp] theorem releasePen_turn (s : State) (cl n : Nat) : (releasePen s cl n).turn = s.turn := by unfold releasePen; split <;> simp

@[simp] theorem sweepPens_turn (s : State) : (sweepPens s).turn = s.turn := by simp [sweepPens]

@[simp] theorem State.seeTail_turn (s : State) (p : Nat) : (s.seeTail p).turn = s.turn := by rfl
@[simp] theorem State.seeWake_turn (s : State) (cl : Nat) : (s.seeWake cl).turn = s.turn := by rfl
@[simp] theorem pinAnswers_turn (s : State) (addrs : List Nat) : (pinAnswers s addrs).turn = s.turn := by rfl

@[simp] theorem afterWrite_turn (s : State) (obj : Nat) (offs : List Nat) (salt : Nat) : (afterWrite s obj offs salt).turn = s.turn := by
  simp [afterWrite, apply_ite State.turn]

/-! ### Write-backs -/

@[simp] theorem storeUnit_turn (s : State) (pe : PageEnt) (el : Nat) (vs : List FV) : (storeUnit s pe el vs).turn = s.turn := by
  unfold storeUnit; dsimp only; split
  · simp
  · split <;> simp

@[simp] theorem encodeUnit_turn (pe : PageEnt) (sup : Nat → Option Byte) (r : Encoded) (el : Nat) : (encodeUnit pe sup r el).1.turn = r.1.turn :=
  storeUnit_turn _ _ _ _

@[simp] theorem encodeGroup_turn (pe : PageEnt) (sup : Nat → Option Byte) (r : Encoded) (els : List Nat) :
    (encodeGroup pe sup r els).1.turn = r.1.turn := by
  unfold encodeGroup; dsimp only; split
  · rfl
  · split <;> simp [storeGroup]

@[simp] theorem encodeLine_turn (s : State) (e : ObjEnt) (pe : PageEnt) (l : Line) : (encodeLine s e pe l).1.turn = s.turn := by
  unfold encodeLine; dsimp only; split
  · generalize hr : encodeGroup pe _ (s, [], []) _ = r
    have h : r.1.turn = s.turn := by rw [← hr, encodeGroup_turn]
    split
    · exact h
    · exact (foldl_fixes (fun r : Encoded => r.1.turn) (fun _ _ => encodeGroup_turn _ _ _ _) _ _).trans h
  · exact foldl_fixes (fun r : Encoded => r.1.turn) (fun _ _ => encodeUnit_turn _ _ _ _) _ _

@[simp] theorem cleanLines_turn (s : State) (e : ObjEnt) (pe : PageEnt) (l : Line) : (cleanLines s e pe l).turn = s.turn := by simp [cleanLines]

@[simp] theorem dropSpan_turn (s : State) (obj pageOff : Nat) (x : Nat × Nat) : (dropSpan s obj pageOff x).turn = s.turn := by rfl

@[simp] theorem writeBackLine_turn (s : State) (e : ObjEnt) (pe : PageEnt) (l : Line) : (writeBackLine s e pe l).1.turn = s.turn := by
  unfold writeBackLine; dsimp only; split
  · simp
  · split <;> simp

@[simp] theorem setPageEnt_turn (s : State) (e : ObjEnt) (off : Nat) (pe : PageEnt) : (setPageEnt s e off pe).turn = s.turn := by
  unfold setPageEnt; split <;> simp

@[simp] theorem markLost_turn (s : State) (obj off : Nat) : (markLost s obj off).turn = s.turn := by simp [markLost]

@[simp] theorem showCellar_turn (s : State) (k : Nat) : (showCellar s k).turn = s.turn := State.hubWrite_turn s _ _ _

@[simp] theorem changeCellar_turn (s : State) (k : Nat) (f : Cellar → Cellar) : (changeCellar s k f).turn = s.turn := by
  unfold changeCellar; dsimp only; split <;> simp [State.setCellar]

theorem programSpans_turn {s t : State} {k : Nat} {sp : List (Nat × Nat)} (h : programSpans s k sp = some t) : t.turn = s.turn := by
  unfold programSpans at h
  dsimp only at h
  split at h
  · cases h
  · cases h; simp

@[simp] theorem setCompr_turn (s : State) (l : List Nat) : (setCompr s l).turn = s.turn := by simp [setCompr]

@[simp] theorem wakeChanged_turn (old s : State) : (wakeChanged old s).turn = s.turn := wakeRecords_turn _ _

@[simp] theorem sendLine_turn (s : State) (e : ObjEnt) (pe : PageEnt) (l : Line) : (sendLine s e pe l).1.turn = s.turn := by
  unfold sendLine
  dsimp only
  split
  · rfl
  · split
    · split
      · simp
      · split
        · rfl
        · split <;> simp
    · split
      · simp
      · split
        · simp
        · split
          next h => simpa using programSpans_turn h
          next => rfl

@[simp] theorem writeThrough_turn (s : State) : (writeThrough s).turn = s.turn :=
  turn_foldl (fun _ _ => by dsimp only; split <;> simp) _ _

/-! ### Writes and atomics that perform -/

@[simp] theorem performBytes_turn (s : State) (obj salt : Nat) (l : List (Nat × Byte)) : (performBytes s obj salt l).turn = s.turn := by
  simp [performBytes]

@[simp] theorem performAtomic_turn (s : State) (obj o n aop : Nat) (bf2 : Bool) (v cmp salt : Nat) :
    (performAtomic s obj o n aop bf2 v cmp salt).1.turn = s.turn := by
  simp [performAtomic]

end Sys2Proof.Machine.Assembly
end

section
/-! SUPPORT. The commit of the porch (R232) leaves the core that moves, also where it waits. -/

namespace Sys2Proof.Machine.Assembly
open Sys2Proof

/-! ### Folds, messages and contexts that end -/

@[simp] theorem State.setFold_turn (s : State) (fid : Nat) (f : Fold) : (s.setFold fid f).turn = s.turn := by rfl

@[simp] theorem completeFold_turn (s : State) (fid : Nat) : (completeFold s fid).turn = s.turn := by simp [completeFold]

@[simp] theorem settleFold_turn (s : State) (fid : Nat) : (settleFold s fid).turn = s.turn := by
  simp [settleFold, apply_ite State.turn]

@[simp] theorem landBytes_turn (s : State) (fid n : Nat) : (landBytes s fid n).turn = s.turn := by
  unfold landBytes
  dsimp only
  split
  · rfl
  · split
    · simp
    · split <;> simp

@[simp] theorem landFor_turn (s : State) (fold : Option Nat) (n : Nat) : (landFor s fold n).turn = s.turn := by
  cases fold <;> simp [landFor]

@[simp] theorem State.track_turn (s : State) (core cmd : Nat) (f : Tracked → Tracked) : (s.track core cmd f).turn = s.turn := by rfl

@[simp] theorem State.setConn_turn (s : State) (i : Nat) (c : Conn) : (s.setConn i c).turn = s.turn := by rfl
@[simp] theorem State.setPort_turn (s : State) (i : Nat) (p : Port) : (s.setPort i p).turn = s.turn := by rfl
@[simp] theorem dropFrame_turn (s : State) (port addr : Nat) : (dropFrame s port addr).turn = s.turn := by simp [dropFrame]

@[simp] theorem sendMessage_turn (s : State) (cn : Nat) (m : Message) : (sendMessage s cn m).turn = s.turn := by
  simp [sendMessage, apply_ite State.turn]

@[simp] theorem State.endContext_turn (s : State) (core : Nat) (t : TrapEv) : (s.endContext core t).turn = s.turn := by
  simp [State.endContext, State.closeContext, State.dropUnsent, State.recall]

@[simp] theorem dropContext_turn (s : State) (core : Nat) (t : TrapEv) : (dropContext s core t).turn = s.turn := by
  fun_cases dropContext s core t <;> simp

@[simp] theorem settleTracked_turn (s : State) (core cmd : Nat) : (settleTracked s core cmd).turn = s.turn := by
  unfold settleTracked
  split
  · rfl
  · dsimp only
    split
    · split
      · rfl
      · split
        · rfl
        · split
          · rfl
          · split
            · simp
            · rfl
            · split <;> simp
    · rfl

/-! ### Held writes that perform -/

@[simp] theorem addElems_turn (a : Nat × Bool) (obj o : Nat) (l : List Byte) (s : State) : (addElems a obj o l s).turn = s.turn := by
  fun_induction addElems with
  | case1 o b0 b1 b2 b3 t s ih => simpa using ih
  | case2 => rfl

@[simp] theorem grantPermits_turn (s : State) (obj o count dur : Nat) : (grantPermits s obj o count dur).turn = s.turn := by simp [grantPermits]

@[simp] theorem sendRow_turn (s : State) (core : Nat) (h : Held) (kind cmd row : Nat) (pv : Bool) (pmt : Word) (count dur : Nat) (d : List Byte) :
    (sendRow s core h kind cmd row pv pmt count dur d).turn = s.turn := by
  refine turn_foldl (fun s p => ?_) _ _
  dsimp only
  split
  · rfl
  · split
    · simp
    · split
      · rw [landFor_turn]
        split
        · simp
        · split <;> simp
      · simp

@[simp] theorem performRow_turn (s : State) (core : Nat) (h : Held) (kind cmd row : Nat) (pv : Bool) (pmt : Word) (count dur : Nat) (d : List Byte)
    (last : Bool) : (performRow s core h kind cmd row pv pmt count dur d last).turn = s.turn := by
  cases last <;> simp [performRow]

@[simp] theorem performSpawn_turn (s : State) (c : Ctx) (h : Held) (pid : Nat) : (performSpawn s c h pid).turn = s.turn := by
  simp [performSpawn]

@[simp] theorem performWake_turn (s : State) (obj off n : Nat) : (performWake s obj off n).turn = s.turn := wakeRecords_turn _ _

@[simp] theorem stagePart_turn (s : State) (core : Nat) (h : Held) (d : List (Nat × Byte)) (gid cmd cls pitch : Nat) :
    (stagePart s core h d gid cmd cls pitch).turn = s.turn := by
  unfold stagePart
  dsimp only
  split <;> split <;> simp

@[simp] theorem recordHeld_turn (s : State) (core : Nat) (c : Ctx) (h : Held) (obj : Nat) : (recordHeld s core c h obj).turn = s.turn := by
  simp [recordHeld]

@[simp] theorem recordAtomic_turn (s : State) (core : Nat) (c : Ctx) (h : Held) (o n scope : Nat) :
    (recordAtomic s core c h o n scope).turn = s.turn := by rfl

@[simp] theorem recordRow_turn (s : State) (core : Nat) (c : Ctx) (h : Held) (kind : Nat) (d : List Byte) :
    (recordRow s core c h kind d).turn = s.turn := by
  unfold recordRow; dsimp only; split <;> simp

/-! ### How the parts of a commit end -/

/-- Each way in which a part of an operation ends that leaves something behind: its answer satisfies `P`, or core `n` still moves in the state that it
leaves. -/
def EndsOn {α : Type} (n : Nat) (P : α → Prop) : Except Stop α → Prop
  | .ok a => P a
  | .error (.after t _) => t.turn = n
  | .error (.later t) => t.turn = n
  | .error _ => True

section
variable {α β : Type} {n : Nat} {P : α → Prop}

@[simp] theorem endsOn_ok (a : α) : EndsOn n P (.ok a) ↔ P a := .rfl
@[simp] theorem endsOn_pure (a : α) : EndsOn n P (pure a) ↔ P a := .rfl
@[simp] theorem endsOn_fatal (f : FaultInfo) : EndsOn n P (.error (.fatal f)) := trivial
@[simp] theorem endsOn_wait : EndsOn n P (.error .wait) := trivial
@[simp] theorem endsOn_after (t : State) (f : FaultInfo) : EndsOn n P (.error (.after t f)) ↔ t.turn = n := .rfl
@[simp] theorem endsOn_later (t : State) : EndsOn n P (.error (.later t)) ↔ t.turn = n := .rfl
@[simp] theorem endsOn_fatalAt (kind obj off : Nat) : EndsOn n P (fatalAt kind obj off) := trivial

@[simp] theorem endsOn_ite (c : Prop) [Decidable c] (a b : Except Stop α) :
    EndsOn n P (if c then a else b) ↔ if c then EndsOn n P a else EndsOn n P b := by split <;> rfl

@[simp] theorem endsOn_bind (r : Except Stop β) (f : β → Except Stop α) : EndsOn n P (r >>= f) ↔ EndsOn n (fun b => EndsOn n P (f b)) r := by
  rcases r with (_ | _ | _ | _) | b <;> exact .rfl

theorem EndsOn.mono {Q : α → Prop} {r : Except Stop α} (h : EndsOn n P r) (hpq : ∀ a, P a → Q a) : EndsOn n Q r := by
  rcases r with (_ | _ | _ | _) | a
  case ok => exact hpq a h
  all_goals exact h

/-- What an error leaves behind does not depend on what was to be answered. -/
theorem EndsOn.of_error {Q : β → Prop} {e : Stop} (h : EndsOn n P (.error e)) : EndsOn n Q (.error e : Except Stop β) := by cases e <;> exact h

/-- A part of an operation, and what it goes on with. -/
theorem EndsOn.bind {r : Except Stop β} {R : β → Prop} {f : β → Except Stop α} (h : EndsOn n R r) (hf : ∀ b, R b → EndsOn n P (f b)) :
    EndsOn n P (r >>= f) := (endsOn_bind r f).2 (h.mono hf)

@[simp] theorem endsOn_atCommit (r : Except Stop α) : EndsOn n P (atCommit r) ↔ EndsOn n P r := by
  rcases r with (_ | _ | _ | _) | a <;> exact .rfl

@[simp] theorem endsOn_forM {f : β → Except Stop Unit} (h : ∀ b, EndsOn n (fun _ => True) (f b)) (l : List β) :
    EndsOn n (fun _ => True) (forM l f) := by
  induction l with
  | nil => trivial
  | cons b t ih => exact (h b).bind fun _ _ => ih

end

/-! ### The checks of a commit leave no state -/

@[simp] theorem endsOn_tierCheck (n : Nat) (s : State) (core obj o len salt : Nat) : EndsOn n (fun _ => True) (tierCheck s core obj o len salt) := by
  unfold tierCheck
  split
  · split <;> simp
  · split
    · dsimp only; split <;> simp
    · simp

@[simp] theorem endsOn_pageCheck (n : Nat) (s : State) (obj : Nat) (e : ObjEnt) (o len salt kind : Nat) (ok : PageEnt → Bool) :
    EndsOn n (fun _ => True) (pageCheck s obj e o len salt kind ok) := by
  unfold pageCheck; split <;> simp

@[simp] theorem endsOn_portCheck (n : Nat) (s : State) (w : Who) (gen : Option Nat) (obj o len : Nat) (wr : Bool) (salt : Nat) :
    EndsOn n (fun _ => True) (portCheck s w gen obj o len wr salt) := by
  unfold portCheck
  split
  · generalize (pagesOf 65536 o len).find? (fun r => s.lostRegion obj r) = r
    cases r <;> simp
  · simp

@[simp] theorem endsOn_heldCheck (n : Nat) (s : State) (core : Nat) (c : Ctx) (h : Held) : EndsOn n (fun _ => True) (heldCheck s core c h) := by
  unfold heldCheck
  dsimp only
  split
  -- a spawn, an arrival, a write to another scratchpad and a `wakew`: the port's and the tier's checks alone
  case h_1 | h_2 | h_4 | h_5 => simp
  -- a remote row, a part of a group drain and a local write: the port's checks, then the partial-block policy
  all_goals exact EndsOn.bind (R := fun _ => True) (by simp) fun _ _ => by split <;> simp

/-! ### The writes of a commit -/

section
variable {n : Nat} {s : State} (h : s.turn = n)
include h

theorem endsOn_performArrive (core i fid : Nat) : EndsOn n (fun t => t.turn = n) (performArrive s core i fid) := by
  unfold performArrive
  split
  · exact h
  · dsimp only
    split
    · exact endsOn_fatal _
    · rwa [endsOn_ok, settleFold_turn, State.turn_setCtx, State.setFold_turn]

theorem endsOn_performHeld (core : Nat) (w : Held) (last : Bool) : EndsOn n (fun t => t.turn = n) (performHeld s core w last) := by
  unfold performHeld
  split
  · exact h
  · dsimp only
    split
    · simp
    · split
      · simp
      · split
        · simp [h]
        · split
          -- the arrival at a fold, and a part of a group drain, have ends of their own
          case h_8 => exact endsOn_performArrive (by simp [h]) _ _ _
          case h_11 =>
            split
            · simp [h]
            · split <;> simp [h]
          all_goals simp [h, apply_ite State.turn]

end

theorem endsOn_performDue {n : Nat} (core k : Nat) {s : State} (h : s.turn = n) : EndsOn n (fun t => t.turn = n) (performDue core k s) := by
  induction k generalizing s with
  | zero => exact h
  | succ k ih =>
    unfold performDue
    split
    · exact h
    · next c _ =>
      split
      · exact h
      · next w _ =>
        extract_lets l i
        have hw := endsOn_performHeld h core (l.getD i w) (lastPart c w l.length)
        split
        next t ht =>
          rw [ht, endsOn_ok] at hw
          extract_lets t'
          have ht' : t'.turn = n := (t.turn_modCtx core _).trans hw
          split
          · exact ht'
          · exact ih ht'
        next => exact h
        next => split <;> simp [h]
        next ht => rwa [ht] at hw

@[simp] theorem unmark_turn (core : Nat) (s : State) : (unmark core s).turn = s.turn := s.turn_modCtx core _
@[simp] theorem endWrites_turn (core : Nat) (s : State) : (endWrites core s).turn = s.turn := s.turn_modCtx core _
@[simp] theorem endSpill_turn (s : State) (core : Nat) : (endSpill s core).turn = s.turn := s.turn_modCtx core _

theorem endsOn_arrivalsCheck {n : Nat} (core : Nat) (l : List Held) {s : State} (h : s.turn = n) :
    EndsOn n (fun _ => True) (arrivalsCheck core l s) := by
  induction l generalizing s with
  | nil => trivial
  | cons w t ih =>
    unfold arrivalsCheck
    split
    · next i fid _ =>
      have hw := endsOn_performArrive h core i fid
      split
      next ha => exact ih (by simpa [ha] using hw)
      next ha => exact (ha ▸ hw).of_error
    · exact ih (by simpa using h)

@[simp] theorem reserveAll_turn (l done : List Nat) (s : State) : (reserveAll l done s).1.turn = s.turn := by
  induction l generalizing done s with
  | nil => rfl
  | cons p t ih => unfold reserveAll; split <;> simp [ih]

@[simp] theorem withArrivals_turn (s : State) (core : Nat) : (withArrivals s core).turn = s.turn :=
  turn_foldl (fun s x => turn_foldl (fun s h => by split <;> simp) _ _) _ _

section
variable {n : Nat} {s : State} (h : s.turn = n)
include h

theorem endsOn_runWrites (core : Nat) : EndsOn n (fun t => t.turn = n) (runWrites s core) := by
  have hd := endsOn_performDue core ((s.ctxOf core).elim 1 (dueEvents s)) h
  unfold runWrites
  split
  next ht => simpa [ht] using hd
  next ht => simpa [ht] using hd
  next ht => rw [ht] at hd; exact hd

theorem endsOn_beginWrites (core : Nat) (c : Ctx) (l : List Held) : EndsOn n (fun t => t.turn = n) (beginWrites s core c l) := by
  have ha := endsOn_arrivalsCheck core l (s := withArrivals s core) (n := n) (by simpa using h)
  unfold beginWrites
  simp [h, ha]

theorem endsOn_spill (core : Nat) (p : Held → Bool) : EndsOn n (fun t => t.turn = n) (spill s core p) := by
  unfold spill
  split
  · exact h
  · next c _ =>
    split
    · exact (endsOn_runWrites h core).bind fun t ht => by simpa using ht
    · split
      · exact h
      · split
        · exact endsOn_wait
        · refine (endsOn_beginWrites h core c _).bind fun t ht => ?_
          exact (endsOn_runWrites (by simpa using ht) core).bind fun u hu => by simpa using hu

theorem endsOn_goOnSpill (core : Nat) : EndsOn n (fun t => t.turn = n) (goOnSpill s core) := by
  unfold goOnSpill
  split
  · exact endsOn_spill h core _
  · exact h

theorem endsOn_commitWrites (core : Nat) : EndsOn n (fun t => t.turn = n) (commitWrites s core) := by
  refine (endsOn_goOnSpill h core).bind fun t ht => ?_
  split
  · exact ht
  · next c _ =>
    split
    · exact endsOn_runWrites ht core
    · exact (endsOn_beginWrites ht core c c.porch).bind fun u hu => endsOn_runWrites (by simpa using hu) core

theorem endsOn_fenceSpill (core : Nat) (f : Act) : EndsOn n (fun t => t.turn = n) (fenceSpill s core f) := by
  refine (endsOn_goOnSpill h core).bind fun t ht => ?_
  split
  · exact ht
  · exact endsOn_spill ht core _

theorem endsOn_completeFence (core : Nat) (f : Act) : EndsOn n (fun t => t.turn = n) (completeFence s core f) := by
  unfold completeFence
  split
  · exact h
  · split
    · exact endsOn_wait
    · exact (endsOn_fenceSpill h core f).bind fun t ht => by simp [ht]

end

theorem endsOn_runFences {n : Nat} (core : Nat) (l : List Act) {s : State} (h : s.turn = n) :
    EndsOn n (fun t => t.turn = n) (runFences core l s) := by
  induction l generalizing s with
  | nil => exact h
  | cons f t ih =>
    have hf := endsOn_completeFence h core f
    unfold runFences
    split
    next ht => exact ih (by rwa [ht] at hf)
    next => exact ih h
    next ht => exact ih (by rwa [ht] at hf)
    next ht => rwa [ht] at hf

/-- The commit of a core's porch, however it ends, leaves the core that moves (R232). -/
theorem endsOn_commitPorch {n : Nat} {s : State} (h : s.turn = n) (core : Nat) : EndsOn n (fun t => t.turn = n) (commitPorch s core) := by
  refine (endsOn_commitWrites h core).bind fun t ht => ?_
  have hp : EndsOn n (fun u => u.turn = n) (pumpFences t core) := endsOn_runFences core _ ht
  simp [ht, hp]

/-- The core that moves after a commit that is complete. -/
theorem commitPorch_turn {s t : State} {core : Nat} (h : commitPorch s core = .ok t) : t.turn = s.turn := by
  have := endsOn_commitPorch (s := s) rfl core
  rwa [h] at this

end Sys2Proof.Machine.Assembly
end

section
/-! PROOF. `loop` and `bkt.jmp` (R76, R331, R332), and the suspension points without a check: what is left of a point that may be taken is its course
(R310). -/

namespace Sys2Proof.Machine.Assembly
open Sys2Proof Sys2Proof.Claims

/-! ### Transfers (R72, R76, R332) -/

theorem targetOk_iff (s : State) (c : Ctx) (t : Int) : targetOk s c t = true ↔ inCode s c t := by
  simp [targetOk, inCode, and_assoc]

/-- A transfer into the code object chooses its target. -/
theorem goTo_of_inCode {c : Ctx} {s : State} {t : Int} (h : inCode s c t) : goTo c s t = .ok (chosen t.toNat s) := by
  simp only [goTo, need, (targetOk_iff s c t).2 h, if_true]
  rfl

/-- R76: a loop whose count is zero. -/
theorem loop_zero_does (l : Bool) (cnt : BitVec 6) (e : BitVec 11) :
    Does (.loop l cnt e) (fun c s => (readInt s c .c cnt).setWidth 32 = (0 : BitVec 32) ∧ inCode s c ((c.pc + 32 * e.toNat + 32 : Nat) : Int))
      (fun c s => ((chosen (c.pc + 32 * e.toNat + 32) s).launch (counterWrite c l 0)).modCur
        (onLoop l fun x => { x with active := false })) := by
  refine does_of (exec_loop l cnt e) fun c s _ h => ?_
  obtain ⟨hn, hin⟩ := h
  simp only [hn, if_true, goTo_of_inCode hin]
  rfl

/-- R76: a loop with any other count. -/
theorem loop_nonzero_does (l : Bool) (cnt : BitVec 6) (e : BitVec 11) :
    Does (.loop l cnt e) (fun c s => (readInt s c .c cnt).setWidth 32 ≠ (0 : BitVec 32))
      (fun c s => chosen (c.pc + 32) ((s.launch (counterWrite c l ((readInt s c .c cnt).setWidth 32))).modCur
        (onLoop l fun x => { x with start := c.pc + 32, stop := c.pc + 32 * e.toNat, active := true }))) := by
  refine does_of (exec_loop l cnt e) fun c s _ hn => ?_
  simp only [if_neg hn]
  rfl

/-- Settles O12: the two courses of `loop` by its count, and those of `bkt.jmp` by the first BOUND that the count does not pass. -/
theorem loopsAndBuckets : Obligations.LoopsAndBuckets := by
  refine ⟨fun l cnt e => ⟨loop_zero_does l cnt e, loop_nonzero_does l cnt e⟩, fun cnt xs tdisp np read l => ⟨fun bound target => ?_, ?_⟩⟩
  · refine does_of (exec_bktJmp cnt xs tdisp np) fun c s _ h => ?_
    obtain ⟨htable, hfound, hin⟩ := h
    simp only [relative, htable, bind, Except.bind, hfound]
    exact goTo_of_inCode hin
  · refine does_of (exec_bktJmp cnt xs tdisp np) fun c s _ h => ?_
    obtain ⟨htable, hfound⟩ := h
    simp only [relative, htable, bind, Except.bind, hfound]
    rfl

/-! ### The common sequence (R310) -/

/-- The engines and tiles of a core do not depend on its context. -/
@[simp] theorem quiet_modCtx (s : State) (core : Nat) (f : Ctx → Ctx) : quiet (s.modCtx core f) core = quiet s core := by
  cases h : s.ctxOf core with
  | none => rw [State.modCtx_none h]
  | some c => simp [State.modCtx_some h, quiet, State.core_setCtx]

@[simp] theorem keepSuspended_turn (s : State) (core : Nat) (l : List Nat) : (keepSuspended s core l).turn = s.turn := s.turn_modCtx core _

/-- Keeping the operands of a suspension operation issues nothing. -/
@[simp] theorem othersPending_keepSuspended (s : State) (core : Nat) (l : List Nat) :
    othersPending (keepSuspended s core l) core = othersPending s core := by
  simp [othersPending, keepSuspended, State.ctxOf_modCtx, Option.any_map]

/-- At a point that may be taken nothing of steps 1 and 2 of R310 waits: the rest is the check and the course. -/
theorem suspend_of_ready {l : List Nat} {s : State} (h : pointReady l s) (smask : BitVec 24) (waitv : Word)
    (check : State → Except Stop (State × Course)) :
    suspend s.turn l smask waitv check s = (afterCommit (committed l s) s.turn (check (committed l s))).bind fun r =>
      takeCourse (r.1.modCtx s.turn (endBundle r.1)) s.turn smask waitv r.2 := by
  obtain ⟨hothers, hquiet, hsave, ⟨t, hcommit⟩, hsave', hstatus⟩ := h
  have hc : committed l s = t := by simp only [committed, hcommit]
  rw [hc] at hsave' hstatus ⊢
  have ho : othersPending (keepSuspended s s.turn l) s.turn = false := by rwa [othersPending_keepSuspended]
  have hq : quiet (keepSuspended s s.turn l) s.turn = true := by rwa [keepSuspended, quiet_modCtx]
  have hp : commitPoint s.turn (pointReached l s) = .ok t := by
    simp only [commitPoint, hsave, hcommit, hsave', hstatus, bind, Except.bind]
    rfl
  simp only [pointReached, keepSuspended_turn] at hp
  simp only [suspend, ho, hq, hp, Bool.not_true, Bool.false_eq_true, if_false]
  rfl

/-! ### The core that moves at a suspension point -/

@[simp] theorem State.retire_turn (s : State) (core : Nat) (p : Fly → Bool) : (s.retire core p).turn = s.turn := by
  unfold State.retire; split <;> rfl

@[simp] theorem pointReached_turn (l : List Nat) (s : State) : (pointReached l s).turn = s.turn := by simp [pointReached, State.drain]

@[simp] theorem committed_turn (l : List Nat) (s : State) : (committed l s).turn = s.turn := by
  unfold committed
  split
  next h => simpa using commitPorch_turn h
  next => rfl

@[simp] theorem steppedOver_turn (s : State) : (steppedOver s).turn = s.turn := s.turn_modCur _

/-! ### The courses of a context that may leave (R310 to R314, R79) -/

/-- The fault of a save area does not depend on the loops. -/
theorem saveFault_loopsOff (s : State) (core : Nat) (c : Ctx) : saveFault s core (loopsOff c) = saveFault s core c := rfl

theorem takeCourse_leave {t : State} (h : mayLeave t) (smask : BitVec 24) (waitv : Word) (wait : Nat) (pinf : Bool) :
    takeCourse t t.turn smask waitv (.leave wait pinf none) = .ok (returning t (left smask waitv 1 wait pinf t)) := by
  obtain ⟨c, hc, hrec, hsave⟩ := h
  simp only [takeCourse, hc, hrec, hsave, returning, left, leftAs]
  rfl

theorem takeCourse_stay {t : State} (h : mayLeave t) (waitv : Word) (status : Nat) :
    takeCourse t t.turn saveAll waitv (.stay status) = .ok (stayed waitv (BitVec.ofNat 64 status) t) := by
  obtain ⟨c, hc, hrec, hsave⟩ := h
  simp only [takeCourse, hc, hrec, hsave, stayed]
  rfl

theorem takeCourse_retire {t : State} (h : mayLeave t) (smask : BitVec 24) (waitv : Word) :
    takeCourse t t.turn smask waitv .retire = .ok (leftAs loopsOff smask waitv (BitVec.ofNat 64 (t.pick 7000)) 0 false t) := by
  obtain ⟨c, hc, hrec, hsave⟩ := h
  rw [← saveFault_loopsOff] at hsave
  simp only [loopsOff, hrec] at hsave
  simp only [takeCourse, hc, hrec, hsave, leftAs]
  rfl

/-- A firmware context leaves its core with nothing written (log 18). -/
theorem takeCourse_retire_firmware {t : State} {c : Ctx} (hc : t.ctxOf t.turn = some c) (hrec : c.hasRecord = false) (smask : BitVec 24)
    (waitv : Word) : takeCourse t t.turn smask waitv .retire = .ok (t.setCore t.turn (Core.vacate t.turn (t.core t.turn))) := by
  simp only [takeCourse, hc, hrec]
  rfl

/-- A suspension operation without a check, at a point that may be taken: its course is taken from the committed state. -/
theorem suspendOp_unchecked {c : Ctx} {s : State} (hc : c.suspended = none) (h : pointReady [] s) (smask : BitVec 24) (course : Course) :
    suspendOp (fun _ _ => .ok []) smask (fun _ => 0) (fun _ s => .ok (s, course)) c s
      = takeCourse (steppedOver (committed [] s)) (steppedOver (committed [] s)).turn smask 0 course := by
  simp only [suspendOp, hc, bind, Except.bind, suspend_of_ready h, steppedOver, State.turn_modCtx, committed_turn]
  rfl

/-- Settles O13: each of the four clauses is the course that `takeCourse` gives at the point, once the commit is shown to leave the core that moves. -/
theorem parkMarkAndExit : Obligations.ParkMarkAndExit := by
  intro xs mask
  refine ⟨does_of (exec_park xs mask) fun c s _ h => ?_, does_of exec_segMark fun c s _ h => ?_, does_of exec_exit fun c s _ h => ?_,
    does_of exec_exit fun c s _ h => ?_⟩
  · obtain ⟨hc, hready, hleave⟩ := h
    rw [suspendOp_unchecked hc hready, takeCourse_leave hleave]
  · obtain ⟨hc, hready, hleave⟩ := h
    rw [suspendOp_unchecked hc hready, takeCourse_stay hleave]
    rfl
  · obtain ⟨hc, hready, hleave⟩ := h
    rw [suspendOp_unchecked hc hready, takeCourse_retire hleave]
    rfl
  · obtain ⟨hc, hready, x, hx, hrec⟩ := h
    have hturn : (steppedOver (committed [] s)).turn = s.turn := by simp
    rw [suspendOp_unchecked hc hready, takeCourse_retire_firmware (c := x) (by rwa [hturn]) hrec, hturn]

end Sys2Proof.Machine.Assembly
end

section
/-! SUPPORT. How the operations of a scalar slot answer (R114): from the meaning that several share to the statement about one of them. -/

namespace Sys2Proof.Machine.Assembly
open Sys2Proof Sys2Proof.Claims

variable {i : Instr} {u : IUnit} {x : Bool} {d : BitVec 5} {p : BitVec 2} {a b : BitVec 6}

/-! ### Results -/

theorem scalarFly_eq (u : IUnit) (c : Ctx) (x : Bool) (d : BitVec 5) (lat : Nat) (v : Word) :
    scalarFly u c x d lat v = scalarResult u.slot c x d lat v := rfl

theorem predFly_eq (u : IUnit) (c : Ctx) (p : BitVec 2) (v : Bool) : predFly u c p v = predResult u.slot c p 1 v 0 := rfl

/-- An operation of two sources gives what its meaning computes (R114, R116). -/
theorem gives2_of {lat : Nat} {f g : Word → Word → Word} (he : ∀ s, exec i s = slotOp i (int2 u x d a b lat f) s) (hs : slotOf i = u.slot)
    (hf : ∀ v w, f v w = g v w) : Gives2 i x d a b lat g :=
  alwaysDoes_of he fun c s => by rw [int2, scalarFly_eq, hf, hs]

/-- An operation of one source gives what its meaning computes (R114, R117). -/
theorem gives1_of {f g : Word → Word} (he : ∀ s, exec i s = slotOp i (int1 u x d a f) s) (hs : slotOf i = u.slot) (hf : ∀ v, f v = g v) :
    Gives1 i x d a g :=
  alwaysDoes_of he fun c s => by rw [int1, scalarFly_eq, hf, hs]

/-- A compare or an operation of predicate logic writes what its meaning computes (R123, R124). -/
theorem tests_of {f g : Word → Word → Bool} (he : ∀ s, exec i s = slotOp i (pred2 u p a b f) s) (hs : slotOf i = u.slot)
    (hf : ∀ v w, f v w = g v w) : Tests i p a b g :=
  alwaysDoes_of he fun c s => by rw [pred2, predFly_eq, hf, hs]

/-! ### The divider of a slot (R45, R122) -/

/-- A completion marks every result of its test as complete and leaves the others (R44). -/
theorem Ctx.done_or_mem_of_mem_complete {c : Ctx} {q : Fly → Bool} {w : Fly} (hw : w ∈ (c.complete q).fly) :
    w.done = true ∨ (w ∈ c.fly ∧ q w = false) := by
  obtain ⟨v, hv, rfl⟩ := List.mem_map.mp hw
  by_cases hq : q v = true
  · left
    rw [if_pos hq, Fly.completed]
    split
    next hdone => exact hdone
    next => rfl
  · rw [if_neg hq]
    exact .inr ⟨hv, Bool.eq_false_iff.mpr hq⟩

/-- A division finds the divider of its slot free: its interlock has completed every division before it (R122). -/
theorem done_of_interlock_division (hdiv : divides i = true) {c : Ctx} {y : Slot} {w : Fly} (hw : w ∈ (c.interlock y i).fly)
    (hdivider : w.divider = true) (hvar : w.var = true) (hslot : w.slot = y) : w.done = true := by
  obtain hdone | ⟨-, hq⟩ := Ctx.done_or_mem_of_mem_complete hw
  · exact hdone
  · simpa [hdiv, hdivider, hvar, hslot] using hq

/-- A division gives what its meaning computes, with variable latency, when the divider is free (R122). -/
theorem divides_of {f g : Word → Word → Word} (he : ∀ s, exec i s = slotOp i (division u x d a b f) s) (hs : slotOf i = u.slot)
    (hdiv : divides i = true) (hf : ∀ v w, f v w = g v w) : Divides i x d a b g :=
  ⟨fun _ _ hw => done_of_interlock_division hdiv hw,
    alwaysDoes_of he fun c s => by rw [division, scalarFly_eq, hf, hs]; rfl⟩

end Sys2Proof.Machine.Assembly
end

section
/-! PROOF. The integer operations and the divisions of a scalar slot (R116, R122): the model's word operations in the numbers of Tables 7.1 and 6.6. -/

namespace Sys2Proof.Machine.Assembly
open Sys2Proof Sys2Proof.Claims

/-! ### Values of Table 7.1 -/

section
variable (v w : Word) (n : Nat)

theorem word_sub : v - w = BitVec.ofInt 64 (v.toNat - w.toNat) := by
  apply BitVec.eq_of_toNat_eq
  have hv := v.isLt
  have hw := w.isLt
  rw [BitVec.toNat_sub, BitVec.toNat_ofInt]
  omega

theorem word_mul : v * w = BitVec.ofNat 64 (v.toNat * w.toNat) := BitVec.eq_of_toNat_eq (by simp)

theorem word_shiftLeft : v <<< n = BitVec.ofNat 64 (v.toNat * 2 ^ n) := by
  apply BitVec.eq_of_toNat_eq
  simp [Nat.shiftLeft_eq]

theorem word_ushiftRight : v >>> n = BitVec.ofNat 64 (v.toNat / 2 ^ n) := by
  apply BitVec.eq_of_toNat_eq
  rw [BitVec.toNat_ushiftRight, Nat.shiftRight_eq_div_pow, BitVec.toNat_ofNat,
    Nat.mod_eq_of_lt (Nat.lt_of_le_of_lt (Nat.div_le_self _ _) v.isLt)]

theorem word_sshiftRight : v.sshiftRight n = BitVec.ofInt 64 (v.toInt / 2 ^ n) := by
  rw [BitVec.sshiftRight, Int.shiftRight_eq_div_pow]
  norm_cast

/-- Only a rotation by no place would shift left by the whole width, and there both sides are the word itself. -/
theorem word_rotateRight : v.rotateRight (n % 64) = (v >>> (n % 64)) ||| (v <<< ((64 - n % 64) % 64)) := by
  have hn : n % 64 < 64 := Nat.mod_lt _ (by decide)
  rw [BitVec.rotateRight_eq_rotateRightAux_of_lt hn, BitVec.rotateRightAux]
  by_cases h : n % 64 = 0
  · simp [h]
  · rw [Nat.mod_eq_of_lt (show 64 - n % 64 < 64 by omega)]

/-- A choice between two words is the word of the number chosen, in any reading of words as numbers that can be undone. -/
theorem ite_word_eq {R : Type} {f : Word → R} {g : R → Word} (hg : ∀ v, g (f v) = v) {P : Prop} [Decidable P] {r : R}
    (hr : r = if P then f w else f v) : (if P then w else v) = g r := by
  rw [hr, apply_ite g, hg, hg]

theorem ofNat_toNat_word : BitVec.ofNat 64 v.toNat = v := by rw [BitVec.ofNat_toNat, BitVec.setWidth_eq]

theorem word_min : (if w.slt v then w else v) = BitVec.ofInt 64 (min v.toInt w.toInt) := by
  simp only [BitVec.slt_iff_toInt_lt]
  exact ite_word_eq v w (fun _ => BitVec.ofInt_toInt) (by split <;> omega)

theorem word_max : (if v.slt w then w else v) = BitVec.ofInt 64 (max v.toInt w.toInt) := by
  simp only [BitVec.slt_iff_toInt_lt]
  exact ite_word_eq v w (fun _ => BitVec.ofInt_toInt) (by split <;> omega)

theorem word_minu : (if w.ult v then w else v) = BitVec.ofNat 64 (min v.toNat w.toNat) := by
  simp only [BitVec.ult_iff_toNat_lt]
  exact ite_word_eq v w ofNat_toNat_word (by split <;> omega)

theorem word_maxu : (if v.ult w then w else v) = BitVec.ofNat 64 (max v.toNat w.toNat) := by
  simp only [BitVec.ult_iff_toNat_lt]
  exact ite_word_eq v w ofNat_toNat_word (by split <;> omega)

theorem word_add_shiftLeft : v + w <<< n = BitVec.ofNat 64 (v.toNat + 2 ^ n * w.toNat) := by
  rw [word_shiftLeft, Nat.mul_comm, BitVec.ofNat_add, ofNat_toNat_word]

end

/-! ### Divisions (Table 6.6) -/

theorem word_eq_zero_iff (v : Word) : v = 0 ↔ v.toNat = 0 := by
  rw [← BitVec.toNat_inj]; rfl

/-- The quotient of the most negative dividend by −1 leaves the range of a word and comes back as the dividend. -/
theorem divOf_eq (v w : Word) : divOf v w =
    if w.toNat = 0 then BitVec.ofInt 64 (-1)
    else if v.toInt = -(2 ^ 63) ∧ w.toInt = -1 then v else BitVec.ofInt 64 (v.toInt.tdiv w.toInt) := by
  simp only [divOf, word_eq_zero_iff]
  split
  · rfl
  · split
    next h => rw [← BitVec.ofInt_toInt (x := v), h.1, h.2]; decide
    next => rfl

theorem divuOf_eq (v w : Word) : divuOf v w =
    if w.toNat = 0 then BitVec.ofNat 64 (2 ^ 64 - 1) else BitVec.ofNat 64 (v.toNat / w.toNat) := by
  simp only [divuOf, word_eq_zero_iff]
  rfl

theorem remOf_eq (v w : Word) : remOf v w =
    if w.toNat = 0 then v else if v.toInt = -(2 ^ 63) ∧ w.toInt = -1 then 0 else BitVec.ofInt 64 (v.toInt.tmod w.toInt) := by
  simp only [remOf, word_eq_zero_iff]
  split
  · rfl
  · split
    next h => rw [h.1, h.2]; decide
    next => rfl

theorem remuOf_eq (v w : Word) : remuOf v w = if w.toNat = 0 then v else BitVec.ofNat 64 (v.toNat % w.toNat) := by
  simp only [remuOf, word_eq_zero_iff]

theorem integerResults : Claims.IntegerResults := fun u x d a b =>
  ⟨gives2_of (exec_add u x d a b) rfl BitVec.add_def,
    gives2_of (exec_sub u x d a b) rfl word_sub,
    gives2_of (exec_mul u x d a b) rfl word_mul,
    gives2_of (exec_mulh u x d a b) rfl fun _ _ => rfl,
    gives2_of (exec_mulhu u x d a b) rfl fun _ _ => rfl,
    gives2_of (exec_and u x d a b) rfl fun _ _ => rfl,
    gives2_of (exec_or u x d a b) rfl fun _ _ => rfl,
    gives2_of (exec_xor u x d a b) rfl fun _ _ => rfl,
    gives2_of (exec_andn u x d a b) rfl fun _ _ => rfl,
    gives2_of (exec_orn u x d a b) rfl fun _ _ => rfl,
    gives2_of (exec_xnor u x d a b) rfl fun _ _ => rfl,
    gives2_of (exec_shl u x d a b) rfl fun v w => word_shiftLeft v (w.toNat % 64),
    gives2_of (exec_shr u x d a b) rfl fun v w => word_ushiftRight v (w.toNat % 64),
    gives2_of (exec_sar u x d a b) rfl fun v w => word_sshiftRight v (w.toNat % 64),
    gives2_of (exec_rotr u x d a b) rfl fun v w => word_rotateRight v w.toNat,
    gives2_of (exec_min u x d a b) rfl word_min,
    gives2_of (exec_max u x d a b) rfl word_max,
    gives2_of (exec_minu u x d a b) rfl word_minu,
    gives2_of (exec_maxu u x d a b) rfl word_maxu,
    gives2_of (exec_addS2 u x d a b) rfl fun v w => word_add_shiftLeft v w 2,
    gives2_of (exec_addS3 u x d a b) rfl fun v w => word_add_shiftLeft v w 3⟩

theorem divisionResults : Claims.DivisionResults := fun u x d a b =>
  ⟨divides_of (exec_div u x d a b) rfl rfl divOf_eq,
    divides_of (exec_divu u x d a b) rfl rfl divuOf_eq,
    divides_of (exec_rem u x d a b) rfl rfl remOf_eq,
    divides_of (exec_remu u x d a b) rfl rfl remuOf_eq⟩

/-- Settles O2: each operation launches one result, and the words of the model are those of Tables 7.1 and 6.6. -/
theorem integerAndDivisionResults : Obligations.IntegerAndDivisionResults := ⟨integerResults, divisionResults⟩

end Sys2Proof.Machine.Assembly
end

section
/-! PROOF. The operations of one operand and those on fields (R117 to R121): the model's words in the numbers of Table 7.2. -/

namespace Sys2Proof.Machine.Assembly
open Sys2Proof Sys2Proof.Claims

/-! ### Values of Table 7.2 -/

theorem bitLen_eq (v : Word) : bitLen v.toNat = if v = 0 then 0 else v.toNat.log2 + 1 := by
  simp only [bitLen, word_eq_zero_iff]

/-- Adding a 1 for each element that passes a test counts them. -/
theorem foldl_b2n_eq {α : Type} (q : α → Bool) (l : List α) (n : Nat) : l.foldl (fun k i => k + b2n (q i)) n = n + l.countP q := by
  induction l generalizing n with
  | nil => rfl
  | cons i l ih =>
    rw [List.foldl_cons, ih, List.countP_cons, b2n]
    omega

theorem popCount_eq (v : Word) : popCount v = (List.range 64).countP fun i => v.getLsbD i := by
  rw [popCount, foldl_b2n_eq, Nat.zero_add]

theorem toBytes_eq_map (n v : Nat) : toBytes n v = (List.range n).map fun i => BitVec.ofNat 8 (v / 256 ^ i) := by
  induction n generalizing v with
  | zero => rfl
  | succ n ih =>
    rw [toBytes, ih, List.range_succ_eq_map, List.map_cons, List.map_map]
    simp [Function.comp_def, Nat.div_div_eq_div_mul, Nat.pow_succ']

theorem ofBytes_eq_foldr (l : List Byte) : ofBytes l = l.foldr (fun b n => n * 256 + b.toNat) 0 := by
  induction l with
  | nil => rfl
  | cons b l ih => rw [ofBytes, ih, List.foldr_cons, Nat.mul_comm, Nat.add_comm]

/-- The number of the bytes from the last to the first is Horner's sum from the first to the last. -/
theorem swapBytes_eq (v : Word) :
    swapBytes v = BitVec.ofNat 64 ((List.range 8).foldl (fun n i => n * 256 + v.toNat / 256 ^ i % 256) 0) := by
  rw [swapBytes, ofBytes_eq_foldr, List.foldr_reverse, toBytes_eq_map, List.foldl_map]
  simp only [BitVec.toNat_ofNat]

/-! ### Fields (R118, R120, R121) -/

theorem bextOf_eq (v w : Word) : bextOf v w = BitVec.ofNat 64 (v.toNat / 2 ^ (w.toNat % 64) % 2 ^ (w.toNat / 256 % 64 + 1)) := rfl

theorem binsOf_eq (old v w : Word) : binsOf old v w =
    (old &&& ~~~(BitVec.ofNat 64 ((2 ^ (w.toNat / 256 % 64 + 1) - 1) * 2 ^ (w.toNat % 64))))
      ||| BitVec.ofNat 64 (v.toNat % 2 ^ (w.toNat / 256 % 64 + 1) * 2 ^ (w.toNat % 64)) := by
  have hbits : bits w 8 6 = w.toNat / 256 % 64 := rfl
  simp only [binsOf, hbits, Nat.sub_add_cancel (Nat.two_pow_pos _)]

/-- A word shifted up by 24 places has no bit in common with the low 24 bits of another, so that joining them adds them. -/
theorem litHi_eq (v w : Word) : v <<< 24 ||| (w &&& 0xFFFFFF) = BitVec.ofNat 64 (v.toNat * 2 ^ 24 + w.toNat % 2 ^ 24) := by
  have hlow : w.toNat % 2 ^ 24 < 2 ^ 24 := Nat.mod_lt _ (by decide)
  have hhigh : v.toNat * 2 ^ 24 % 2 ^ 64 = 2 ^ 24 * (v.toNat % 2 ^ 40) := by omega
  apply BitVec.eq_of_toNat_eq
  rw [BitVec.toNat_or, BitVec.toNat_and, show (0xFFFFFF : Word).toNat = 2 ^ 24 - 1 from rfl, Nat.and_two_pow_sub_one_eq_mod,
    BitVec.toNat_shiftLeft, Nat.shiftLeft_eq, hhigh, ← Nat.two_pow_add_eq_or_of_lt hlow, BitVec.toNat_ofNat]
  omega

theorem oneOperandResults : Claims.OneOperandResults := fun u x d a =>
  ⟨gives1_of (exec_clz u x d a) rfl fun v => by rw [bitLen_eq],
    gives1_of (exec_ctz u x d a) rfl fun _ => rfl,
    gives1_of (exec_popc u x d a) rfl fun v => by rw [popCount_eq],
    gives1_of (exec_bswap u x d a) rfl swapBytes_eq,
    gives1_of (exec_mov u x d a) rfl fun _ => rfl⟩

/-- `bins` reads its destination at its issue, like a source, and keeps its bits outside the field (R118, R119). -/
theorem bins_does (u : IUnit) (d : BitVec 5) (a b : BitVec 6) : AlwaysDoes (.bins u d a b) fun c s =>
    s.launch (scalarResult u.slot c false d 1 (binsOf (readS s c u.slot d.toNat) (readInt s c u.slot a) (readInt s c u.slot b))) :=
  alwaysDoes_of (exec_bins u d a b) fun _ _ => rfl

theorem fieldResults : Claims.FieldResults := fun u x d a b =>
  ⟨gives2_of (exec_bext u x d a b) rfl bextOf_eq,
    by simpa only [binsOf_eq] using bins_does u d a b,
    gives2_of (exec_sext u x d a b) rfl fun _ _ => rfl,
    gives2_of (exec_zext u x d a b) rfl fun _ _ => rfl,
    gives2_of (exec_litHi u x d a b) rfl litHi_eq⟩

/-- Settles O1: each operation launches one result, and the words of the model are those of Table 7.2, R118, R120 and R121. -/
theorem oneOperandAndFieldResults : Obligations.OneOperandAndFieldResults := ⟨oneOperandResults, fieldResults⟩

end Sys2Proof.Machine.Assembly
end

section
/-! PROOF. Compares and predicate logic (R123, R124), and the FP32 operations of IA (R125 to R128). -/

namespace Sys2Proof.Machine.Assembly
open Sys2Proof Sys2Proof.Claims

/-! ### Predicates (Tables 7.3 and 7.4) -/

theorem word_beq (v w : Word) : (v == w) = decide (v = w) := rfl

theorem word_bne (v w : Word) : (v != w) = decide (v ≠ w) := by rw [bne_eq, word_beq, decide_not]

/-- Two tests that differ are two statements of which one holds. -/
theorem decide_bne_decide (P Q : Prop) [Decidable P] [Decidable Q] [Decidable (P ≠ Q)] : (decide P != decide Q) = decide (P ≠ Q) := by
  rw [Bool.eq_iff_iff, bne_iff_ne, decide_eq_true_iff, ne_eq, ne_eq, decide_eq_decide, eq_iff_iff]

theorem pnot_does (u : IUnit) (p : BitVec 2) (a : BitVec 6) : AlwaysDoes (.pnot u p a) fun c s =>
    s.launch (predResult u.slot c p 1 (decide (readInt s c u.slot a = 0)) 0) :=
  alwaysDoes_of (exec_pnot u p a) fun c s => by rw [predFly_eq, word_beq]

/-- Settles O3: each operation launches one predicate, and the model's test is the relation of Tables 7.3 and 7.4. -/
theorem predicateResults : Obligations.PredicateResults := fun u p a b =>
  ⟨tests_of (exec_cmpEq u p a b) rfl word_beq,
    tests_of (exec_cmpNe u p a b) rfl word_bne,
    tests_of (exec_cmpLt u p a b) rfl fun _ _ => BitVec.slt_eq_decide,
    tests_of (exec_cmpLtu u p a b) rfl fun _ _ => BitVec.ult_eq_decide,
    tests_of (exec_cmpLe u p a b) rfl fun _ _ => rfl,
    tests_of (exec_cmpLeu u p a b) rfl fun _ _ => rfl,
    tests_of (exec_pand u p a b) rfl fun _ _ => by rw [word_bne, word_bne, Bool.decide_and],
    tests_of (exec_por u p a b) rfl fun _ _ => by rw [word_bne, word_bne, Bool.decide_or],
    tests_of (exec_pxor u p a b) rfl fun _ _ => by rw [word_bne, word_bne, decide_bne_decide],
    tests_of (exec_tstBit u p a b) rfl fun v w => getLsbD_toNat v (w.toNat % 64),
    pnot_does u p a⟩

/-! ### FP32 arithmetic (Table 7.6) -/

/-- A result of IA is rounded once, into the format that `d` and STEP choose (R125, R102). -/
theorem fpFly_eq (c : Ctx) (x : Bool) (d : BitVec 5) (v : FV × Flags) : fpFly c x d v = fpResult c x d v := rfl

theorem fp2_eq (x : Bool) (d : BitVec 5) (a b : BitVec 6) (f : RM → FV → FV → FV × Flags) (c : Ctx) (s : State) :
    fp2 x d a b f c s = .ok (s.launch (fpResult c x d (f (fpMode c x) (readFp s c .ia a) (readFp s c .ia b)))) := rfl

/-- An operation of two FP32 sources gives what its meaning computes, rounded (R125, R126). -/
theorem givesFp_of {i : Instr} {x : Bool} {d : BitVec 5} {a b : BitVec 6} {f : RM → FV → FV → FV × Flags}
    (he : ∀ s, exec i s = slotOp i (fp2 x d a b f) s) : GivesFp i x d a b f :=
  alwaysDoes_of he (fp2_eq x d a b f)

theorem scalarFpResults : Claims.ScalarFpResults := fun x d a b =>
  ⟨givesFp_of (exec_faddS x d a b),
    givesFp_of (exec_fsubS x d a b),
    givesFp_of (exec_fmulS x d a b),
    givesFp_of (exec_fminS x d a b),
    givesFp_of (exec_fmaxS x d a b),
    alwaysDoes_of (exec_ffmaS x d a b) fun c s => fp2_eq x d a b _ c s⟩

/-! ### FP32 compares and conversions (Table 7.7) -/

theorem fpCmp_eq (p : BitVec 2) (v : Bool × Flags) (c : Ctx) (s : State) :
    fpCmp p v c s = .ok (s.launch (predResult .ia c p 4 v.1 v.2)) := rfl

/-- A conversion to an integer gives the value rounded under RM into its range (R128). -/
theorem givesInt_of {i : Instr} {x : Bool} {d : BitVec 5} {a : BitVec 6} {lo hi : Int}
    (he : ∀ s, exec i s = slotOp i (fpToInt x d a lo hi) s) : GivesInt i x d a lo hi :=
  alwaysDoes_of he fun _ _ => rfl

theorem scalarFpConversions : Claims.ScalarFpConversions := fun x d p a b =>
  ⟨alwaysDoes_of (exec_fcmpLtS p a b) fun c s => fpCmp_eq p _ c s,
    alwaysDoes_of (exec_fcmpEqS p a b) fun c s => fpCmp_eq p _ c s,
    alwaysDoes_of (exec_fcvtSI x d a) fun c s => by rw [fpFly_eq],
    alwaysDoes_of (exec_fcvtSIU x d a) fun c s => by rw [fpFly_eq],
    givesInt_of (exec_fcvtIS x d a),
    givesInt_of (exec_fcvtISU x d a),
    givesInt_of (exec_fcvtISW x d a)⟩

/-- Settles O5: each operation of IA launches one result, rounded as R125 has it, or one predicate, of latency 4. -/
theorem scalarFloatingPoint : Obligations.ScalarFloatingPoint := ⟨scalarFpResults, scalarFpConversions⟩

end Sys2Proof.Machine.Assembly
end

section
/-! PROOF. `trap`, `brk`, `rfe` and `halt` (R373, R374, R398): the context that ends its bundle goes on running, so that its event freezes it. -/

namespace Sys2Proof.Machine.Assembly
open Sys2Proof Sys2Proof.Claims

/-! ### The end of a bundle (R77) -/

@[simp] theorem endActionOf_mode (s : State) (n : Nat) (c : Ctx) : (endActionOf s n c).1.mode = c.mode := by
  simp only [endActionOf, Ctx.launch, apply_ite Prod.fst, apply_ite Ctx.mode, ite_self]

@[simp] theorem endAction_mode (s : State) (c : Ctx) : (endAction s c).mode = c.mode := by
  unfold endAction
  dsimp only
  split
  · rfl
  · split <;> simp

@[simp] theorem endBundle_mode (s : State) (c : Ctx) : (endBundle s c).mode = c.mode := endAction_mode s c

/-! ### `trap` and `brk` (R398) -/

/-- An event of a context that runs freezes it at once (R393). -/
theorem takeResumable_of_run {s : State} {core : Nat} {c : Ctx} (hc : s.ctxOf core = some c) (hrun : c.mode = .run) (flags : Nat) (e : TrapEv) :
    s.takeResumable core flags e = (s.setCtx core { c with mode := .frozen e none }).tell (queueOf core) flags e := by
  simp only [State.takeResumable, hc, hrun]

/-- The context after its bundle has issued in every slot, where the core holds one. -/
theorem cur_modCur_endBundle {s : State} {c : Ctx} (hc : s.ctxOf s.turn = some c) : (s.modCur (endBundle s)).cur = some (endBundle s c) := by
  rw [State.cur, State.modCur, State.turn_modCtx, State.ctxOf_modCtx, if_pos rfl, hc, Option.map_some]

theorem raiseHere_of_run {s : State} {c : Ctx} (hc : s.ctxOf s.turn = some c) (hrun : c.mode = .run) (kind code : Nat) (arg : Word) :
    raiseHere kind code arg s = frozenAtNext kind code arg s := by
  have hcur := cur_modCur_endBundle hc
  have hmode : (endBundle s c).mode = .run := by rw [endBundle_mode, hrun]
  simp only [raiseHere, frozenAtNext, hcur, takeResumable_of_run hcur hmode]

theorem trapsFreeze : Claims.TrapsFreeze := fun a code =>
  ⟨does_of (exec_trap a code) fun c s hc hrun => by rw [raiseHere_of_run hc hrun]; rfl,
    does_of (exec_brk code) fun c s hc hrun => by rw [raiseHere_of_run hc hrun]; rfl⟩

/-! ### `rfe` and `halt` (R373, R374) -/

theorem rfe_does : AlwaysDoes .rfe fun c s =>
    (chosen (stickyAt c.trapRet 1 c.pos c.trapRetQ).toNat s).modCur fun c => { c with held := false } :=
  alwaysDoes_of exec_rfe fun _ _ => rfl

theorem commitNow_of_commitPorch {sl : Slot} {s t : State} (h : commitPorch s s.turn = .ok t) :
    commitNow sl s = .ok (t.modCur fun c => { c with replay := false }) := by
  simp only [commitNow, h]

/-- A core stops where no event is pending for it, in its queue or, at the housekeeper, from the hub. -/
theorem halt_does (t : State) : Does .halt (fun _ s => commitPorch s s.turn = .ok t) fun _ _ =>
    let u := t.modCur fun c => { c with replay := false }
    u.modCur fun c => { endBundle u c with
      mode := if sget [] u.queues (queueOf u.turn) = [] ∧ (u.turn ≠ 294 ∨ u.hubEvents = 0) then .halted else .run } := by
  refine does_of exec_halt fun c s _ h => ?_
  simp only [commitNow_of_commitPorch h, bind, Except.bind, Bool.and_eq_true, Bool.or_eq_true, List.isEmpty_iff, bne_iff_ne, beq_iff_eq]

/-- Settles O16: `trap` and `brk` freeze a context that runs, `rfe` chooses its target, and `halt` ends its bundle behind its commit. -/
theorem trapsAndReturns : Obligations.TrapsAndReturns := ⟨trapsFreeze, rfe_does, halt_does⟩

end Sys2Proof.Machine.Assembly
end

section
/-! PROOF. The operations of MX (R161 to R172, R177, R178): what the checks of an issue come to where they pass, the command that enters the queue,
and the cancelling of a bank on which no assist holds a command. -/

namespace Sys2Proof.Machine.Assembly
open Sys2Proof Sys2Proof.Claims

theorem bits_low {m : Nat} (w : BitVec m) (n : Nat) : bits w 0 n = w.toNat % 2 ^ n := by rw [bits, Nat.pow_zero, Nat.div_one]

/-! ### The gate of a tile (Table 2.18, R239) -/

section
variable {s : State} {c : Ctx} {n : Nat}

theorem not_tileWaits_of_readable (h : tileReadable s c n) : tileWaits (s.tile s.turn n) false = false := by
  obtain ⟨-, hst | hst⟩ := h <;> simp [tileWaits, hst, tFilling]

theorem tileUsable_of_readable (h : tileReadable s c n) : tileUsable (s.tile s.turn n) = true := by
  obtain ⟨-, hst | hst⟩ := h <;> simp [tileUsable, hst, tReady, tDraining]

theorem tileNow_of_readable (h : tileReadable s c n) : tileNow s c n = .ok (s.tile s.turn n) := by
  rw [tileNow, h.1]
  rfl

theorem not_tileWaits_of_ready (h : ready s c n) : tileWaits (s.tile s.turn n) true = false := by
  simp [tileWaits, h.2, tFilling, tDraining]

/-- A `READY` tile may be read as well as written (Table 2.18). -/
theorem tileReadable_of_ready (h : ready s c n) : tileReadable s c n := ⟨h.1, .inl h.2⟩

/-! ### The gate of the engine (R161, R163) -/

theorem mxFenced_of_open (h : mxOpen s c) : mxFenced s c = .ok () := by
  rw [mxFenced, accessM, h.2]
  rfl

/-- A command enters the queue where the engine has room for it, with GEN of its tiles' spaces (R161, R354). -/
theorem queueMx_of_room (h : mxRoom s) (m : MxCmd) : queueMx s m = .ok (mxQueued m s) := by
  have hgen : spaceGen s = fun t => (s.desc (Tile.obj t)).toNat % 2 ^ 16 := funext fun t => bits_low _ 16
  rw [queueMx, hgen]
  exact if_pos h

/-- Tiles that may all be read now make no operation that reads them wait. -/
theorem not_any_waits {l : List Nat} (h : ∀ k ∈ l, tileReadable s c k) :
    (l.any fun k => c.tileLater k || tileWaits (s.tile s.turn k) false) = false := by
  rw [List.any_eq_false]
  intro k hk
  simp [(h k hk).1, not_tileWaits_of_readable (h k hk)]

end

/-! ### Products (R161, R162) -/

/-- An `mma` without a metadata tile. -/
theorem mma_dense_does (a b : BitVec 6) (n z tb : Bool) :
    Does (.mma a b n z tb false) (fun c s => tileReadable s c a.toNat ∧ tileReadable s c b.toNat ∧ mxOpen s c
        ∧ mmaChecks s s.turn (b2n n) (s.tile s.turn a.toNat) (s.tile s.turn b.toNat) none tb c.fmtNow (readStage s c .mx 0) 0 = .ok ())
      fun c s => mxQueued { mxCommand c 1 (b2n n) (bits (readStage s c .mx 0) 24 7) (bits (readStage s c .mx 0) 0 7 + 1) [a.toNat, b.toNat]
        [s.tile s.turn a.toNat, s.tile s.turn b.toNat] with ms0 := readStage s c .mx 0, z := z, tb := tb } s := by
  refine does_of (exec_mma a b n z tb false) fun c s _ h => ?_
  obtain ⟨ha, hb, hopen, hchecks⟩ := h
  have hwait := not_any_waits (s := s) (c := c) (l := [a.toNat, b.toNat]) (by simp [ha, hb])
  simp only [Bool.false_eq_true, if_false, List.append_nil, mxFenced_of_open hopen, hwait, readMs, hchecks, bind, Except.bind]
  exact queueMx_of_room hopen.1 _

/-- An `mma` of a sparse operand, whose metadata tile `ms1` names (R172). -/
theorem mma_sparse_does (a b : BitVec 6) (n z tb : Bool) :
    let third := fun (c : Ctx) (s : State) => (readStage s c .mx 1).toNat % 64
    Does (.mma a b n z tb true) (fun c s => tileReadable s c a.toNat ∧ tileReadable s c b.toNat ∧ tileReadable s c (third c s) ∧ mxOpen s c
        ∧ mmaChecks s s.turn (b2n n) (s.tile s.turn a.toNat) (s.tile s.turn b.toNat) (some (s.tile s.turn (third c s))) tb c.fmtNow
          (readStage s c .mx 0) (readStage s c .mx 1) = .ok ())
      fun c s => mxQueued { mxCommand c 1 (b2n n) (bits (readStage s c .mx 0) 24 7) (bits (readStage s c .mx 0) 0 7 + 1)
        [a.toNat, b.toNat, third c s] [s.tile s.turn a.toNat, s.tile s.turn b.toNat, s.tile s.turn (third c s)] with
        ms0 := readStage s c .mx 0, z := z, tb := tb, sp := true } s := by
  refine does_of (exec_mma a b n z tb true) fun c s _ h => ?_
  obtain ⟨ha, hb, hthird, hopen, hchecks⟩ := h
  have hnumber : bits (readStage s c .mx 1) 0 6 = (readStage s c .mx 1).toNat % 64 := bits_low _ 6
  have hwait := not_any_waits (s := s) (c := c) (l := [a.toNat, b.toNat, (readStage s c .mx 1).toNat % 64]) (by simp [ha, hb, hthird])
  simp only [if_true, Bool.false_eq_true, if_false, List.cons_append, List.nil_append, mxFenced_of_open hopen, readMs, hnumber, hwait, hchecks,
    bind, Except.bind]
  exact queueMx_of_room hopen.1 _

/-! ### Rows (R177) -/

theorem checksOf_of_all {s : State} {l : List (Bool × FaultInfo)} (h : ∀ x ∈ l, x.1 = true) : checksOf s l = .ok () := by
  have hnone : (l.filter fun x => !x.1) = [] := List.filter_eq_nil_iff.mpr fun x hx => by simp [h x hx]
  simp only [checksOf, hnone, List.map_nil]

theorem rowChecks_of {s : State} {bank r : Nat} {t : Tile} {ok : Bool} (husable : tileUsable t = true) (howner : bankOwner s s.turn bank = false)
    (hformat : ok = true) (hspace : t.space = 0 ∨ t.space = 2) (hcols : t.rowBytes / rowElem t.fmtc ≤ 128) (hrows : r + t.rows ≤ 128) :
    rowChecks s bank t r ok = .ok () :=
  checksOf_of_all (by simp [husable, howner, hformat, hspace, hcols, hrows])

theorem macc_clr_does (n : Bool) (r cnt : BitVec 7) :
    Does (.maccClr n r cnt) (fun _ s => bankOwner s s.turn (b2n n) = false ∧ mxRoom s)
      fun c s => mxQueued (mxCommand c 2 (b2n n) r.toNat (cnt.toNat + 1) [] []) s := by
  refine does_of (exec_maccClr n r cnt) fun c s _ h => ?_
  obtain ⟨howner, hroom⟩ := h
  have hchecks : checksOf s [(!bankOwner s s.turn (b2n n), faultOf kBank 0)] = .ok () := checksOf_of_all (by simp [howner])
  simp only [hchecks, bind, Except.bind]
  exact queueMx_of_room hroom _

theorem macc_ld_does (t : BitVec 6) (n : Bool) (r : BitVec 7) :
    let tile := fun s : State => s.tile s.turn t.toNat
    Does (.maccLd t n r) (fun c s => tileReadable s c t.toNat ∧ mxOpen s c ∧ bankOwner s s.turn (b2n n) = false
        ∧ ((fmtAcc c.fmtNow = 1 ∧ 1 ≤ (tile s).fmtc ∧ (tile s).fmtc ≤ 3) ∨ (fmtAcc c.fmtNow = 0 ∧ (tile s).fmtc = 0))
        ∧ ((tile s).space = 0 ∨ (tile s).space = 2) ∧ (tile s).rowBytes / rowElem (tile s).fmtc ≤ 128 ∧ r.toNat + (tile s).rows ≤ 128)
      fun c s => mxQueued (mxCommand c 3 (b2n n) r.toNat (tile s).rows [t.toNat] [tile s]) s := by
  refine does_of (exec_maccLd t n r) fun c s _ h => ?_
  obtain ⟨htile, hopen, howner, hformat, hspace, hcols, hrows⟩ := h
  have hchecks := rowChecks_of (tileUsable_of_readable htile) howner
    (ok := (fmtAcc c.fmtNow == 1 && decide (1 ≤ Tile.fmtc (s.tile s.turn t.toNat)) && decide (Tile.fmtc (s.tile s.turn t.toNat) ≤ 3))
      || (fmtAcc c.fmtNow == 0 && Tile.fmtc (s.tile s.turn t.toNat) == 0))
    (by simpa [and_assoc] using hformat) hspace hcols hrows
  simp only [mxFenced_of_open hopen, tileNow_of_readable htile, not_tileWaits_of_readable htile, hchecks, bind, Except.bind]
  exact queueMx_of_room hopen.1 _

/-- A store's tile is `FILLING` from its issue on (R163). -/
theorem macc_st_does (t : BitVec 6) (n : Bool) (r : BitVec 7) :
    let tile := fun s : State => s.tile s.turn t.toNat
    Does (.maccSt t n r) (fun c s => ready s c t.toNat ∧ mxOpen s c ∧ bankOwner s s.turn (b2n n) = false
        ∧ storeFormats c.fmtNow = true ∧ (tile s).fmtc = fmtOut c.fmtNow
        ∧ ((tile s).space = 0 ∨ (tile s).space = 2) ∧ (tile s).rowBytes / rowElem (tile s).fmtc ≤ 128 ∧ r.toNat + (tile s).rows ≤ 128)
      fun c s =>
        let u := mxQueued (mxCommand c 4 (b2n n) r.toNat (tile s).rows [t.toNat] [tile s]) s
        u.setTile u.turn t.toNat (setBits (u.tile u.turn t.toNat) 92 3 1) := by
  refine does_of (exec_maccSt t n r) fun c s _ h => ?_
  obtain ⟨htile, hopen, howner, hstore, hout, hspace, hcols, hrows⟩ := h
  have hchecks := rowChecks_of (tileUsable_of_readable (tileReadable_of_ready htile)) howner
    (ok := storeFormats c.fmtNow && Tile.fmtc (s.tile s.turn t.toNat) == fmtOut c.fmtNow) (by simp [hstore, hout]) hspace hcols hrows
  simp only [mxFenced_of_open hopen, tileNow_of_readable (tileReadable_of_ready htile), not_tileWaits_of_ready htile, hchecks,
    queueMx_of_room hopen.1, bind, Except.bind]
  rfl

/-! ### Cancelling (R178) -/

/-- No command that a cancelling selects is in the queue after it. -/
theorem mx_cancelSome_unselected (s : State) (core : Nat) (p : MxCmd → Bool) : ∀ x ∈ ((cancelSome s core p).core core).mx, p x = false := by
  intro x hx
  rw [cancelSome, State.modCore, State.core_setCore_self] at hx
  simpa using (List.mem_filter.mp hx).2

/-- With no command of its banks held by an assist, now or when it first waited, `mcancel` has nothing to wait for. -/
theorem mcancel_does (m : BitVec 2) :
    Does (.mcancel m) (fun c s => c.caught .mx = none ∧ ∀ x ∈ (s.core s.turn).mx, x.assisted = true → m.getLsbD x.bank = false)
      fun _ s => openBanks (cancelSome s s.turn fun x => m.getLsbD x.bank) s.turn fun k => m.getLsbD k := by
  refine does_of (exec_mcancel m) fun c s _ h => ?_
  obtain ⟨hcaught, hassist⟩ := h
  have hheld : ((s.core s.turn).mx.filter fun x => x.assisted && m.getLsbD x.bank) = [] :=
    List.filter_eq_nil_iff.mpr fun x hx => by simpa using hassist x hx
  have hgone : ((cancelSome s s.turn fun x => m.getLsbD x.bank).core s.turn).mx.any (fun x => m.getLsbD x.bank) = false :=
    List.any_eq_false.mpr fun x hx => by simp [mx_cancelSome_unselected _ _ _ x hx]
  simp only [hcaught, hheld, Option.getD_none, List.map_nil, List.append_nil, List.eraseDups_nil, List.contains_nil, Bool.not_false,
    Bool.and_true, hgone, Bool.false_eq_true, if_false]

/-- Settles O24: each issue's checks pass, so that its command enters the queue, and a cancelling leaves no command of its banks to wait for. -/
theorem matrixCommandsQueue : Obligations.MatrixCommandsQueue := fun a b t n z tb r cnt m =>
  ⟨mma_dense_does a b n z tb, mma_sparse_does a b n z tb, macc_clr_does n r cnt, macc_ld_does t n r, macc_st_does t n r, mcancel_does m⟩

end Sys2Proof.Machine.Assembly
end
